-- ==== Sys2Proof/Word.lean ====
section
/-! DEFINITION. Word.lean: the 16-bit word of every register and engine memory (R8, R9), the byte, and the sparse
table that holds what is addressed by a number. -/

namespace Sys2Proof

/-- A word is 16 bits (R8); every direct register is 16 bits wide (R9). -/
abbrev Word := BitVec 16

/-- A byte is an octet (R10). -/
abbrev Byte := BitVec 8

/-- A sparse table: pairs of a number and a value, the numbers strictly rising, no value equal to what an
unlisted number reads as. `tget` and `tput` of Machine/Ops.lean read and write it. -/
abbrev Tbl (α : Type) := List (Nat × α)

end Sys2Proof
end

