-- ==== Sys2Proof/Syntax.lean ====
section
/-! DEFINITION. Syntax.lean: the commands the hub takes: one constructor per row of spec/opcode_table.json, with the
row's operands. What the environment measures or delivers (a phase error, a frame's bytes, an ECC finding) is an
operand too. -/

namespace Sys2Proof

/-- What the clock measures when it evaluates references: the phase error of each core in units of 4 ns (R69) and the
mean steering offset of the last HAVG seconds in 1/128 ppm (R73). -/
structure ClkMeas where
  eA : Word
  eB : Word
  heldA : Word
  heldB : Word
deriving DecidableEq, Repr

/-- What ECC finds in a word read (R167): nothing, a correctable error with its syndrome, an uncorrectable error. -/
inductive Ecc where
  | ok
  | corrected (syndrome : Word)
  | uncorrectable
deriving DecidableEq, Repr

/-- The head of a slot word: stop bit and predicate (R182), and the operand bits that the form reserves (R189). With it
comes what ECC finds as the operation is fetched and executed (R167). -/
structure Hdr where
  s : Bool
  pe : Bool
  pn : Bool
  pf : Fin 4
  /-- The operand bits that no field of the form holds, at their places in [19:0]. -/
  rsv : BitVec 20 := 0
  /-- What ECC finds in the slot word. -/
  fetch : Ecc := .ok
  /-- What ECC finds in the words that the operation reads, in their order; for CALL, in its literal word. -/
  reads : List Ecc := []
deriving DecidableEq, Repr

/-- Operands of the MM form (R189). -/
structure MM where
  ad : Fin 4
  sa : Fin 16
  sb : Fin 16
  sat : Bool
  rm : Bool
  sg : Fin 4
  aux : BitVec 6
deriving DecidableEq, Repr

/-- Operands of the XR form (R189). -/
structure XR where
  dst : Fin 16
  sa : Fin 16
  sb : Fin 16
  sat : Bool
  rm : Bool
  fn : Fin 16
  ax : Fin 4
deriving DecidableEq, Repr

/-- Operands of the XI and TI forms (R189). -/
structure TI where
  dst : Fin 16
  imm : Word
deriving DecidableEq, Repr

/-- Operands of the XE form (R189). -/
structure XE where
  dst : Fin 16
  sa : Fin 16
  arg : BitVec 12
deriving DecidableEq, Repr

/-- Operands of the TM form (R189, R190). -/
structure TM where
  dr : Fin 16
  pr : Fin 8
  ms : Bool
  w : Bool
  am : Fin 4
  ofs : BitVec 9
deriving DecidableEq, Repr

/-- Operands of the TF form (R189). -/
structure TF where
  fa : Fin 16
  px : Fin 8
  nm1 : Byte
  aux : BitVec 5
deriving DecidableEq, Repr

/-- Operands of the KR form (R189). -/
structure KR where
  n : Bool
  rs : Bool
  cr : Fin 16
  cm1 : BitVec 12
deriving DecidableEq, Repr

/-- Operands of the KW form (R189). -/
structure KW where
  cr : Fin 16
  dom : Fin 4
  ev : Fin 16
deriving DecidableEq, Repr

/-- What ECC finds when a far request is served: in the level-1 read, in the level-2 read and in each 8-byte unit of
the data, by its number within the block (R297, R298). -/
structure FarEcc where
  l1 : Ecc
  l2 : Ecc
  units : List (Nat × Ecc)
deriving DecidableEq, Repr

/-- What the time-to-digital converter measures at END: the slack, if the program is on time, and the time spent in
waits (R39, R40). -/
structure EndIn where
  slack : Word
  wait : Word
deriving DecidableEq, Repr

/-- Who sent a message that came in a frame: whether by IPv6, its IP and MAC source addresses, and the bytes of the VLAN tags
of the frame (R105, R314). -/
structure NetPeer where
  v6 : Bool
  addr : Nat
  mac : BitVec 48
  tags : List Byte
deriving DecidableEq, Repr

/-- What the converters deliver at a tick of a domain: samples by input, 0 to 7 the analog inputs and 8 and 9 the train-line
ports, and the analog inputs whose modulator reaches the clip level (R19, R435). -/
structure TickIn where
  samples : List (Nat × BitVec 24)
  clips : List Nat
deriving DecidableEq, Repr

/-- A received Announce (R317, R318): external port, sourcePortIdentity, domainNumber and the announced data set. -/
structure PtpAnn where
  port : Fin 2
  ident : BitVec 80
  dom : Byte
  gm : BitVec 64
  prio1 : Byte
  cls : Byte
  acc : Byte
  var : Word
  prio2 : Byte
  steps : Word
deriving DecidableEq, Repr

/-- A received Sync, Follow_Up, Delay_Resp or Delay_Req (R318 to R321): external port, sourcePortIdentity, domainNumber,
sequenceId, the time that the message carries and its correctionField, both in units of 2^-16 ns, and the timestamp that the
hub took as it crossed the port, in units of 0.25 ns (R319). -/
structure PtpMsg where
  port : Fin 2
  ident : BitVec 80
  dom : Byte
  seq : Word
  twoStep : Bool
  time : Int
  corr : Int
  stamp : Int
  /-- requestingPortIdentity of a Delay_Resp. -/
  req : BitVec 80
  peer : NetPeer
deriving DecidableEq, Repr

/-- What an amplifier channel measures at its terminals: a terminal beyond ±30 V, the terminal voltage in V and the
current in mA (R446, R450). -/
structure Sense where
  ext : Bool
  volt : Word
  cur : Word
deriving DecidableEq, Repr

/-- What the analysis of a calibration window finds (R492 to R496): per octave band |Z| in 0.01 Ω and whether its voltage is
high enough; delay, gain and coherence of a path; the level of a residual in 0.001 dBFS. -/
structure CalRes where
  mags : List Word := []
  volts : Byte := 0
  delay : Word := 0
  gain : Word := 0
  coh : BitVec 10 := 0
  level : Int := 0
deriving DecidableEq, Repr

/-- What the unit that the scrubber reads belongs to, where its address does not say: a frame stored in a queue (packet
buffer); in the system region of DRAM a restore image (memory 0 program, 1 Y, 2 register words), a record of the
telemetry ring or four words of a caption page (R531). -/
inductive ScrubUse where
  | other
  | frame (q : Fin 1024) (i : Nat)
  | image (n : Fin 16) (mem : Fin 3) (a : Word)
  | record (slot : BitVec 20)
  | pixels (page : Byte) (w : Fin 512)
deriving DecidableEq, Repr

/-- What the NAND reports while a store command runs (R534, R536): a page program fails, an erase fails, a page read
corrects 6 or more bits in a sector, and the sectors that cannot be corrected, by page and sector. -/
structure NandIn where
  progFail : Bool := false
  eraseFail : Bool := false
  soft : Bool := false
  bad : List (Nat × Nat) := []
deriving DecidableEq, Repr

/-- A log page (R545, R546): the samples that the rate converters delivered per channel, whether the page is too late to be
kept, and what the NAND reports. -/
structure LogIn where
  samples : List (List (BitVec 24)) := []
  late : Bool := false
  nand : NandIn := {}
deriving DecidableEq, Repr

/-- A word of a Roast whose programming does not finish, and what it then reads at each margin (R561, R576). -/
structure RoastBad where
  word : Fin 34
  weak : Word
  normal : Word
  strict : Word
deriving DecidableEq, Repr

/-- The commands: one constructor per row of the table of operations and events. -/
inductive Instr where
  /-- DOMAIN_TICK (R19). A tick of a sample domain publishes M(k-1) to the domain's sinks, takes snapshot S(k), starts bound engines and starts the mix of M(k). -/
  | domainTick (d : Fin 4) (x : TickIn)
  /-- BUNDLE_LIMIT_END (R194). A program that executes 8,192 bundles without reaching END is ended, and the LEN flag is set. -/
  | bundleLimitEnd (n : Fin 16) (x : EndIn)
  /-- SE_PLEN_WRITE (R37). A write of SE_PLEN is accepted, or fails while SPEN is 1 when the value is zero or above the budget. -/
  | sePlenWrite (n : Fin 16) (len : BitVec 14)
  /-- SLACK_MIN_RESET (R40). A write of any value to SE_SLACK_MIN sets it to 0xFFFF. -/
  | slackMinReset (n : Fin 16)
  /-- SPEED_MONITOR_READING (R41). Every 1 ms of reference time each speed monitor publishes its reading. -/
  | speedMonitorReading (m : Fin 8) (rate : Word)
  /-- ASC_EVALUATION (R43). Every 1 ms adaptive supply control raises, lowers or holds the core code according to misses and slack. -/
  | ascEvaluation
  /-- FABRIC_STALL (R53). The watchdog timer of a fabric link reaches LIMIT and completes the handshake with an error response. -/
  | fabricStall (link : Word) (requester : Word)
  /-- CORE_LOCKED (R61). A core's period error stays inside the capture threshold for 64 TCXO cycles, so the core is locked and LOCKED is raised. -/
  | coreLocked (c : Fin 2) (coarse : BitVec 12) (fine : BitVec 10) (skips : List Nat) (m : ClkMeas)
  /-- SEARCH_FALLBACK (R61). Lock is not confirmed within 200 µs, or no valid codes exist, so the core starts the binary code search. -/
  | searchFallback (c : Fin 2)
  /-- FINE_CODE_UPDATE (R62). Every 1 ms the temperature-corrected fine code is recomputed and moved by at most one step. -/
  | fineCodeUpdate (tj : Word)
  /-- UNLOCK (R63). A locked core loses lock, stops its domains and outputs, and relocks. -/
  | unlock (c : Fin 2)
  /-- CORE_BASE_TICK (R76). A base tick of a synthesizer core, at which held stops, hops, rebindings and output changes take effect. -/
  | coreBaseTick (c : Fin 2)
  /-- CORE_STOP_REQUEST (R64). A write of 1 to a CKS_STOP bit requests a stop of the running core, judged at the frame and again at the next base tick. -/
  | coreStopRequest (c : Fin 2)
  /-- CORE_STOP_WITHDRAW (R64). A write of 0 before the base tick withdraws a requested stop. -/
  | coreStopWithdraw (c : Fin 2)
  /-- CORE_RESTART (R64). A write of 0 to the CKS_STOP bit of an OFF core restarts it: it loads its entry in force and locks. -/
  | coreRestart (c : Fin 2)
  /-- REF_SIGNAL_VALID (R66). A valid signal appears on an ABSENT reference, which enters QUALIFYING and starts its timer. -/
  | refSignalValid (r : Fin 3) (offset drift : Word) (m : ClkMeas)
  /-- REF_QUALIFIED (R66). A reference's qualification timer reaches QTIME, the reference becomes QUALIFIED and candidates are evaluated. -/
  | refQualified (r : Fin 3) (offset drift : Word) (m : ClkMeas)
  /-- REF_LOST (R66). A qualifying or qualified reference breaks one of its causes and returns to ABSENT. -/
  | refLost (r : Fin 3) (cause : Fin 5) (offset drift : Word) (m : ClkMeas)
  /-- SLEW_DONE (R69). A committed slew ends, the core enters TRACK, and held hops and new candidates are evaluated. -/
  | slewDone (c : Fin 2) (m : ClkMeas)
  /-- HOP_REQUEST (R77). A write to CKS_HOP requests a hop of a core to a hop-table entry. -/
  | hopRequest (c : Fin 2) (entry : Fin 8) (go : Bool)
  /-- HOP_DONE (R78). The new entry's lock is confirmed, the core resumes its domains and outputs, and it enters FREE. -/
  | hopDone (c : Fin 2) (coarse : BitVec 12) (fine : BitVec 10) (us : Nat) (skips : List Nat) (m : ClkMeas)
  /-- DOMAIN_REBIND (R79). A CKS_DOMCFG write changes a domain's core or rate, to apply at the next base tick. -/
  | domainRebind (d : Fin 4) (field : BitVec 4)
  /-- DOMAIN_ENABLE (R80). A CKS_DOMEN write enables a stopped domain, or cancels a disable that has not yet taken effect. -/
  | domainEnable (d : Fin 4)
  /-- DOMAIN_DISABLE (R80). A CKS_DOMEN write disables a domain, which stops after its next tick. -/
  | domainDisable (d : Fin 4)
  /-- CLKO_ENABLE (R86). EN of a clock output is written 1, and the output starts at the next base tick. -/
  | clkoEnable (m : Fin 8)
  /-- CLKO_DISABLE (R86). EN of a clock output is written 0, and the output completes its high phase and stays low. -/
  | clkoDisable (m : Fin 8) (high : Bool)
  /-- CLKO_STOP_COMPLETE (R86). The high phase of a stopping output ends, and the stop completes. -/
  | clkoStopComplete (m : Fin 8)
  /-- CLKO_DIVIDER_CHANGE (R84). N or HALF of an enabled output is written, to take effect at the next base tick. -/
  | clkoDividerChange (m : Fin 8) (n : Word) (half : Bool)
  /-- CLKO_DELAY_CHANGE (R85). DELAY of an enabled output is written, and it moves by one step per output period. -/
  | clkoDelayChange (m : Fin 8) (delay : BitVec 10)
  /-- CLKO_DOM_CHANGE (R86). A DOM write to a clock output is applied while the output is disabled, or refused while it is enabled. -/
  | clkoDomChange (m : Fin 8) (dom : Fin 4)
  /-- CP_NOP (R95). A NOP frame returns a header that reports ATTN and OWN. -/
  | cpNop (path : Fin 2) (tag : BitVec 4) (addr : Byte) (w1 : Word) (crc : Word)
  /-- CP_RD (R95). An RD frame reads COUNT consecutive direct addresses. -/
  | cpRd (path : Fin 2) (tag : BitVec 4) (addr : Byte) (w1 : Word) (crc : Word)
  /-- CP_RDF (R95). An RDF frame reads one direct address COUNT times. -/
  | cpRdf (path : Fin 2) (tag : BitVec 4) (addr : Byte) (w1 : Word) (crc : Word)
  /-- CP_WR (R95). A WR frame writes COUNT consecutive direct addresses. -/
  | cpWr (path : Fin 2) (tag : BitVec 4) (addr : Byte) (w1 : Word) (data : List Word) (crc : Word)
  /-- CP_WRF (R95). A WRF frame writes one direct address COUNT times. -/
  | cpWrf (path : Fin 2) (tag : BitVec 4) (addr : Byte) (w1 : Word) (data : List Word) (crc : Word)
  /-- CP_RPL (R102). An RPL frame resends the stored response of the matching TAG, or receives status 7. -/
  | cpRpl (path : Fin 2) (tag : BitVec 4) (addr : Byte) (w1 : Word) (crc : Word)
  /-- CP_INVALID_OP (R99). A serial frame with an invalid OP or COUNT is recognised early, and the hub sends fill without a response. -/
  | cpInvalidOp (path : Fin 2) (words : List Word)
  /-- FRAME_TIMEOUT (R101). A request that is not complete 10 ms after CP_SEL is asserted is aborted with code 9. -/
  | frameTimeout (words : List Word)
  /-- FRAME_SHORT (R101). CP_SEL is deasserted before the request is complete, so the frame has no effect and code 10 is recorded. -/
  | frameShort (words : List Word)
  /-- TUNNEL_DATAGRAM (R103). A UDP datagram reaches the tunnel and is accepted into the queue of 8, or dropped with code 11 or 12. -/
  | tunnelDatagram (p : Fin 2) (bytes : List Byte)
  /-- TUNNEL_ATTENTION_NOTICE (R107). A KIND 2 datagram is sent when the attention condition is asserted, and every 100 ms while it stays asserted. -/
  | tunnelAttentionNotice
  /-- OWNER_HANDOVER (R110). The owning path writes CP_OWNER with the other path's number. -/
  | ownerHandover (w0 : Word) (value : Word)
  /-- OWNER_CLAIM (R110). The non-owning path claims ownership while EXP is 1. -/
  | ownerClaim (w0 : Word) (value : Word)
  /-- LEASE_EXPIRED (R110). The lease timer reaches LEASE seconds, so EXP is set and LEASE_EXPIRED is raised. -/
  | leaseExpired
  /-- WINDOW_READ (R112). A read of CP_WDATA reads the addressed word of the indirect space and advances the offset when INC is 1. -/
  | windowRead (path : Fin 2) (ecc : Ecc)
  /-- WINDOW_WRITE (R112). A write of CP_WDATA writes the addressed word of the indirect space and advances the offset when INC is 1. -/
  | windowWrite (path : Fin 2) (w0 : Word) (value : Word)
  /-- CONDITIONAL_CLEAR (R119). A write to a CC register clears the flag only when the expected count matches; otherwise it sets CCI. -/
  | conditionalClear (space : Byte) (offset : BitVec 32) (value : Word)
  /-- SYSTEM_RESET (R125). A write of 0xD1A5 to SYS_RESET resets the system 1 ms after the frame completes. -/
  | systemReset (xl : Option (Byte × Byte))
  /-- REGISTER_WRITE (R646). A write to a register field that has no row of its own stores the value, which takes effect when the frame completes. -/
  | registerWrite (space : Byte) (offset : BitVec 32) (value : Word)
  /-- EVENT_ENTRY (R135). A source's record enters the event queue within 20 µs of its happening. -/
  | eventEntry (src : Byte)
  /-- EVENT_RELEASE (R139). A write of EVQ_HEAD releases records, or is ignored and sets RELERR. -/
  | eventRelease (value : Word)
  /-- ATTENTION_EVALUATION (R146). Every 1 ms of reference time the attention condition is re-evaluated. -/
  | attentionEvaluation
  /-- RATE_LIMIT_WINDOW_END (R142). The rate-limit window of an event kind ends, and further events of that kind may be issued. -/
  | rateLimitWindowEnd (src : Byte) (code : Word) (sub : Nat)
  /-- HWM_RESET (R147). A write to EVQ_HWM sets it to the present fill. -/
  | hwmReset
  /-- FABRIC_START (R591). The fabric starts after supply qualification: the queue starts, the control port answers and PHASE 1 is reached. -/
  | fabricStart (ms : Word) (xl : Option (Byte × Byte))
  /-- LOAD_DONE (R564). The OTP load completes, sets LOADED and loads the fields fed from OTP. -/
  | loadDone (us : Word)
  /-- SAMPLE_PROGRAM_ENABLE (R157). An SE_CTL write of SPEN = 1 is judged, and if accepted takes effect at the next tick of the domain. -/
  | sampleProgramEnable (n : Fin 16) (ctl : Word)
  /-- SAMPLE_PROGRAM_DISABLE (R158). An SE_CTL write of SPEN = 0 disables the program at the next tick. -/
  | sampleProgramDisable (n : Fin 16)
  /-- ENGINE_DOMAIN_CHANGE (R157). An SE_CTL write of DOM changes the engine's domain while SPEN is 0, or is refused while SPEN is 1. -/
  | engineDomainChange (n : Fin 16) (dom : Fin 4)
  /-- BACKGROUND_ENABLE (R164). A write of BGEN = 1 resumes background code from its saved state. -/
  | backgroundEnable (n : Fin 16)
  /-- BACKGROUND_DISABLE (R164). A write of BGEN = 0 stops background fetch at the next operation boundary. -/
  | backgroundDisable (n : Fin 16)
  /-- BACKGROUND_RESTART (R164). A write of 0x0001 to SE_BGCMD resets the saved background state to SE_BGENTRY and clears a halt. -/
  | backgroundRestart (n : Fin 16) (cmd : Word)
  /-- BG_HALT (R165). Background code meets an encoding that compact mode does not define, and halts with a cause. -/
  | bgHalt (n : Fin 16) (fetch : Ecc)
  /-- ILLEGAL_BUNDLE (R166). A sample program meets an undefined bundle, which executes with no effect and voids the tick's outputs. -/
  | illegalBundle (n : Fin 16) (fetch : List Ecc)
  /-- ENGINE_FAIL_REQUEST (R170). A write of 0x00FA to SE_FAILREQ declares the engine failing. -/
  | engineFailRequest (n : Fin 16) (key : Word)
  /-- ENGINE_RETIRED (R609). The failed physical engine reaches END or is stopped, is retired, and the map moves the logical engine to the spare. -/
  | engineRetired (n : Fin 16)
  /-- SPARE_RESTORED (R610). The spare has been cleared and loaded from the restore image and is ready. -/
  | spareRestored (n : Fin 16) (us : Word)
  /-- SPARE_RESERVE (R169). A write of SE_SPARE reserves or releases logical engines that hold spares. -/
  | spareReserve (value : Word)
  /-- EVENT_LINE_SET (R253). A write of SE_EVSET sets the event latches of its bits in both banks. -/
  | eventLineSet (n : Fin 16) (set : Word)
  /-- ASRC_ASSIGN (R173). A write of an ASRC owner word assigns or frees a channel, and a write to a channel that the route matrix owns is refused. -/
  | asrcAssign (ch : Fin 32) (value : Word)
  /-- MPY (R220). Multiply into an accumulator. -/
  | mpy (n : Fin 16) (bg : Bool) (hd : Hdr) (f : MM)
  /-- MAC (R220). Multiply and add into an accumulator. -/
  | mac (n : Fin 16) (bg : Bool) (hd : Hdr) (f : MM)
  /-- MSU (R220). Multiply and subtract from an accumulator. -/
  | msu (n : Fin 16) (bg : Bool) (hd : Hdr) (f : MM)
  /-- MPYD (R220). Multiply a double word by a word into an accumulator. -/
  | mpyd (n : Fin 16) (bg : Bool) (hd : Hdr) (f : MM)
  /-- MACD (R220). Multiply a double word by a word and add into an accumulator. -/
  | macd (n : Fin 16) (bg : Bool) (hd : Hdr) (f : MM)
  /-- MSUD (R220). Multiply a double word by a word and subtract from an accumulator. -/
  | msud (n : Fin 16) (bg : Bool) (hd : Hdr) (f : MM)
  /-- ACLR (R221). Clear an accumulator or load it from a register. -/
  | aclr (n : Fin 16) (bg : Bool) (hd : Hdr) (f : MM)
  /-- ASHF (R221). Shift an accumulator. -/
  | ashf (n : Fin 16) (bg : Bool) (hd : Hdr) (f : MM)
  /-- AADD (R221). Add one accumulator to another. -/
  | aadd (n : Fin 16) (bg : Bool) (hd : Hdr) (f : MM)
  /-- ASUB (R221). Subtract one accumulator from another. -/
  | asub (n : Fin 16) (bg : Bool) (hd : Hdr) (f : MM)
  /-- ALU (R222). A 16-bit arithmetic or logic function on D registers. -/
  | alu (n : Fin 16) (bg : Bool) (hd : Hdr) (f : XR)
  /-- SHF (R223). Shift or rotate a D register. -/
  | shf (n : Fin 16) (bg : Bool) (hd : Hdr) (f : XR)
  /-- CMP (R224). Compare two D registers into a predicate. -/
  | cmp (n : Fin 16) (bg : Bool) (hd : Hdr) (f : XR)
  /-- EXT (R226). Move part of an accumulator into a D register. -/
  | opExt (n : Fin 16) (bg : Bool) (hd : Hdr) (f : XR)
  /-- INS (R227). Insert a bit field into a register. -/
  | ins (n : Fin 16) (bg : Bool) (hd : Hdr) (f : XR)
  /-- ACS (R230). Compute one add-compare-select butterfly. -/
  | acs (n : Fin 16) (bg : Bool) (hd : Hdr) (f : XR)
  /-- DALU (R225). An ALU function on 32-bit register pairs. -/
  | dalu (n : Fin 16) (bg : Bool) (hd : Hdr) (f : XR)
  /-- MOV (R228). Copy a register between register files. -/
  | opMov (n : Fin 16) (bg : Bool) (hd : Hdr) (f : XR)
  /-- LDX (R229). Load an immediate into a D register from the X slot. -/
  | ldx (n : Fin 16) (bg : Bool) (hd : Hdr) (f : TI)
  /-- ASRC_PUT (R205). XE0 writes a sample to an owned ASRC channel. -/
  | asrcPut (n : Fin 16) (bg : Bool) (hd : Hdr) (f : XE)
  /-- ASRC_GET (R205). XE1 reads the channel's next output sample. -/
  | asrcGet (n : Fin 16) (bg : Bool) (hd : Hdr) (f : XE)
  /-- ASRC_STATUS (R205). XE2 returns the fill or the measured ratio of a channel. -/
  | asrcStatus (n : Fin 16) (bg : Bool) (hd : Hdr) (f : XE)
  /-- FFT_SUBMIT (R205). XE3 submits a 256-point FFT job. -/
  | fftSubmit (n : Fin 16) (bg : Bool) (hd : Hdr) (f : XE)
  /-- FFT_POLL (R205). XE4 polls an FFT job by its tag. -/
  | fftPoll (n : Fin 16) (bg : Bool) (hd : Hdr) (f : XE)
  /-- CORRELATOR_SUBMIT (R205). XE5 submits a correlator job. -/
  | correlatorSubmit (n : Fin 16) (bg : Bool) (hd : Hdr) (f : XE)
  /-- CORRELATOR_POLL (R205). XE6 polls a correlator job by its tag. -/
  | correlatorPoll (n : Fin 16) (bg : Bool) (hd : Hdr) (f : XE)
  /-- VERSION_QUERY (R206). XE7 returns the version word selected by ARG. -/
  | versionQuery (n : Fin 16) (bg : Bool) (hd : Hdr) (f : XE)
  /-- FFT_JOB_DONE (R172). An FFT job completes and its results are written into the submitting engine's X memory. -/
  | fftJobDone
  /-- CORRELATOR_JOB_DONE (R172). A correlator job completes and writes its results into the submitting engine's X memory. -/
  | correlatorJobDone
  /-- XL_OPCODE (R204). XE8 to XE15 send an opcode to the XL header and wait for the answer. -/
  | xlOpcode (n : Fin 16) (bg : Bool) (hd : Hdr) (op : Fin 8) (f : XE)
  /-- XL_ANSWER (R636). The module completes word 3 of a transfer, and the result is written to DST with its void indication. -/
  | xlAnswer (result : Word) (void : Bool)
  /-- LD (R235). Load a data word or double word from X or Y memory. -/
  | ld (n : Fin 16) (bg : Bool) (hd : Hdr) (f : TM)
  /-- ST (R239). Store a data word, parking it when its data is Crema. -/
  | st (n : Fin 16) (bg : Bool) (hd : Hdr) (f : TM)
  /-- MODP (R237). Post-modify a pointer without a memory access. -/
  | modp (n : Fin 16) (bg : Bool) (hd : Hdr) (f : TM)
  /-- LDI (R240). Load an immediate into a D register. -/
  | ldi (n : Fin 16) (bg : Bool) (hd : Hdr) (f : TI)
  /-- LDIP (R240). Load an immediate into a pointer register. -/
  | ldip (n : Fin 16) (bg : Bool) (hd : Hdr) (f : TI)
  /-- LDIO (R240). Load an immediate into an offset register. -/
  | ldio (n : Fin 16) (bg : Bool) (hd : Hdr) (f : TI)
  /-- LDIB (R240). Load an immediate into a circular base register. -/
  | ldib (n : Fin 16) (bg : Bool) (hd : Hdr) (f : TI)
  /-- LDIL (R240). Load an immediate into a circular length register. -/
  | ldil (n : Fin 16) (bg : Bool) (hd : Hdr) (f : TI)
  /-- LDIR (R240). Load an immediate into a loop register. -/
  | ldir (n : Fin 16) (bg : Bool) (hd : Hdr) (f : TI)
  /-- FLD (R241). Request N words from far space into X memory. -/
  | fld (n : Fin 16) (bg : Bool) (hd : Hdr) (f : TF)
  /-- FST (R241). Post N words from X memory to far space. -/
  | fst (n : Fin 16) (bg : Bool) (hd : Hdr) (f : TF)
  /-- PUSH (R250). Push one word onto the bank's stack. -/
  | push (n : Fin 16) (bg : Bool) (hd : Hdr) (f : TM)
  /-- POP (R250). Pop one word from the bank's stack. -/
  | pop (n : Fin 16) (bg : Bool) (hd : Hdr) (f : TM)
  /-- NOP (R192). No operation. -/
  | opNop (n : Fin 16) (bg : Bool) (hd : Hdr)
  /-- END (R192). End the sample program after this bundle and hand off the output window. -/
  | opEnd (n : Fin 16) (bg : Bool) (hd : Hdr) (x : EndIn)
  /-- REP (R247). Prefix that repeats a bundle or an operation under REPI or REPN. -/
  | opRep (n : Fin 16) (bg : Bool) (hd : Hdr) (f : KR)
  /-- DO (R243). Open a block-repeat level from immediates. -/
  | opDo (n : Fin 16) (bg : Bool) (hd : Hdr) (cm1 : BitVec 12) (ofs : Byte)
  /-- DOR (R243). Open a block-repeat level with a previously written LE and LC. -/
  | dor (n : Fin 16) (bg : Bool) (hd : Hdr)
  /-- CALL (R249). Push the masked registers and the link word, then jump. -/
  | call (n : Fin 16) (bg : Bool) (hd : Hdr) (tgt : BitVec 15) (lit : BitVec 32)
  /-- RET (R249). Pop the call frame and return. -/
  | ret (n : Fin 16) (bg : Bool) (hd : Hdr)
  /-- WFE (R253). Wait until an event latch is set, then clear it. -/
  | wfe (n : Fin 16) (bg : Bool) (hd : Hdr) (f : KW)
  /-- SEV (R253). Set an event latch in every engine. -/
  | sev (n : Fin 16) (bg : Bool) (hd : Hdr) (f : KW)
  /-- WTC (R254). Wait until a domain's tick counter reaches the target. -/
  | wtc (n : Fin 16) (bg : Bool) (hd : Hdr) (f : KW)
  /-- WFC (R255). Wait until no Crema data is outstanding for the bank. -/
  | wfc (n : Fin 16) (bg : Bool) (hd : Hdr)
  /-- ACSTB (R231). Take one traceback step through a 64-state trellis. -/
  | acstb (n : Fin 16) (bg : Bool) (hd : Hdr)
  /-- BR (R203). A branch in compact mode, with one delay slot. -/
  | br (n : Fin 16) (bg : Bool) (hd : Hdr) (tgt : BitVec 15)
  /-- BRP (R203). A branch through a pointer in compact mode, with one delay slot. -/
  | brp (n : Fin 16) (bg : Bool) (hd : Hdr) (f : XR)
  /-- Y_PAGE_PRIME (R266). A write of SE_YPRIME copies target Y pages into stage pages. -/
  | yPagePrime (n : Fin 16) (value : BitVec 4)
  /-- PRIME_COMPLETE (R266). A stage-page copy completes and BUSY clears. -/
  | primeComplete (n : Fin 16) (page : Fin 4)
  /-- COMMIT_REQUEST (R267). A write of SE_COMMIT with KEY 0xC requests a commit of stage pages and the program switch. -/
  | commitRequest (n : Fin 16) (value : Word)
  /-- GLIDE_TARGET_WRITE (R273). A write of a glide's TARGET is taken up at the next program start, or is applied at once while SPEN is 0. -/
  | glideTargetWrite (n : Fin 16) (g : Fin 16) (target : Word)
  /-- VERIFY_CHECK (R278). A write of 0x0001 to SE_VCHK_CMD starts a CRC check over a memory range. -/
  | verifyCheck (n : Fin 16) (value : Word)
  /-- VCHK_DONE (R278). The check completes, DONE is set and VCHK_DONE is raised. -/
  | vchkDone (n : Fin 16)
  /-- QUOTA_WRITE (R289). A write of DMU_QUOTA is accepted, or refused when the sum would exceed 1,600. -/
  | quotaWrite (n : Fin 16) (quota : Word)
  /-- FAR_LANDING (R292). A far request is served and its words land in X memory. -/
  | farLanding (n : Fin 16) (i : Nat) (e : FarEcc)
  /-- FAR_STORE_WRITTEN (R294). A posted far-store request is written to DRAM. -/
  | farStoreWritten (n : Fin 16) (i : Nat) (e : FarEcc)
  /-- LINK_UP (R305). The PHY reports link for 10 ms without a break, and the port's link is up. -/
  | linkUp (p : Fin 2) (speed : Fin 3) (mdix : Bool) (half : Bool)
  /-- LINK_DOWN (R305). The PHY reports loss of link for 1 ms, and the port's link is down. -/
  | linkDown (p : Fin 2) (sending : Bool)
  /-- FRAME_ARRIVAL (R331). The first byte of a frame arrives on P0 or P1, and the frame enters flight, or is dropped when 256 are in flight. -/
  | frameArrival (p : Fin 2) (bytes : List Byte)
  /-- PASS_DECISION (R332). A classifier pass builds its key, looks it up and yields an action at its decision point. -/
  | passDecision (i : Fin 256) (idle : Bool)
  /-- FRAME_END (R353). A frame's FCS result arrives: host-side copies are made, forwarded frames complete, and stream frames are confirmed or rejected. -/
  | frameEnd (i : Fin 256) (fate : Fin 4) (residence : BitVec 64) (stamp : Int)
  /-- FRAME_TRANSMIT (R370). An idle external transmitter starts the next frame from its queues, by strict priority. -/
  | frameTransmit (p : Fin 2) (residence : BitVec 64)
  /-- NET_RELAY_OPEN (R312). An open command energises the network bypass relay. -/
  | netRelayOpen
  /-- NET_RELAY_CLOSE (R312). A close command powers down both PHYs and releases the network relay. -/
  | netRelayClose
  /-- RELAY_CHANGED (R312). The network relay contacts settle at their new position. -/
  | relayChanged (sensed : Bool)
  /-- RELAY_FAULT (R312). The sense contact still disagrees with the command 20 ms after the command. -/
  | relayFault
  /-- PTP_ANNOUNCE_RX (R318). A received Announce updates the foreign master table and the best master selection. -/
  | ptpAnnounceRx (m : PtpAnn)
  /-- PTP_SYNC_RX (R318). A received Sync is timestamped, or discarded above 128 per second. -/
  | ptpSyncRx (m : PtpMsg)
  /-- PTP_FOLLOW_UP_RX (R321). A received Follow_Up completes a two-step Sync measurement. -/
  | ptpFollowUpRx (m : PtpMsg)
  /-- PTP_DELAY_RESP_RX (R321). A received Delay_Resp completes a measurement, and the servo processes offsetFromMaster. -/
  | ptpDelayRespRx (m : PtpMsg)
  /-- PTP_DELAY_REQ_RX (R318). As master, the hub answers a received Delay_Req on the port that carried it. -/
  | ptpDelayReqRx (m : PtpMsg)
  /-- PTP_ANNOUNCE_TIMEOUT (R318). The announce receipt timeout expires for the master in use. -/
  | ptpAnnounceTimeout
  /-- PTP_ANNOUNCE_TX (R318). As master, the hub sends Announce at its interval. -/
  | ptpAnnounceTx
  /-- PTP_SYNC_TX (R318). As master, the hub sends Sync and Follow_Up at its interval. -/
  | ptpSyncTx (times : List Int)
  /-- PTP_DELAY_REQ_TX (R318). As slave, the hub sends Delay_Req on the port in use at its interval. -/
  | ptpDelayReqTx (time : Int)
  /-- PTP_TIME_SET (R320). A write of NET_PTPTIME sets the local clock, unless the port state is SLAVE or UNCALIBRATED. -/
  | ptpTimeSet (sec : BitVec 48) (ns : BitVec 32)
  /-- TIME_CAPTURE (R323). A write of NET_CAPT latches DOM0's counter and the PTP time at one DOM0 tick. -/
  | timeCapture
  /-- TC_ENTRY_TIMEOUT (R325). A pending two-step Sync residence entry is released 1 s after its Sync. -/
  | tcEntryTimeout (i : Fin 32)
  /-- PROFILE_CHANGE (R316). A write of NET_CTL.PROFILE applies the new profile's values and restarts the ordinary clock. -/
  | profileChange (profile : BitVec 2)
  /-- CLS_ENTRY_INSERT (R346). A write of word 31 with V = 1 inserts a hash entry, or fails on a duplicate key. -/
  | clsEntryInsert (e : BitVec 14) (prof : Fin 8)
  /-- CLS_ACTION_CHANGE (R346). A write of word 23 changes a valid entry's action as one value. -/
  | clsActionChange (e : BitVec 14) (value : Word)
  /-- CLS_ENTRY_REMOVE (R346). A write of word 31 with V = 0 removes an entry. -/
  | clsEntryRemove (e : BitVec 14)
  /-- KEY_PROFILE_WRITE (R341). A write of profile word +15 takes the whole profile into effect, or fails. -/
  | keyProfileWrite (p : Fin 8) (value : Word)
  /-- FENCE_START (R348). A write of 1 to CLS_FENCE.GO sets BUSY. -/
  | fenceStart
  /-- FENCE_DONE (R348). Every frame that was in flight at the fence has decided, and BUSY clears. -/
  | fenceDone
  /-- SEED_WRITE (R349). A write of CLS_SEEDt is accepted only while its table is empty. -/
  | seedWrite (t : Fin 2) (value : Word)
  /-- PATTERN_WRITE (R358). A write of pattern word +16 takes the pattern into effect, or fails when it runs past byte 256. -/
  | patternWrite (k : Fin 64) (value : Word)
  /-- FRAG_TIMEOUT (R361). A fragment entry is freed CLS_FRAGTO ms after the datagram's latest fragment. -/
  | fragTimeout (f : Fin 128)
  /-- QUEUE_BIND (R367). A queue binding write is accepted, or fails with cause 3. -/
  | queueBind (q : Fin 1024) (value : Word)
  /-- DEFAULT_TX_WRITE (R371). A write of QUE_DEFTX0 or QUE_DEFTX1 names a default transmit queue, or fails. -/
  | defaultTxWrite (p : Fin 2) (q : Fin 1024)
  /-- RX_RELEASE (R376). A write of 1 to RXREL releases the head frame of a host receive ring. -/
  | rxRelease (r : Fin 16) (value : Word)
  /-- TX_SEND (R377). A write of TXSEND sends the staged frame, or is refused. -/
  | txSend (t : Fin 16) (len : Word)
  /-- TX_SEND_DONE (R377). The padded frame with its FCS has been offered to TXDEST, and BUSY clears. -/
  | txSendDone (t : Fin 16)
  /-- LANE_RESULT (R380). An integrity lane delivers its SRTP verification or protected frame, released in order per context. -/
  | laneResult (l : Fin 4) (j : Fin 16)
  /-- REORDER_TIMEOUT (R380). A result that has waited 50 µs behind an earlier frame is released at once. -/
  | reorderTimeout (c : Byte) (i : Nat)
  /-- LANE_SELF_CHECK (R381). Every 1 ms each lane runs its known-answer self-check. -/
  | laneSelfCheck (l : Fin 4) (ok : Bool)
  /-- LANE_STALL (R381). A lane still holds a frame 20 µs past that frame's confirm window and is declared failed. -/
  | laneStall (l : Fin 4)
  /-- STREAM_ENABLE (R384). A write of EN = 1 to a stream context is judged, and if accepted starts the context at the next tick. -/
  | streamEnable (c : Byte) (value : Word)
  /-- STREAM_DISABLE (R384). A write of EN = 0 stops the context at the next tick and rejects its frames in flight. -/
  | streamDisable (c : Byte) (value : Word)
  /-- KEY_SET_WRITE (R383). A write of the last key-set word applies the new SRTP keys to later frames. -/
  | keySetWrite (c : Byte) (value : Word)
  /-- CONFIRM_WINDOW_END (R390). A frame's confirm window ends while the frame is unresolved, and the frame is rejected. -/
  | confirmWindowEnd (c : Byte) (i : Nat)
  /-- TAG_RESOLUTION (R396). A resolution tag becomes confirmed or void at an engine, which clears taint and releases park-buffer entries. -/
  | tagResolution (n : Fin 16) (tag : Fin 4)
  /-- AES_SUBFRAME_RX (R412). A received AES3 subframe is checked for parity, violations and validity. -/
  | aesSubframeRx (i : Fin 2) (ch : Fin 2) (word : BitVec 24) (v : Bool) (user : Bool) (cs : Bool) (parity : Bool) (violation : Bool)
  /-- AES_BLOCK_END (R407). A 192-frame block completes at a Z preamble: its rate is classed, lock is judged and channel status is accepted. -/
  | aesBlockEnd (i : Fin 2) (rate : BitVec 32) (aligned alternating : Bool)
  /-- AES_LOCK_LOST (R408). A locked input loses lock through missing preambles, a rate class or a Z misplacement. -/
  | aesLockLost (i : Fin 2) (cause : Fin 4)
  /-- AES_INPUT_ENABLE (R427). An ICFG write of EN = 1 is judged, and if accepted takes effect at the next tick. -/
  | aesInputEnable (i : Fin 2) (value : Word)
  /-- AES_INPUT_DISABLE (R427). An ICFG write of EN = 0 disables the input at once and frees its ASRC channel. -/
  | aesInputDisable (i : Fin 2)
  /-- AES_INPUT_CONFIG (R427). An ICFG write changes DOM or ASRC of a disabled input. -/
  | aesInputConfig (i : Fin 2) (value : Word)
  /-- AES_OUTPUT_ENABLE (R422). An OCFG write of EN = 1 is judged, and if accepted the output starts at the next tick. -/
  | aesOutputEnable (o : Fin 2) (value : Word)
  /-- AES_OUTPUT_DISABLE (R424). A write of EN = 0 stops the output after the frame in progress. -/
  | aesOutputDisable (o : Fin 2) (value : Word)
  /-- ADC_INPUT_ENABLE (R431). A write of AIO_INEN enables an input, or the enable is refused. -/
  | adcInputEnable (value : Byte)
  /-- ADC_MODE_WRITE (R436). A write of MODE sets the input mode and, for MODE 2, restarts the bias and its checks. -/
  | adcModeWrite (n : Fin 8) (value : Word)
  /-- GAIN_WRITE (R434). A GAIN write sets the target gain. -/
  | gainWrite (n : Fin 8) (gain : BitVec 6)
  /-- GAIN_STEP (R434). At a zero crossing, or 5 ms after the previous step, the applied gain moves 1 dB toward the target. -/
  | gainStep (u : Fin 10)
  /-- CLIP_HOLD_END (R435). CLIP or NEAR clears 100 ms after the last sample that caused it. -/
  | clipHoldEnd (n : Fin 8) (near : Bool)
  /-- BIAS_CHECK (R436). Every 10 ms the electret bias current is checked. -/
  | biasCheck (n : Fin 8) (ua : Word) (limit : Bool)
  /-- TL_ENABLE (R431). A write of AIO_TLCTL.EN enables a train-line port, or the enable is refused. -/
  | tlEnable (value : BitVec 2)
  /-- TL_RELAY_OPEN (R439). An open command energises the train-line relay. -/
  | tlRelayOpen
  /-- TL_RELAY_CLOSE (R439). A close command releases the train-line relay coil. -/
  | tlRelayClose
  /-- TL_RELAY_CHANGED (R439). The train-line relay contacts settle. -/
  | tlRelayChanged (sensed : Bool)
  /-- TL_RELAY_FAULT (R439). The sense contact still disagrees 20 ms after the command. -/
  | tlRelayFault
  /-- CDC_RX (R443). A received Caption Data Carrier message ends and is accepted when its CRC verifies. -/
  | cdcRx (t : Fin 2) (bytes : List Byte) (lost : Bool)
  /-- CDC_TX_COMMAND (R444). A write of AIO_CDCCMD with KEY 0xA requests a transmission, or is refused. -/
  | cdcTxCommand (value : Word)
  /-- CDC_TX_START (R444). At the first symbol boundary after the required idle time, the preamble starts. -/
  | cdcTxStart (t : Fin 2)
  /-- CDC_TX_DONE (R444). The last tail symbol ends and TXBUSY clears. -/
  | cdcTxDone (t : Fin 2)
  /-- AMP_ENABLE (R446). A write of AMP_EN bit n to 1 checks the terminals, closes the switch and starts the cross-drive test. -/
  | ampEnable (n : Fin 8) (sense : Sense)
  /-- AMP_DISABLE (R446). A write of AMP_EN bit n to 0 ramps down, opens the switch and enters OFF. -/
  | ampDisable (n : Fin 8)
  /-- CROSS_DRIVE_TEST_DONE (R451). The 4 ms cross-drive test ends, and the channel goes to MUTED or RAMP, or isolates. -/
  | crossDriveTestDone (n : Fin 8) (sensed : BitVec 8) (low : Bool) (sense : Sense)
  /-- AMP_MUTE (R447). A write of AMP_MUTE bit n to 1 ramps the channel toward the muted level. -/
  | ampMute (n : Fin 8)
  /-- AMP_UNMUTE (R447). A write of AMP_MUTE bit n to 0 ramps the channel toward the unmuted level. -/
  | ampUnmute (n : Fin 8)
  /-- AMP_RAMP_END (R447). A mute ramp ends, and the channel enters RUN, MUTED or OFF. -/
  | ampRampEnd (n : Fin 8)
  /-- AMP_FAULT (R450). Overcurrent, external potential or an internal fault opens the switch and isolates the channel. -/
  | ampFault (n : Fin 8) (cause : Fin 5) (sense : Sense)
  /-- AMP_REENABLE (R450). A write of AMP_REEN with KEY 0x5A reruns the start of the named isolated channels. -/
  | ampReenable (value : Word) (senses : List Sense)
  /-- AMP_THERMAL (R453). A channel's junction reaches 150 °C and enters THERMAL, or falls below 130 °C and leaves it. -/
  | ampThermal (n : Fin 8) (temp : Word)
  /-- BRIDGE_WRITE (R448). A write of AMP_BRIDGE changes pair bridging, or fails while a channel of the pair is enabled. -/
  | bridgeWrite (value : BitVec 4)
  /-- FIELD_INPUT_SAMPLE (R455). Every 0.5 ms each field input is sampled against its thresholds. -/
  | fieldInputSample (i : Fin 16) (mv : Int)
  /-- FIELD_OUTPUT_COMMAND (R458). A write of FIO_OUT switches field outputs within 1 ms. -/
  | fieldOutputCommand (value : Byte)
  /-- FOUT_TRIP (R459). An output held at its current limit for 100 µs switches off. -/
  | foutTrip (o : Fin 8)
  /-- FOUT_RETRY (R459). A tripped output switches on again 1 s or 10 s after the trip. -/
  | foutRetry (o : Fin 8)
  /-- FOUT_OPEN (R460). An output passes less than 5 mA, or again 5 mA or more, for 100 ms. -/
  | foutOpen (o : Fin 8) (isOpen : Bool) (ma : Word)
  /-- SLOT_ALLOCATE (R466). A write of a slot's second allocation word allocates or frees the slot, or is refused. -/
  | slotAllocate (slot : Fin 512) (unit : Word)
  /-- XP_CREATE (R471). A write with V = 1 to an invalid crosspoint entry creates it at the next tick. -/
  | xpCreate (x : Fin 4096) (w0 : Word) (snk : Fin 512) (gain : Word) (ramp : Word)
  /-- XP_CHANGE (R471). A write of GAIN, RAMP, LAW, PRIO or FORCE to a valid entry applies at the next tick. -/
  | xpChange (x : Fin 4096) (w0 : Word) (gain : Word) (ramp : Word)
  /-- XP_REPLACE_SOURCE (R472). A write of a new SRC to a valid entry starts or holds a crossfade. -/
  | xpReplaceSource (x : Fin 4096) (src : Fin 512)
  /-- XP_REMOVE (R471). A write with V = 0 starts a ramp of the entry to 0. -/
  | xpRemove (x : Fin 4096) (ramp : Word)
  /-- XP_RAMP_END (R470). An entry's gain ramp ends; a removed entry becomes free and releases its ASRC channel. -/
  | xpRampEnd (x : Fin 4096)
  /-- CROSSFADE_END (R472). A crossfade's N ticks end, and any held source starts its crossfade. -/
  | crossfadeEnd (x : Fin 4096)
  /-- SCENE_GO (R474). A write of RTM_GO with KEY 0x6D applies every held deferred crosspoint write. -/
  | sceneGo (value : Word)
  /-- ACTIVE_HOLD_END (R473). HOLD runs out for a source with no sample above DETTH, and it stops being active. -/
  | activeHoldEnd (x : Fin 4096)
  /-- NAG_WRITE (R478). A write of a sink's NAG sets the noise-adaptive gain target, or fails while NAGEN is 1. -/
  | nagWrite (x : Fin 512) (value : Word)
  /-- CAL_ENABLE (R483). A write of CAL_CTL.EN = 1 holds the calibration engine and starts calibration, or is refused. -/
  | calEnable (value : Word)
  /-- CAL_DISABLE (R483). A write of EN = 0 fails every open window, stops the pilot and releases the engine. -/
  | calDisable (value : Word)
  /-- ZONE_CONFIG_WRITE (R486). A write of zone word +4 takes the zone configuration into effect, or is refused. -/
  | zoneConfigWrite (z : Fin 8) (maxg : Word)
  /-- CAL_WINDOW_END (R488). A measurement window's length completes, the next window opens and the analysis is submitted. -/
  | calWindowEnd (kind : BitVec 2) (n : Fin 8) (m : Fin 8) (exc : Int)
  /-- CAL_PUBLISH (R502). A window's analysis completes and its result is published. -/
  | calPublish (kind : BitVec 2) (n : Fin 8) (m : Fin 8) (r : CalRes)
  /-- FORCE_REQUEST (R498). A write of CAL_FORCE with KEY 0xF requests one forced window, or is refused. -/
  | forceRequest (value : Word)
  /-- FORCE_EXCITATION_END (R498). After 200 ms of excitation measurement, the window opens or the pilot starts. -/
  | forceExcitationEnd (exc : Int)
  /-- PILOT_FADE_IN_END (R499). The 20 ms pilot fade-in ends and the forced window opens. -/
  | pilotFadeInEnd
  /-- TRIM_DUE (R501). TRIMINT seconds after its last trim an input becomes due for an offset trim. -/
  | trimDue (n : Fin 8)
  /-- TRIM_QUIET_END (R501). The trim conditions have held for 500 ms, and the new OFST is computed. -/
  | trimQuietEnd (n : Fin 8) (mean : Int)
  /-- TRIM_DONE (R501). OFST reaches its new value after stepping one unit per tick. -/
  | trimDone (n : Fin 8)
  /-- CAPTION_PORT_ENABLE (R512). A write of CAP_CTL.EN bit p to 1 starts the link, or is refused. -/
  | captionPortEnable (p : Fin 2)
  /-- CAPTION_PORT_DISABLE (R512). A write of the bit to 0 completes the packet in progress and idles the link. -/
  | captionPortDisable (p : Fin 2)
  /-- MODE_REQUEST (R513). A write of CAP_MODEREQp requests a timing mode, or is refused. -/
  | modeRequest (p : Fin 2) (mode : BitVec 4)
  /-- CAPTION_FRAME_START (R514). A frame start of a caption port latches a pending mode and takes up a held page. -/
  | captionFrameStart (p : Fin 2)
  /-- LINE_PACKET (R508). A line packet is sent at the start of each line period. -/
  | linePacket (p : Fin 2)
  /-- PAGE_SELECT (R518). A write of CAP_PAGE sets the held page of a port. -/
  | pageSelect (value : Word)
  /-- CUE_WRITE (R521). A write of a cue's TICK[31:16] takes the cue into effect and judges it against the counter. -/
  | cueWrite (c : Fin 64) (tickHi : Word)
  /-- SCRUB_READ (R530). The scrubber reads one ECC unit and conditionally writes back a correction. -/
  | scrubRead (dram : Bool) (ecc : Ecc) (raced : Bool) (use : ScrubUse)
  /-- OPEN (R538). Store command 1 opens the one write session. -/
  | storeOpen
  /-- WRITE (R538). Store command 2 writes the transfer buffer as the session's next page. -/
  | storeWrite (x : NandIn)
  /-- COMMIT (R540). Store command 3 makes the session's object visible through a verified journal record. -/
  | storeCommit
  /-- ABORT (R538). Store command 4 ends the write session. -/
  | storeAbort
  /-- READ (R538). Store command 5 reads one page of a committed object. -/
  | storeRead (x : NandIn)
  /-- DELETE (R540). Store command 6 removes an object. -/
  | storeDelete
  /-- INFO (R538). Store command 7 returns an object's length, CRC and DAMAGED. -/
  | storeInfo
  /-- LOGREAD (R550). Store command 8 reads one incident-log page. -/
  | storeLogRead
  /-- FLOAD (R538). Store command 9 copies an object into an engine's far space. -/
  | storeFload (x : NandIn)
  /-- CMD_DONE (R539). A store command completes with its RESULT, and BUSY clears. -/
  | cmdDone
  /-- PATROL_READ (R536). Every 30 days of power-on time the patrol reads every programmed block. -/
  | patrolRead (soft : List (Fin 4096))
  /-- NAND_MOUNT (R542). The store mounts, places the log write point and raises LOG_RECOVERED. -/
  | nandMount (a : NandIn) (b : NandIn)
  /-- MOUNT_FAILED (R543). 250 ms after power-up the store is declared unavailable. -/
  | mountFailed (cause : Fin 2)
  /-- LOG_PAGE (R548). A 62.5 ms incident-log page is filled and programmed. -/
  | logPage (x : LogIn)
  /-- LOG_FREEZE (R549). A write of FREEZE = 1 stops recording at the end of the current page. -/
  | logFreeze
  /-- LOG_RESUME (R549). A write of FREEZE = 0 resumes recording with the next page. -/
  | logResume
  /-- LOG_MARK (R549). A nonzero write of MARK places its code in the next page header. -/
  | logMark (code : Byte)
  /-- TELEMETRY_SAMPLE (R552). A due telemetry item writes a record into the ring. -/
  | telemetrySample (e : Fin 64)
  /-- TELEMETRY_EXPORT (R554). When BATCH records wait or the oldest reaches MAXAGE, an export datagram is built and sent. -/
  | telemetryExport
  /-- ROAST_REQUEST (R573). A write of OTP_ROAST with KEY 0xB requests a Roast, or is refused. -/
  | roastRequest (value : Word)
  /-- ROAST_DONE (R575). The Roast's final read finds the generation GOOD, and BUSY clears. -/
  | roastDone (hit : Option RoastBad) (final : Option RoastBad)
  /-- INPUT_QUALIFIED (R584). A supply input stays in range for its qualification time and qualifies, clearing any power-loss signal. -/
  | inputQualified (ac : Bool) (volt : Word) (freq : Word)
  /-- INPUT_LOST (R584). A supply input stays out of range for its loss time and is lost. -/
  | inputLost (ac : Bool) (cause : Fin 3) (volt : Word)
  /-- HOLDUP_UPDATE (R589). Every 10 ms PWR_HOLDT is recomputed. -/
  | holdupUpdate (ms : Word) (chg : Fin 101) (vstore : Word)
  /-- INPUT_POWER_UPDATE (R587). Every 100 ms PWR_PIN is updated. -/
  | inputPowerUpdate (w : Word) (vdc : Word) (vac : Word) (fac : Word)
  /-- DRAM_INIT_DONE (R591). DRAM is initialised and cleared, and PHASE 4 is reached. -/
  | dramInitDone
  /-- BOOT_VERIFY (R597). Verification of a boot image candidate completes, accepting or rejecting it. -/
  | bootVerify
  /-- BOOT_END_RECORD (R598). An END record, or the end of the body, ends image execution. -/
  | bootEndRecord
  /-- BOOT_DIRECT (R598). A DIRECT record writes direct registers as a WR frame. -/
  | bootDirect
  /-- BOOT_WINDOW (R598). A WINDOW record writes consecutive offsets of an indirect space. -/
  | bootWindow
  /-- BOOT_FLOAD (R598). An FLOAD record issues an FLOAD store command and waits for its result. -/
  | bootFload (x : NandIn)
  /-- BOOT_WAIT (R598). A WAIT record starts a delay in reference time. -/
  | bootWait
  /-- BOOT_WAIT_END (R598). A WAIT record's delay expires, and execution continues. -/
  | bootWaitEnd
  /-- CHIME_REQUEST (R594). A write of SYS_CHIMECMD with KEY 0x3, or the chime field input, requests a chime. -/
  | chimeRequest (value : Word)
  /-- CHIME_RELEASE (R595). A write of SYS_CHIMECMD with KEY 0x9 releases the chime path. -/
  | chimeRelease (value : Word)
  /-- AMP_SHED (R601). During power loss the store reaches the shed level, and every amplifier ramps down and isolates. -/
  | ampShed
  /-- BYPASS_RELEASE (R601). 200 ms after shedding, the network and train-line relays are commanded closed. -/
  | bypassRelease
  /-- LOGIC_STOP (R603). The store reaches the logic threshold, and the logic stops in an orderly way. -/
  | logicStop (cut : RoastBad)
  /-- THERMAL_SAMPLE (R604). Every 100 ms temperatures are sensed and DERATE is updated. -/
  | thermalSample (renza : Word) (heatsink : Word) (air : Word)
  /-- CONTINUOUS_CHECK (R451). In RUN or RAMP, a channel's terminal-current sum exceeds 0.3 A for 5 ms with an opposite partner, so both channels isolate as paralleled. -/
  | continuousCheck (n : Fin 8) (partner : Fin 8) (sense : Sense)
  /-- TRIP_CLEAR (R459). A retried field output runs 100 ms without reaching its limit, and its TRIP bit clears. -/
  | tripClear (o : Fin 8)
  /-- AMPLIFIER_LEVEL (R591). At start-up the hold-up store reaches the amplifier level, and the amplifier rail is switched on. -/
  | amplifierLevel
  /-- CAPACITY_MEASURED (R590). The store's capacity measurement from its charging curve completes; STORECAP is reported, and HOLDUP_DEGRADED is raised if the capacity is too low. -/
  | capacityMeasured (cap : Byte) (short : Bool)
deriving DecidableEq, Repr

end Sys2Proof
end

