-- ==== Sys2Proof/Decode.lean ====
section
/-! DEFINITION. Decode.lean: the commands that a word spells by the table's bits. No row of spec/opcode_table.json gives
bits: the words of frames are operands of their rows (Machine/Control.lean reads them), and an engine's slots are
commands with their fields as operands. -/

namespace Sys2Proof

/-- The command that a word of `nbits` bits spells: none, as no row gives bits. -/
def decodeTableWord (_nbits _w : Nat) : Option Instr := none

end Sys2Proof
end

