-- ==== Sys2Proof/Config.lean ====
section
/-! DEFINITION. Config.lean: what an implementation fixes and the spec does not state, as opaque constants: nothing
in Lean can evaluate them, so a claim holds whatever they are. -/

namespace Sys2Proof.Config

/-- A free value: what the hub produces where the spec states no result, one per number (R5 to R17 give none). -/
opaque freeNat : Nat → Nat

/-- SYS_VER: unit hardware revision and Renza silicon revision, fixed and not stated (R125). -/
opaque sysVer : Word

/-- SE_CLVER and the version words that XE7 returns, fixed and not stated (R177, R206). -/
opaque version : Nat → Word

/-- Which way a quotient that lies midway between two integers is rounded "to the nearest integer" (R62, R75). -/
opaque tieUp : Int → Nat → Bool

/-- The fine code where the corrected value leaves the 10-bit code; the spec states none (R62, R75). -/
opaque fineOutside : Int → Nat

/-- Which direction of the frequency offset reduces a phase error; the spec fixes no sign (R69). -/
opaque slewUp : Int → Bool

/-- Is the quotient `n / d` rounded up where the spec states a rate or a fraction and no rounding (R389, R470). -/
opaque roundUp : Int → Nat → Bool

/-- 10^(x/20): the amplitude of a level in dB, where that is no power of ten (R470). -/
opaque ampOf : Rat → Rat

/-- The level in dB of an amplitude that lies within a linear ramp (R470). -/
opaque levelOf : Rat → Rat

/-- cos and sin of (π/2)(j/N), the factors of a crossfade between its ends (R472). -/
opaque cosFade : Nat → Nat → Rat
opaque sinFade : Nat → Nat → Rat

/-- Word `i` of the ROM font's glyph for a code (R523). -/
opaque glyph : Nat → Nat → Word

/-- The ROM chime program, its Y constants and its X words, by number within their ranges; not stated (R593). -/
opaque romProgram : Nat → BitVec 32
opaque romY : Nat → Word
opaque romX : Nat → Word

/-- Bytes of the headers of the datagrams that the hub originates, which the spec does not state (R104, R314, R315): IPv4 type
of service, identification, DF and TTL; IPv6 traffic class, flow label and hop limit; the scope of the PTP multicast address. -/
opaque openByte : Nat → Byte

end Sys2Proof.Config
end

