-- ==== Sys2Proof/Machine/RegMap.lean ====
section
/-! DEFINITION. RegMap.lean: the register map: every word that a register table of the spec gives, with its access
code (R15), its readable and writable bits and its reset value (R16). A register's key is its direct address, or
space number * 2^32 + offset for a word of an indirect space (R112, R115). -/

namespace Sys2Proof.Machine

/-- Access codes of R15; `cnt` is an RW counter that a write of 0 clears and other writes leave alone. -/
inductive Acc where
  | ro | rw | wo | cc | wt | cnt
deriving DecidableEq, Repr

/-- The reset value of a row: one word for every instance, the instance's index, or a value that a rule gives
instance by instance. -/
inductive RegReset where
  | word (v : Nat)
  | index
  | urg      -- R141
  | clkoN    -- R83
  | clkoCfg  -- R83
  | seMap    -- R181
  | peMap    -- R181
  | ptp      -- R316, UTCOFS 37 of R329
  | pcLo     -- R336
  | pcHi     -- R336
  | pcCfg    -- R336
  | glyph    -- R523: the ROM font
  | seed0    -- R365
  | seed1    -- R365
  | qBind    -- R367
  | csTx     -- R429
  | telItem  -- R552
  | telInt   -- R552
deriving DecidableEq, Repr

/-- A row of the register map: `count` instances `stride` apart, each of `words` words made of fields of `fw`
words (R9, R113). -/
structure RegRow where
  name : String
  base : Nat
  count : Nat
  stride : Nat
  words : Nat
  fw : Nat
  acc : Acc
  rmask : Nat
  wmask : Nat
  reset : RegReset
deriving DecidableEq, Repr

/-- Direct registers, part 1. -/
def regRowsDirecta : List RegRow :=
  [ ⟨"SYS_PART", 0x0, 1, 0x1, 1, 1, .ro, 0xFFFF, 0x0, .word 0xA808⟩,  -- R2,R125
    ⟨"SYS_VER", 0x1, 1, 0x1, 1, 1, .ro, 0xFFFF, 0x0, .word 0x0⟩,  -- R125
    ⟨"SYS_SERIAL", 0x2, 1, 0x1, 2, 2, .ro, 0xFFFF, 0x0, .word 0x0⟩,  -- R125
    ⟨"SYS_START", 0x4, 1, 0x1, 1, 1, .ro, 0xFFFF, 0x0, .word 0x0⟩,  -- R607
    ⟨"SYS_UPTIME", 0x5, 1, 0x1, 2, 2, .ro, 0xFFFF, 0x0, .word 0x0⟩,  -- R607
    ⟨"SYS_CHIMECMD", 0x7, 1, 0x1, 1, 1, .wo, 0x0, 0xF003, .word 0x0⟩,  -- R607
    ⟨"SYS_RESET", 0x8, 1, 0x1, 1, 1, .wo, 0x0, 0xFFFF, .word 0x0⟩,  -- R125
    ⟨"CP_OWNER", 0x9, 1, 0x1, 1, 1, .rw, 0x3F03, 0x3F01, .word 0x500⟩,  -- R125
    ⟨"CP_LASTERR", 0xA, 1, 0x1, 1, 1, .ro, 0xFFFF, 0x0, .word 0x0⟩,  -- R125
    ⟨"CP_ERRFLAG", 0xB, 1, 0x1, 1, 1, .cc, 0x800F, 0x800F, .word 0x0⟩,  -- R125
    ⟨"CP_TCFG", 0xC, 1, 0x1, 1, 1, .rw, 0xC000, 0xC000, .word 0x0⟩,  -- R125
    ⟨"CP_TPORT", 0xD, 1, 0x1, 1, 1, .rw, 0xFFFF, 0xFFFF, .word 0x0⟩,  -- R125
    ⟨"CP_SCRATCH", 0xE, 1, 0x1, 1, 1, .rw, 0xFFFF, 0xFFFF, .word 0x0⟩,  -- R125
    ⟨"CP_PATH", 0xF, 1, 0x1, 1, 1, .ro, 0x3, 0x0, .word 0x0⟩,  -- R125
    ⟨"CP_WSPACE", 0x10, 1, 0x1, 1, 1, .rw, 0xFF, 0xFF, .word 0x0⟩,  -- R125
    ⟨"CP_WADDR", 0x11, 1, 0x1, 2, 2, .rw, 0xFFFF, 0xFFFF, .word 0x0⟩,  -- R125
    ⟨"CP_WCTL", 0x13, 1, 0x1, 1, 1, .rw, 0x1, 0x1, .word 0x0⟩,  -- R125
    ⟨"CP_WDATA", 0x14, 1, 0x1, 1, 1, .rw, 0xFFFF, 0xFFFF, .word 0x0⟩,  -- R125
    ⟨"CP_WSTAT", 0x15, 1, 0x1, 1, 1, .ro, 0x7, 0x0, .word 0x0⟩,  -- R125
    ⟨"CP_WFAIL", 0x16, 1, 0x1, 2, 2, .ro, 0xFFFF, 0x0, .word 0x0⟩,  -- R125
    ⟨"EVQ_FILL", 0x18, 1, 0x1, 1, 1, .ro, 0x7FF, 0x0, .word 0x1⟩,  -- R147
    ⟨"EVQ_HEAD", 0x19, 1, 0x1, 1, 1, .rw, 0xFFFF, 0xFFFF, .word 0x0⟩,  -- R147
    ⟨"EVQ_TAIL", 0x1A, 1, 0x1, 1, 1, .ro, 0xFFFF, 0x0, .word 0x1⟩,  -- R147
    ⟨"EVQ_ATTN", 0x1B, 1, 0x1, 1, 1, .rw, 0xB3FF, 0xB3FF, .word 0xA040⟩,  -- R147
    ⟨"EVQ_AGE", 0x1C, 1, 0x1, 1, 1, .rw, 0xFF, 0xFF, .word 0xA⟩,  -- R147
    ⟨"EVQ_STAT", 0x1D, 1, 0x1, 1, 1, .ro, 0xFC00, 0x0, .word 0x0⟩,  -- R147
    ⟨"EVQ_HWM", 0x1E, 1, 0x1, 1, 1, .rw, 0x7FF, 0xFFFF, .word 0x1⟩,  -- R147
    ⟨"EVQ_OVFFLAG", 0x1F, 1, 0x1, 1, 1, .cc, 0x800F, 0x800F, .word 0x0⟩,  -- R147
    ⟨"SE_SPSUM", 0x20, 1, 0x1, 1, 1, .ro, 0xFFFF, 0x0, .word 0x0⟩,  -- R177
    ⟨"SE_BGSUM", 0x21, 1, 0x1, 1, 1, .ro, 0xFFFF, 0x0, .word 0x0⟩,  -- R177
    ⟨"SE_FAILSUM", 0x22, 1, 0x1, 1, 1, .ro, 0xFFFF, 0x0, .word 0x0⟩,  -- R177
    ⟨"SE_SPARE", 0x23, 1, 0x1, 1, 1, .rw, 0xCFCF, 0x8F8F, .word 0x0⟩,  -- R177
    ⟨"SE_RSVSUM", 0x24, 1, 0x1, 1, 1, .ro, 0xFFFF, 0x0, .word 0x0⟩,  -- R177
    ⟨"SE_ECCSUM", 0x25, 1, 0x1, 1, 1, .ro, 0xFFFF, 0x0, .word 0x0⟩,  -- R177
    ⟨"SE_BGHSUM", 0x26, 1, 0x1, 1, 1, .ro, 0xFFFF, 0x0, .word 0x0⟩,  -- R177
    ⟨"SE_XLSTAT", 0x27, 1, 0x1, 1, 1, .ro, 0x80FF, 0x0, .word 0x0⟩,  -- R177
    ⟨"SE_CLSTAT", 0x28, 1, 0x1, 1, 1, .ro, 0xFF7F, 0x0, .word 0x2000⟩,  -- R177
    ⟨"SE_CLVER", 0x29, 1, 0x1, 1, 1, .ro, 0xFFFF, 0x0, .word 0x0⟩,  -- R177
    ⟨"DMU_INFL", 0x2A, 1, 0x1, 1, 1, .ro, 0x3FF, 0x0, .word 0x0⟩,  -- R302
    ⟨"DMU_QSUM", 0x2B, 1, 0x1, 1, 1, .ro, 0x7FF, 0x0, .word 0x640⟩]  -- R302

/-- Direct registers, part 2. -/
def regRowsDirectb : List RegRow :=
  [ ⟨"DMU_FLTSUM", 0x2C, 1, 0x1, 1, 1, .ro, 0xFFFF, 0x0, .word 0x0⟩,  -- R302
    ⟨"DMU_LATESUM", 0x2D, 1, 0x1, 1, 1, .ro, 0xFFFF, 0x0, .word 0x0⟩,  -- R302
    ⟨"SE_MISSSUM", 0x2E, 1, 0x1, 1, 1, .ro, 0xFFFF, 0x0, .word 0x0⟩,  -- R56
    ⟨"SE_HUBSLACK", 0x2F, 1, 0x1, 1, 1, .ro, 0xFFFF, 0x0, .word 0xFFF⟩,  -- R56
    ⟨"CKS_STAT", 0x30, 1, 0x1, 1, 1, .ro, 0xFFF, 0x0, .word 0x3C0⟩,  -- R88
    ⟨"CKS_DOMCFG", 0x31, 1, 0x1, 1, 1, .rw, 0xFFFF, 0xFFFF, .word 0x4444⟩,  -- R88
    ⟨"CKS_DOMEN", 0x32, 1, 0x1, 1, 1, .rw, 0xFF, 0xF, .word 0x1⟩,  -- R88
    ⟨"CKS_HOP", 0x33, 1, 0x1, 1, 1, .rw, 0x377, 0xFF, .word 0x0⟩,  -- R88
    ⟨"CKS_REFPRI", 0x34, 1, 0x1, 1, 1, .rw, 0xBF3F, 0xBF3F, .word 0xA424⟩,  -- R88
    ⟨"CKS_QUAL", 0x35, 1, 0x1, 1, 1, .rw, 0xFFFF, 0xFFFF, .word 0x1414⟩,  -- R88
    ⟨"CKS_TICK0", 0x36, 1, 0x1, 1, 1, .ro, 0xFFFF, 0x0, .word 0x0⟩,  -- R88
    ⟨"CKS_FLAGSUM", 0x37, 1, 0x1, 1, 1, .ro, 0x1F, 0x0, .word 0x0⟩,  -- R88
    ⟨"NET_LINK", 0x38, 1, 0x1, 1, 1, .ro, 0x80FF, 0x0, .word 0x8000⟩,  -- R328
    ⟨"NET_CTL", 0x39, 1, 0x1, 1, 1, .rw, 0x8333, 0x8333, .word 0x3⟩,  -- R328
    ⟨"NET_PTPSTAT", 0x3A, 1, 0x1, 1, 1, .ro, 0xF00F, 0x0, .word 0x3003⟩,  -- R328
    ⟨"NET_FLAGSUM", 0x3B, 1, 0x1, 1, 1, .ro, 0xF, 0x0, .word 0x0⟩,  -- R328
    ⟨"CLS_CTL", 0x3C, 1, 0x1, 1, 1, .rw, 0xC000, 0xC000, .word 0x8000⟩,  -- R363
    ⟨"CLS_STAT", 0x3D, 1, 0x1, 1, 1, .ro, 0xF1FF, 0x0, .word 0x0⟩,  -- R363
    ⟨"QUE_STAT", 0x3E, 1, 0x1, 1, 1, .ro, 0xFFFF, 0x0, .word 0xF800⟩,  -- R403
    ⟨"STR_STAT", 0x3F, 1, 0x1, 1, 1, .ro, 0x81FF, 0x0, .word 0x0⟩,  -- R403
    ⟨"AES_ISTAT", 0x40, 2, 0x1, 1, 1, .ro, 0xFFFF, 0x0, .word 0x0⟩,  -- R428
    ⟨"AES_ICFG", 0x42, 2, 0x1, 1, 1, .rw, 0xF700, 0xF700, .word 0x0⟩,  -- R428
    ⟨"AES_OCFG", 0x44, 2, 0x1, 1, 1, .rw, 0xF300, 0xF000, .word 0x1000⟩,  -- R428
    ⟨"AES_OSTAT", 0x46, 1, 0x1, 1, 1, .ro, 0x3, 0x0, .word 0x0⟩,  -- R428
    ⟨"AES_FLAGSUM", 0x47, 1, 0x1, 1, 1, .ro, 0x1F, 0x0, .word 0x0⟩,  -- R428
    ⟨"AIO_INEN", 0x48, 1, 0x1, 1, 1, .rw, 0xFF, 0xFF, .word 0x0⟩,  -- R463
    ⟨"AIO_INSTAT", 0x49, 1, 0x1, 1, 1, .ro, 0xFFFF, 0x0, .word 0x0⟩,  -- R463
    ⟨"AIO_TLCTL", 0x4A, 1, 0x1, 1, 1, .rw, 0x833F, 0x833F, .word 0xC⟩,  -- R463
    ⟨"AIO_TLSTAT", 0x4B, 1, 0x1, 1, 1, .ro, 0x8303, 0x0, .word 0x8000⟩,  -- R463
    ⟨"AIO_CDCCMD", 0x4C, 1, 0x1, 1, 1, .wo, 0x0, 0xF17F, .word 0x0⟩,  -- R463
    ⟨"AIO_FLAGSUM", 0x4D, 1, 0x1, 1, 1, .ro, 0x1FF, 0x0, .word 0x0⟩,  -- R463
    ⟨"AMP_EN", 0x4E, 1, 0x1, 1, 1, .rw, 0xFF, 0xFF, .word 0x0⟩,  -- R463
    ⟨"AMP_MUTE", 0x4F, 1, 0x1, 1, 1, .rw, 0xFF, 0xFF, .word 0xFF⟩,  -- R463
    ⟨"AMP_RUN", 0x50, 1, 0x1, 1, 1, .ro, 0xFF, 0x0, .word 0x0⟩,  -- R463
    ⟨"AMP_ISO", 0x51, 1, 0x1, 1, 1, .ro, 0xFFFF, 0x0, .word 0x0⟩,  -- R463
    ⟨"AMP_BRIDGE", 0x52, 1, 0x1, 1, 1, .rw, 0xF, 0xF, .word 0x0⟩,  -- R463
    ⟨"AMP_REEN", 0x53, 1, 0x1, 1, 1, .wo, 0x0, 0xFFFF, .word 0x0⟩,  -- R463
    ⟨"FIO_IN", 0x54, 1, 0x1, 1, 1, .ro, 0xFFFF, 0x0, .word 0x0⟩,  -- R463
    ⟨"FIO_INVALID", 0x55, 1, 0x1, 1, 1, .ro, 0xFFFF, 0x0, .word 0x0⟩,  -- R463
    ⟨"FIO_OUT", 0x56, 1, 0x1, 1, 1, .rw, 0xFF, 0xFF, .word 0x0⟩]  -- R463

/-- Direct registers, part 3. -/
def regRowsDirectc : List RegRow :=
  [ ⟨"FIO_OSTAT", 0x57, 1, 0x1, 1, 1, .ro, 0xFFFF, 0x0, .word 0x0⟩,  -- R463
    ⟨"RTM_STAT", 0x58, 1, 0x1, 1, 1, .ro, 0x1FFF, 0x0, .word 0x0⟩,  -- R481
    ⟨"RTM_EMERG", 0x59, 1, 0x1, 1, 1, .ro, 0xF, 0x0, .word 0x0⟩,  -- R481
    ⟨"RTM_GO", 0x5A, 1, 0x1, 1, 1, .wo, 0x0, 0xFF00, .word 0x0⟩,  -- R481
    ⟨"RTM_FLAGSUM", 0x5B, 1, 0x1, 1, 1, .ro, 0x7, 0x0, .word 0x0⟩,  -- R481
    ⟨"CAL_CTL", 0x5C, 1, 0x1, 1, 1, .rw, 0xF80F, 0xF80F, .word 0x780F⟩,  -- R504
    ⟨"CAL_STAT", 0x5D, 1, 0x1, 1, 1, .ro, 0xC0FF, 0x0, .word 0x0⟩,  -- R504
    ⟨"CAL_FORCE", 0x5E, 1, 0x1, 1, 1, .wo, 0x0, 0xFC77, .word 0x0⟩,  -- R504
    ⟨"CAL_FLAGSUM", 0x5F, 1, 0x1, 1, 1, .ro, 0x1F, 0x0, .word 0x0⟩,  -- R504
    ⟨"CAP_CTL", 0x60, 1, 0x1, 1, 1, .rw, 0x303, 0x303, .word 0x300⟩,  -- R525
    ⟨"CAP_STAT", 0x61, 1, 0x1, 1, 1, .ro, 0x33, 0x0, .word 0x0⟩,  -- R525
    ⟨"CAP_MODE", 0x62, 2, 0x1, 1, 1, .ro, 0xF, 0x0, .word 0xB⟩,  -- R525
    ⟨"CAP_MODEREQ", 0x64, 2, 0x1, 1, 1, .rw, 0xF, 0xF, .word 0xB⟩,  -- R525
    ⟨"CAP_PAGE", 0x66, 1, 0x1, 1, 1, .rw, 0xFFFF, 0xFFFF, .word 0x0⟩,  -- R525
    ⟨"CAP_FLAGSUM", 0x67, 1, 0x1, 1, 1, .ro, 0x7, 0x0, .word 0x0⟩,  -- R525
    ⟨"BGS_SCRUB", 0x68, 1, 0x1, 1, 1, .rw, 0x800F, 0x800F, .word 0x8004⟩,  -- R556
    ⟨"BGS_CARSTAT", 0x69, 1, 0x1, 1, 1, .ro, 0xEFFF, 0x0, .word 0x0⟩,  -- R556
    ⟨"BGS_LOGCTL", 0x6A, 1, 0x1, 1, 1, .rw, 0xC0FF, 0xC0FF, .word 0x8000⟩,  -- R556
    ⟨"BGS_LOGSTAT", 0x6B, 1, 0x1, 1, 1, .ro, 0x80FF, 0x0, .word 0x0⟩,  -- R556
    ⟨"BGS_TELCTL", 0x6C, 1, 0x1, 1, 1, .rw, 0xC000, 0xC000, .word 0x8000⟩,  -- R556
    ⟨"BGS_FLAGSUM", 0x6D, 1, 0x1, 1, 1, .ro, 0x1F, 0x0, .word 0x0⟩,  -- R556
    ⟨"BGS_VCORE", 0x6E, 1, 0x1, 1, 1, .ro, 0x3F, 0x0, .word 0x24⟩,  -- R56
    ⟨"BGS_ASC", 0x6F, 1, 0x1, 1, 1, .rw, 0x3FFF, 0x3FFF, .word 0x2490⟩,  -- R56
    ⟨"OTP_STAT", 0x70, 1, 0x1, 1, 1, .ro, 0xF80F, 0x0, .word 0x0⟩,  -- R582
    ⟨"OTP_ROAST", 0x71, 1, 0x1, 1, 1, .wo, 0x0, 0xF10F, .word 0x0⟩,  -- R582
    ⟨"OTP_RESULT", 0x72, 1, 0x1, 1, 1, .ro, 0xFFFF, 0x0, .word 0x0⟩,  -- R582
    ⟨"OTP_FLAGSUM", 0x73, 1, 0x1, 1, 1, .ro, 0x7, 0x0, .word 0x0⟩,  -- R582
    ⟨"PWR_STAT", 0x74, 1, 0x1, 1, 1, .ro, 0xF87F, 0x0, .word 0x0⟩,  -- R607
    ⟨"PWR_HOLDT", 0x75, 1, 0x1, 1, 1, .ro, 0xFFFF, 0x0, .word 0x0⟩,  -- R607
    ⟨"PWR_PIN", 0x76, 1, 0x1, 1, 1, .ro, 0xFFFF, 0x0, .word 0x0⟩,  -- R607
    ⟨"PWR_FLAGSUM", 0x77, 1, 0x1, 1, 1, .ro, 0xF, 0x0, .word 0x0⟩,  -- R607
    ⟨"SYS_HEALTH", 0x78, 1, 0x1, 1, 1, .ro, 0xFFFF, 0x0, .word 0xF00⟩,  -- R620
    ⟨"SYS_LASTSUB", 0x79, 1, 0x1, 1, 1, .ro, 0xFFFF, 0x0, .word 0x0⟩,  -- R620
    ⟨"SYS_SUBTIME", 0x7A, 1, 0x1, 1, 1, .ro, 0xFFFF, 0x0, .word 0x0⟩,  -- R620
    ⟨"SYS_HEALTHFLAG", 0x7B, 1, 0x1, 1, 1, .cc, 0x800F, 0x800F, .word 0x0⟩]  -- R620

/-- All of direct registers. -/
def regRowsDirect : List RegRow := regRowsDirecta ++ regRowsDirectb ++ regRowsDirectc

/-- Words of a logical engine space (0x10 + n), part 1. -/
def regRowsEnginea : List RegRow :=
  [ ⟨"SE_DLCFG", 0x40000, 1, 0x1, 1, 1, .wt, 0x1F3, 0x1F3, .word 0x32⟩,  -- R57
    ⟨"SE_PLEN", 0x40001, 1, 0x1, 1, 1, .rw, 0x3FFF, 0x3FFF, .word 0x0⟩,  -- R57
    ⟨"SE_MISSFLAG", 0x40002, 1, 0x1, 1, 1, .cc, 0x800F, 0x800F, .word 0x0⟩,  -- R57
    ⟨"SE_DROPFLAG", 0x40003, 1, 0x1, 1, 1, .cc, 0x800F, 0x800F, .word 0x0⟩,  -- R57
    ⟨"SE_LENFLAG", 0x40004, 1, 0x1, 1, 1, .cc, 0x800F, 0x800F, .word 0x0⟩,  -- R57
    ⟨"SE_RUN", 0x40005, 1, 0x1, 1, 1, .ro, 0x3F, 0x0, .word 0x0⟩,  -- R57
    ⟨"SE_SLACK_LAST", 0x40006, 1, 0x1, 1, 1, .ro, 0xFFFF, 0x0, .word 0x0⟩,  -- R57
    ⟨"SE_SLACK_MIN", 0x40007, 1, 0x1, 1, 1, .rw, 0xFFFF, 0xFFFF, .word 0xFFFF⟩,  -- R57
    ⟨"SE_BUNDLES_LAST", 0x40008, 1, 0x1, 1, 1, .ro, 0x3FFF, 0x0, .word 0x0⟩,  -- R57
    ⟨"SE_WAIT_LAST", 0x40009, 1, 0x1, 1, 1, .ro, 0xFFFF, 0x0, .word 0x0⟩,  -- R57
    ⟨"SE_MISSCNT", 0x4000A, 1, 0x1, 2, 2, .cnt, 0xFFFF, 0xFFFF, .word 0x0⟩,  -- R57
    ⟨"SE_DROPCNT", 0x4000C, 1, 0x1, 2, 2, .cnt, 0xFFFF, 0xFFFF, .word 0x0⟩,  -- R57
    ⟨"SE_CTL", 0x40100, 1, 0x1, 1, 1, .rw, 0xC301, 0xC301, .word 0x1⟩,  -- R179
    ⟨"SE_SPENTRY", 0x40101, 1, 0x1, 1, 1, .wt, 0x7FFF, 0x7FFF, .word 0x0⟩,  -- R179
    ⟨"SE_BGENTRY", 0x40102, 1, 0x1, 1, 1, .rw, 0x7FFF, 0x7FFF, .word 0x0⟩,  -- R179
    ⟨"SE_BGCMD", 0x40103, 1, 0x1, 1, 1, .wo, 0x0, 0xFFFF, .word 0x0⟩,  -- R179
    ⟨"SE_STAT", 0x40104, 1, 0x1, 1, 1, .ro, 0xFF00, 0x0, .word 0x0⟩,  -- R179
    ⟨"SE_BGPC", 0x40105, 1, 0x1, 1, 1, .ro, 0x7FFF, 0x0, .word 0x0⟩,  -- R179
    ⟨"SE_SPTOP_S", 0x40106, 1, 0x1, 1, 1, .rw, 0xFFFF, 0xFFFF, .word 0x7FFF⟩,  -- R179
    ⟨"SE_SPLIM_S", 0x40107, 1, 0x1, 1, 1, .rw, 0xFFFF, 0xFFFF, .word 0x7E00⟩,  -- R179
    ⟨"SE_SPTOP_F", 0x40108, 1, 0x1, 1, 1, .rw, 0xFFFF, 0xFFFF, .word 0x7DFF⟩,  -- R179
    ⟨"SE_SPLIM_F", 0x40109, 1, 0x1, 1, 1, .rw, 0xFFFF, 0xFFFF, .word 0x7C00⟩,  -- R179
    ⟨"SE_FAILREQ", 0x4010A, 1, 0x1, 1, 1, .wo, 0x0, 0xFFFF, .word 0x0⟩,  -- R179
    ⟨"SE_ECCFLAG", 0x40110, 1, 0x1, 1, 1, .cc, 0x800F, 0x800F, .word 0x0⟩,  -- R179
    ⟨"SE_BGHFLAG", 0x40111, 1, 0x1, 1, 1, .cc, 0x800F, 0x800F, .word 0x0⟩,  -- R179
    ⟨"SE_ECCCCNT", 0x40114, 1, 0x1, 2, 2, .ro, 0xFFFF, 0x0, .word 0x0⟩,  -- R179
    ⟨"SE_ECCUCNT", 0x40116, 1, 0x1, 2, 2, .ro, 0xFFFF, 0x0, .word 0x0⟩,  -- R179
    ⟨"SE_EVLAT_S", 0x40140, 1, 0x1, 1, 1, .ro, 0xFFFF, 0x0, .word 0x0⟩,  -- R259
    ⟨"SE_EVLAT_F", 0x40141, 1, 0x1, 1, 1, .ro, 0xFFFF, 0x0, .word 0x0⟩,  -- R259
    ⟨"SE_EVSET", 0x40142, 1, 0x1, 1, 1, .wo, 0x0, 0xFFFF, .word 0x0⟩,  -- R259
    ⟨"SE_WAITSTAT", 0x40143, 1, 0x1, 1, 1, .ro, 0x7777, 0x0, .word 0x0⟩,  -- R259
    ⟨"SE_SFFLAG", 0x40144, 1, 0x1, 1, 1, .cc, 0x800F, 0x800F, .word 0x0⟩,  -- R259
    ⟨"SE_SFCNT", 0x40146, 1, 0x1, 2, 2, .ro, 0xFFFF, 0x0, .word 0x0⟩,  -- R259
    ⟨"SE_INMAP", 0x40200, 32, 0x1, 1, 1, .wt, 0x81FF, 0x81FF, .word 0x0⟩,  -- R179
    ⟨"SE_OUTMAP", 0x40220, 32, 0x1, 1, 1, .wt, 0x81FF, 0x81FF, .word 0x0⟩,  -- R179
    ⟨"SE_STAGE", 0x50000, 1024, 0x1, 1, 1, .rw, 0xFFFF, 0xFFFF, .word 0x0⟩,  -- R280
    ⟨"SE_YSTG", 0x51000, 4, 0x1, 1, 1, .rw, 0xC03F, 0x3F, .index⟩,  -- R280
    ⟨"SE_YPRIME", 0x51004, 1, 0x1, 1, 1, .wo, 0x0, 0xF, .word 0x0⟩,  -- R280
    ⟨"SE_COMMIT", 0x51005, 1, 0x1, 1, 1, .wo, 0x0, 0xF01F, .word 0x0⟩,  -- R280
    ⟨"SE_CSTAT", 0x51006, 1, 0x1, 1, 1, .ro, 0x801F, 0x0, .word 0x0⟩]  -- R280

/-- Words of a logical engine space (0x10 + n), part 2. -/
def regRowsEngineb : List RegRow :=
  [ ⟨"SE_COMMITCNT", 0x51007, 1, 0x1, 1, 1, .ro, 0xFFFF, 0x0, .word 0x0⟩,  -- R280
    ⟨"SE_NEXT_ENTRY", 0x51010, 1, 0x1, 1, 1, .rw, 0x7FFF, 0x7FFF, .word 0x0⟩,  -- R280
    ⟨"SE_NEXT_PLEN", 0x51011, 1, 0x1, 1, 1, .rw, 0x3FFF, 0x3FFF, .word 0x0⟩,  -- R280
    ⟨"SE_NEXT_LO", 0x51012, 1, 0x1, 1, 1, .rw, 0x7FFF, 0x7FFF, .word 0x0⟩,  -- R280
    ⟨"SE_NEXT_HI", 0x51013, 1, 0x1, 1, 1, .rw, 0x7FFF, 0x7FFF, .word 0x7FFF⟩,  -- R280
    ⟨"SE_PLIVE_LO", 0x51014, 1, 0x1, 1, 1, .rw, 0x7FFF, 0x7FFF, .word 0x0⟩,  -- R280
    ⟨"SE_PLIVE_HI", 0x51015, 1, 0x1, 1, 1, .rw, 0x7FFF, 0x7FFF, .word 0x7FFF⟩,  -- R280
    ⟨"SE_GLCTL", 0x51040, 16, 0x8, 1, 1, .rw, 0xFFFF, 0xFFFF, .word 0x0⟩,  -- R280
    ⟨"SE_GLTARGET", 0x51041, 16, 0x8, 1, 1, .wt, 0xFFFF, 0xFFFF, .word 0x0⟩,  -- R280
    ⟨"SE_GLRAMP", 0x51042, 16, 0x8, 1, 1, .rw, 0xFFFF, 0xFFFF, .word 0x1E0⟩,  -- R280
    ⟨"SE_GLRATE", 0x51043, 16, 0x8, 1, 1, .rw, 0xF, 0xF, .word 0x6⟩,  -- R280
    ⟨"SE_GLVALUE", 0x51044, 16, 0x8, 1, 1, .ro, 0xFFFF, 0x0, .word 0x0⟩,  -- R280
    ⟨"SE_GLLEFT", 0x51045, 16, 0x8, 1, 1, .ro, 0xFFFF, 0x0, .word 0x0⟩,  -- R280
    ⟨"SE_VCHK_MEM", 0x51100, 1, 0x1, 1, 1, .rw, 0x3, 0x3, .word 0x0⟩,  -- R280
    ⟨"SE_VCHK_START", 0x51101, 1, 0x1, 1, 1, .rw, 0xFFFF, 0xFFFF, .word 0x0⟩,  -- R280
    ⟨"SE_VCHK_COUNT", 0x51102, 1, 0x1, 1, 1, .rw, 0xFFFF, 0xFFFF, .word 0x0⟩,  -- R280
    ⟨"SE_VCHK_CMD", 0x51103, 1, 0x1, 1, 1, .wo, 0x0, 0xFFFF, .word 0x0⟩,  -- R280
    ⟨"SE_VCHK_STAT", 0x51104, 1, 0x1, 1, 1, .ro, 0xC000, 0x0, .word 0x0⟩,  -- R280
    ⟨"SE_VCHK_CRC", 0x51105, 1, 0x1, 1, 1, .ro, 0xFFFF, 0x0, .word 0x0⟩,  -- R280
    ⟨"SE_VCHK_UE", 0x51106, 1, 0x1, 1, 1, .ro, 0xFFFF, 0x0, .word 0x0⟩]  -- R280

/-- All of words of a logical engine space (0x10 + n). -/
def regRowsEngine : List RegRow := regRowsEnginea ++ regRowsEngineb

/-- Space 0x02. -/
def regRows02 : List RegRow :=
  [ ⟨"EV_RECORD", 0x0, 1024, 0x8, 8, 1, .ro, 0xFFFF, 0x0, .word 0x0⟩,  -- R148
    ⟨"NEXTSEQ", 0x2500, 256, 0x1, 1, 1, .ro, 0xFFFF, 0x0, .word 0x0⟩,  -- R148
    ⟨"EV_CFG", 0x2000, 256, 0x1, 1, 1, .rw, 0x7, 0x7, .urg⟩,  -- R148
    ⟨"LOSTCNT", 0x2100, 256, 0x2, 2, 2, .cnt, 0xFFFF, 0xFFFF, .word 0x0⟩,  -- R148
    ⟨"SUPCNT", 0x2300, 256, 0x2, 2, 2, .cnt, 0xFFFF, 0xFFFF, .word 0x0⟩,  -- R148
    ⟨"RELERR", 0x2600, 1, 0x1, 1, 1, .cc, 0x800F, 0x800F, .word 0x0⟩,  -- R148
    ⟨"LOSTALL", 0x2602, 1, 0x1, 2, 2, .ro, 0xFFFF, 0x0, .word 0x0⟩]  -- R148

/-- Space 0x0C. -/
def regRows0C : List RegRow :=
  [ ⟨"DMU_L1BASE", 0x40000000, 16, 0x40, 2, 2, .wt, 0xFFFF, 0xFFFF, .word 0x0⟩,  -- R303
    ⟨"DMU_QUOTA", 0x40000002, 16, 0x40, 1, 1, .rw, 0x7FF, 0x7FF, .word 0x64⟩,  -- R303
    ⟨"DMU_ALLOW", 0x40000003, 16, 0x40, 1, 1, .ro, 0xFFFF, 0x0, .word 0x823⟩,  -- R303
    ⟨"DMU_INVAL", 0x40000004, 16, 0x40, 1, 1, .wt, 0x8FFF, 0x8FFF, .word 0x0⟩,  -- R303
    ⟨"DMU_ESTAT", 0x40000005, 16, 0x40, 1, 1, .ro, 0xFFDF, 0x0, .word 0x0⟩,  -- R303
    ⟨"DMU_FLTFLAG", 0x40000006, 16, 0x40, 1, 1, .cc, 0x800F, 0x800F, .word 0x0⟩,  -- R303
    ⟨"DMU_LATEFLAG", 0x40000007, 16, 0x40, 1, 1, .cc, 0x800F, 0x800F, .word 0x0⟩,  -- R303
    ⟨"DMU_QFFLAG", 0x40000008, 16, 0x40, 1, 1, .cc, 0x800F, 0x800F, .word 0x0⟩,  -- R303
    ⟨"DMU_REFFLAG", 0x40000009, 16, 0x40, 1, 1, .cc, 0x800F, 0x800F, .word 0x0⟩,  -- R303
    ⟨"DMU_FLTCNT", 0x4000000A, 16, 0x40, 2, 2, .ro, 0xFFFF, 0x0, .word 0x0⟩,  -- R303
    ⟨"DMU_LATECNT", 0x4000000C, 16, 0x40, 2, 2, .ro, 0xFFFF, 0x0, .word 0x0⟩,  -- R303
    ⟨"DMU_QFCNT", 0x4000000E, 16, 0x40, 2, 2, .ro, 0xFFFF, 0x0, .word 0x0⟩,  -- R303
    ⟨"DMU_OVERQCNT", 0x40000010, 16, 0x40, 2, 2, .ro, 0xFFFF, 0x0, .word 0x0⟩,  -- R303
    ⟨"DMU_LASTFLT", 0x40000012, 16, 0x40, 1, 1, .ro, 0x7, 0x0, .word 0x0⟩,  -- R303
    ⟨"DMU_LASTFAR", 0x40000013, 16, 0x40, 2, 2, .ro, 0xFFFF, 0x0, .word 0x0⟩,  -- R303
    ⟨"DMU_ECCCCNT", 0x40000016, 16, 0x40, 2, 2, .ro, 0xFFFF, 0x0, .word 0x0⟩,  -- R303
    ⟨"DMU_ECCUCNT", 0x40000018, 16, 0x40, 2, 2, .ro, 0xFFFF, 0x0, .word 0x0⟩,  -- R303
    ⟨"DMU_WALKS", 0x4000001A, 16, 0x40, 2, 2, .ro, 0xFFFF, 0x0, .word 0x0⟩]  -- R303

/-- Space 0x24. -/
def regRows24 : List RegRow :=
  [ ⟨"CKS_MULTA", 0x0, 8, 0x8, 2, 2, .rw, 0xFFFF, 0xFFFF, .word 0x0⟩,  -- R89
    ⟨"CKS_FAMA", 0x2, 8, 0x8, 1, 1, .rw, 0x9FFF, 0x9FFF, .word 0x0⟩,  -- R89
    ⟨"CKS_FINEA", 0x3, 8, 0x8, 1, 1, .rw, 0x3FF, 0x3FF, .word 0x0⟩,  -- R89
    ⟨"CKS_TCOEFA", 0x4, 8, 0x8, 1, 1, .rw, 0xFFFF, 0xFFFF, .word 0x0⟩,  -- R89
    ⟨"CKS_MULTB", 0x40, 8, 0x8, 2, 2, .rw, 0xFFFF, 0xFFFF, .word 0x0⟩,  -- R89
    ⟨"CKS_FAMB", 0x42, 8, 0x8, 1, 1, .rw, 0x9FFF, 0x9FFF, .word 0x0⟩,  -- R89
    ⟨"CKS_FINEB", 0x43, 8, 0x8, 1, 1, .rw, 0x3FF, 0x3FF, .word 0x0⟩,  -- R89
    ⟨"CKS_TCOEFB", 0x44, 8, 0x8, 1, 1, .rw, 0xFFFF, 0xFFFF, .word 0x0⟩,  -- R89
    ⟨"CLKO_N", 0x100, 8, 0x4, 1, 1, .rw, 0xFFFF, 0xFFFF, .clkoN⟩,  -- R89
    ⟨"CLKO_CFG", 0x101, 8, 0x4, 1, 1, .rw, 0x8007, 0x8007, .clkoCfg⟩,  -- R89
    ⟨"CLKO_DELAY", 0x102, 8, 0x4, 1, 1, .rw, 0x3FF, 0x3FF, .word 0x0⟩,  -- R89
    ⟨"CLKO_RUN", 0x103, 8, 0x4, 1, 1, .ro, 0x1, 0x0, .word 0x0⟩,  -- R89
    ⟨"DOM_TICK", 0x200, 4, 0x8, 5, 5, .ro, 0xFFFF, 0x0, .word 0x0⟩,  -- R89
    ⟨"DOM_GAPCNT", 0x205, 4, 0x8, 2, 2, .ro, 0xFFFF, 0x0, .word 0x0⟩,  -- R89
    ⟨"REF_STATE", 0x220, 3, 0x4, 1, 1, .ro, 0xF, 0x0, .word 0x0⟩,  -- R89
    ⟨"REF_OFFSET", 0x221, 3, 0x4, 1, 1, .ro, 0xFFFF, 0x0, .word 0x0⟩,  -- R89
    ⟨"REF_DRIFT", 0x222, 3, 0x4, 1, 1, .ro, 0xFFFF, 0x0, .word 0x0⟩,  -- R89
    ⟨"REF_QLEFT", 0x223, 3, 0x4, 1, 1, .ro, 0xFFFF, 0x0, .word 0x0⟩,  -- R89
    ⟨"CORE_STATE", 0x240, 2, 0x8, 1, 1, .ro, 0x77, 0x0, .word 0x0⟩,  -- R89
    ⟨"CORE_FOFS", 0x241, 2, 0x8, 1, 1, .ro, 0xFFFF, 0x0, .word 0x0⟩,  -- R89
    ⟨"CORE_HOLDFOFS", 0x242, 2, 0x8, 1, 1, .ro, 0xFFFF, 0x0, .word 0x0⟩,  -- R89
    ⟨"CORE_PHERR", 0x243, 2, 0x8, 1, 1, .ro, 0xFFFF, 0x0, .word 0x0⟩,  -- R89
    ⟨"CORE_COARSE", 0x244, 2, 0x8, 1, 1, .ro, 0xFFF, 0x0, .word 0x0⟩,  -- R89
    ⟨"CORE_FINE", 0x245, 2, 0x8, 1, 1, .ro, 0x3FF, 0x0, .word 0x0⟩,  -- R89
    ⟨"CORE_SEARCHCNT", 0x246, 2, 0x8, 1, 1, .ro, 0xFFFF, 0x0, .word 0x0⟩,  -- R89
    ⟨"CKS_QWIN", 0x270, 1, 0x1, 1, 1, .rw, 0xFF, 0xFF, .word 0x64⟩,  -- R89
    ⟨"CKS_HAVG", 0x271, 1, 0x1, 1, 1, .rw, 0x3F, 0x3F, .word 0x10⟩,  -- R89
    ⟨"CKS_BW", 0x272, 1, 0x1, 1, 1, .rw, 0x3, 0x3, .word 0x1⟩,  -- R89
    ⟨"CKS_LEARN", 0x273, 1, 0x1, 1, 1, .rw, 0x1, 0x1, .word 0x1⟩,  -- R89
    ⟨"CKS_STOP", 0x274, 1, 0x1, 1, 1, .rw, 0x3, 0x3, .word 0x0⟩,  -- R89
    ⟨"CKS_FLAG", 0x280, 5, 0x1, 1, 1, .cc, 0x800F, 0x800F, .word 0x0⟩]  -- R89

/-- Space 0x3F, part 1. -/
def regRows3Fa : List RegRow :=
  [ ⟨"CP_CNT", 0x0, 5, 0x2, 2, 2, .ro, 0xFFFF, 0x0, .word 0x0⟩,  -- R126
    ⟨"BGS_ASC_LOW", 0x100, 1, 0x1, 1, 1, .rw, 0xFFFF, 0xFFFF, .word 0x1000⟩,  -- R58
    ⟨"BGS_ASC_HIGH", 0x101, 1, 0x1, 1, 1, .rw, 0xFFFF, 0xFFFF, .word 0x4000⟩,  -- R58
    ⟨"BGS_ASC_DWELL", 0x102, 1, 0x1, 1, 1, .rw, 0x1F, 0x1F, .word 0x10⟩,  -- R58
    ⟨"BGS_ASC_STEPS", 0x104, 1, 0x1, 2, 2, .ro, 0xFFFF, 0x0, .word 0x0⟩,  -- R58
    ⟨"BGS_CEILFLAG", 0x106, 1, 0x1, 1, 1, .cc, 0x800F, 0x800F, .word 0x0⟩,  -- R58
    ⟨"BGS_SPD_MON", 0x108, 8, 0x1, 1, 1, .ro, 0xFFFF, 0x0, .word 0x0⟩,  -- R58
    ⟨"BGS_FLOORFLAG", 0x110, 1, 0x1, 1, 1, .cc, 0x800F, 0x800F, .word 0x0⟩,  -- R58
    ⟨"SYS_FWDG", 0x120, 1, 0x1, 1, 1, .rw, 0xFF, 0xFF, .word 0x14⟩,  -- R58
    ⟨"SYS_FSTALLFLAG", 0x121, 1, 0x1, 1, 1, .cc, 0x800F, 0x800F, .word 0x0⟩,  -- R58
    ⟨"SYS_FSTALLCNT", 0x122, 1, 0x1, 2, 2, .ro, 0xFFFF, 0x0, .word 0x0⟩,  -- R58
    ⟨"SYS_FLASTLINK", 0x124, 1, 0x1, 1, 1, .ro, 0xFFFF, 0x0, .word 0x0⟩,  -- R58
    ⟨"SE_MAP", 0x200, 16, 0x1, 1, 1, .ro, 0x800F, 0x0, .seMap⟩,  -- R181
    ⟨"PE_MAP", 0x210, 16, 0x1, 1, 1, .ro, 0xE00F, 0x0, .peMap⟩,  -- R181
    ⟨"ASRC_OWNER", 0x220, 32, 0x1, 1, 1, .rw, 0xC00F, 0xC00F, .word 0x0⟩,  -- R181
    ⟨"NET_PCFG", 0x400, 2, 0x10, 1, 1, .rw, 0x37, 0x37, .word 0x7⟩,  -- R329
    ⟨"NET_LINKCHG", 0x401, 2, 0x10, 1, 1, .ro, 0xFFFF, 0x0, .word 0x0⟩,  -- R329
    ⟨"NET_RXFRAMES", 0x440, 2, 0x40, 3, 3, .cnt, 0xFFFF, 0xFFFF, .word 0x0⟩,  -- R329
    ⟨"NET_RXBYTES", 0x443, 2, 0x40, 3, 3, .cnt, 0xFFFF, 0xFFFF, .word 0x0⟩,  -- R329
    ⟨"NET_TXFRAMES", 0x446, 2, 0x40, 3, 3, .cnt, 0xFFFF, 0xFFFF, .word 0x0⟩,  -- R329
    ⟨"NET_TXBYTES", 0x449, 2, 0x40, 3, 3, .cnt, 0xFFFF, 0xFFFF, .word 0x0⟩,  -- R329
    ⟨"NET_CUTTHRU", 0x44C, 2, 0x40, 3, 3, .cnt, 0xFFFF, 0xFFFF, .word 0x0⟩,  -- R329
    ⟨"NET_ERRCNT", 0x450, 2, 0x40, 14, 2, .cnt, 0xFFFF, 0xFFFF, .word 0x0⟩,  -- R329
    ⟨"NET_MAC", 0x500, 1, 0x1, 3, 3, .ro, 0xFFFF, 0x0, .word 0x0⟩,  -- R329
    ⟨"NET_IP4", 0x510, 4, 0x2, 2, 2, .rw, 0xFFFF, 0xFFFF, .word 0x0⟩,  -- R329
    ⟨"NET_IP6", 0x520, 4, 0x8, 8, 8, .rw, 0xFFFF, 0xFFFF, .word 0x0⟩,  -- R329
    ⟨"NET_IPEN", 0x540, 1, 0x1, 1, 1, .rw, 0xFF, 0xFF, .word 0x0⟩,  -- R329
    ⟨"NET_PTPCFG", 0x580, 8, 0x1, 1, 1, .rw, 0xFF, 0xFF, .ptp⟩,  -- R329
    ⟨"NET_CONVTHR", 0x588, 1, 0x1, 1, 1, .rw, 0xFFFF, 0xFFFF, .word 0x3E8⟩,  -- R329
    ⟨"NET_STEPTHR", 0x589, 1, 0x1, 1, 1, .rw, 0x3FF, 0x3FF, .word 0x64⟩,  -- R329
    ⟨"NET_PTPTC", 0x58A, 1, 0x1, 1, 1, .rw, 0xF, 0xF, .word 0x4⟩,  -- R329
    ⟨"PTP_OFFSET", 0x5C0, 1, 0x1, 3, 3, .ro, 0xFFFF, 0x0, .word 0x0⟩,  -- R329
    ⟨"PTP_MPD", 0x5C3, 1, 0x1, 2, 2, .ro, 0xFFFF, 0x0, .word 0x0⟩,  -- R329
    ⟨"PTP_GMID", 0x5C5, 1, 0x1, 4, 4, .ro, 0xFFFF, 0x0, .word 0x0⟩,  -- R329
    ⟨"PTP_RATE", 0x5C9, 1, 0x1, 1, 1, .ro, 0xFFFF, 0x0, .word 0x0⟩,  -- R329
    ⟨"PTPSTEPS", 0x5CA, 1, 0x1, 2, 2, .ro, 0xFFFF, 0x0, .word 0x0⟩,  -- R329
    ⟨"PTPDISC", 0x5CC, 1, 0x1, 2, 2, .ro, 0xFFFF, 0x0, .word 0x0⟩,  -- R329
    ⟨"NET_PTPTIME", 0x600, 1, 0x1, 5, 5, .rw, 0xFFFF, 0xFFFF, .word 0x0⟩,  -- R329
    ⟨"NET_CAPT", 0x610, 1, 0x1, 1, 1, .rw, 0x8001, 0x1, .word 0x0⟩,  -- R329
    ⟨"NET_CAPTICK", 0x611, 1, 0x1, 2, 2, .ro, 0xFFFF, 0x0, .word 0x0⟩]  -- R329

/-- Space 0x3F, part 2. -/
def regRows3Fb : List RegRow :=
  [ ⟨"NET_CAPTIME", 0x613, 1, 0x1, 5, 5, .ro, 0xFFFF, 0x0, .word 0x0⟩,  -- R329
    ⟨"TCCORR", 0x620, 1, 0x1, 3, 3, .ro, 0xFFFF, 0x0, .word 0x0⟩,  -- R329
    ⟨"TCNOCORR", 0x623, 1, 0x1, 2, 2, .ro, 0xFFFF, 0x0, .word 0x0⟩,  -- R329
    ⟨"NET_FLAG", 0x630, 4, 0x1, 1, 1, .cc, 0x800F, 0x800F, .word 0x0⟩,  -- R329
    ⟨"ADC_CFG", 0x800, 8, 0x8, 1, 1, .rw, 0x303F, 0x303F, .word 0x0⟩,  -- R464
    ⟨"ADC_SLOT", 0x801, 8, 0x8, 1, 1, .rw, 0x1FF, 0x1FF, .word 0x0⟩,  -- R464
    ⟨"ADC_NEARTH", 0x802, 8, 0x8, 1, 1, .rw, 0xFF, 0xFF, .word 0xC⟩,  -- R464
    ⟨"ADC_APPGAIN", 0x803, 8, 0x8, 1, 1, .ro, 0x3F, 0x0, .word 0x0⟩,  -- R464
    ⟨"ADC_OFST", 0x804, 8, 0x8, 1, 1, .ro, 0xFFFF, 0x0, .word 0x0⟩,  -- R464
    ⟨"ADC_BIASI", 0x805, 8, 0x8, 1, 1, .ro, 0xFFFF, 0x0, .word 0x0⟩,  -- R464
    ⟨"ADC_CLIPCNT", 0x806, 8, 0x8, 2, 2, .cnt, 0xFFFF, 0xFFFF, .word 0x0⟩,  -- R464
    ⟨"AMP_SLOT", 0x880, 8, 0x10, 1, 1, .rw, 0x1FF, 0x1FF, .word 0x0⟩,  -- R464
    ⟨"AMP_STATE", 0x881, 8, 0x10, 1, 1, .ro, 0xFF07, 0x0, .word 0x0⟩,  -- R464
    ⟨"AMP_MUTERAMP", 0x882, 8, 0x10, 1, 1, .rw, 0x7F, 0x7F, .word 0xA⟩,  -- R464
    ⟨"AMP_VRMS", 0x883, 8, 0x10, 1, 1, .ro, 0xFFFF, 0x0, .word 0x0⟩,  -- R464
    ⟨"AMP_IRMS", 0x884, 8, 0x10, 1, 1, .ro, 0xFFFF, 0x0, .word 0x0⟩,  -- R464
    ⟨"AMP_TEMP", 0x885, 8, 0x10, 1, 1, .ro, 0xFFFF, 0x0, .word 0x0⟩,  -- R464
    ⟨"AMP_TRIPCNT", 0x886, 8, 0x10, 2, 2, .cnt, 0xFFFF, 0xFFFF, .word 0x0⟩,  -- R464
    ⟨"TL_RXSLOT", 0x900, 2, 0x10, 1, 1, .rw, 0x1FF, 0x1FF, .word 0x0⟩,  -- R464
    ⟨"TL_TXSLOT", 0x901, 2, 0x10, 1, 1, .rw, 0x1FF, 0x1FF, .word 0x0⟩,  -- R464
    ⟨"TL_RXGAIN", 0x902, 2, 0x10, 1, 1, .rw, 0x1F, 0x1F, .word 0x0⟩,  -- R464
    ⟨"TL_CDCLVL", 0x903, 2, 0x10, 1, 1, .rw, 0x3F, 0x3F, .word 0x1A⟩,  -- R464
    ⟨"TL_CDCOK", 0x904, 2, 0x10, 2, 2, .cnt, 0xFFFF, 0xFFFF, .word 0x0⟩,  -- R464
    ⟨"TL_CDCCRC", 0x906, 2, 0x10, 2, 2, .cnt, 0xFFFF, 0xFFFF, .word 0x0⟩,  -- R464
    ⟨"CDC_RXHDR", 0x980, 2, 0x40, 1, 1, .ro, 0xFF7F, 0x0, .word 0x0⟩,  -- R464
    ⟨"CDC_RXBODY", 0x981, 2, 0x40, 32, 1, .ro, 0xFFFF, 0x0, .word 0x0⟩,  -- R464
    ⟨"CDC_RXSEQ", 0x9A1, 2, 0x40, 1, 1, .ro, 0xFFFF, 0x0, .word 0x0⟩,  -- R464
    ⟨"CDC_TXTYPE", 0xA00, 2, 0x40, 1, 1, .rw, 0xFF, 0xFF, .word 0x0⟩,  -- R464
    ⟨"CDC_TXBODY", 0xA01, 2, 0x40, 32, 1, .rw, 0xFFFF, 0xFFFF, .word 0x0⟩,  -- R464
    ⟨"FIN_CFG", 0xB00, 16, 0x4, 1, 1, .rw, 0xFF07, 0xFF07, .word 0x1400⟩,  -- R464
    ⟨"FIN_VOLT", 0xB01, 16, 0x4, 1, 1, .ro, 0xFFFF, 0x0, .word 0x0⟩,  -- R464
    ⟨"FIN_CHG", 0xB02, 16, 0x4, 1, 1, .ro, 0xFFFF, 0x0, .word 0x0⟩,  -- R464
    ⟨"FOUT_CFG", 0xB40, 8, 0x4, 1, 1, .rw, 0x3, 0x3, .word 0x0⟩,  -- R464
    ⟨"FOUT_CURRENT", 0xB41, 8, 0x4, 1, 1, .ro, 0xFFFF, 0x0, .word 0x0⟩,  -- R464
    ⟨"FOUT_TRIPCNT", 0xB42, 8, 0x4, 2, 2, .cnt, 0xFFFF, 0xFFFF, .word 0x0⟩,  -- R464
    ⟨"AIO_FLAG", 0xB80, 9, 0x1, 1, 1, .cc, 0x800F, 0x800F, .word 0x0⟩,  -- R464
    ⟨"PWR_VIN", 0xD00, 3, 0x1, 1, 1, .ro, 0xFFFF, 0x0, .word 0x0⟩,  -- R608
    ⟨"PWR_VSTORE", 0xD03, 1, 0x1, 1, 1, .ro, 0xFFFF, 0x0, .word 0x0⟩,  -- R608
    ⟨"PWR_STORECAP", 0xD04, 1, 0x1, 1, 1, .ro, 0xFF, 0x0, .word 0x0⟩,  -- R608
    ⟨"PWR_PLSCNT", 0xD06, 1, 0x1, 2, 2, .cnt, 0xFFFF, 0xFFFF, .word 0x0⟩]  -- R608

/-- Space 0x3F, part 3. -/
def regRows3Fc : List RegRow :=
  [ ⟨"PWR_SHEDCNT", 0xD08, 1, 0x1, 2, 2, .cnt, 0xFFFF, 0xFFFF, .word 0x0⟩,  -- R608
    ⟨"PWR_TEMP", 0xD0A, 3, 0x1, 1, 1, .ro, 0xFFFF, 0x0, .word 0x0⟩,  -- R608
    ⟨"PWR_DRSTART", 0xD0D, 1, 0x1, 1, 1, .rw, 0xFF, 0xFF, .word 0x55⟩,  -- R608
    ⟨"PWR_DERATE", 0xD0E, 1, 0x1, 1, 1, .ro, 0xFF, 0x0, .word 0x0⟩,  -- R608
    ⟨"SYS_CHIMEFIN", 0xD10, 1, 0x1, 1, 1, .rw, 0x800F, 0x800F, .word 0x800F⟩,  -- R608
    ⟨"BOOTERR", 0xD11, 1, 0x1, 2, 2, .cnt, 0xFFFF, 0xFFFF, .word 0x0⟩,  -- R608
    ⟨"BOOTFAIL", 0xD13, 1, 0x1, 2, 2, .ro, 0xFFFF, 0x0, .word 0x0⟩,  -- R608
    ⟨"BOOT_VERA", 0xD15, 1, 0x1, 2, 2, .ro, 0xFFFF, 0x0, .word 0x0⟩,  -- R608
    ⟨"BOOT_VERB", 0xD17, 1, 0x1, 2, 2, .ro, 0xFFFF, 0x0, .word 0x0⟩,  -- R608
    ⟨"BOOT_IMGST", 0xD19, 1, 0x1, 1, 1, .ro, 0xF, 0x0, .word 0x0⟩,  -- R608
    ⟨"PWR_DCCHG", 0xD1A, 1, 0x1, 1, 1, .ro, 0xFFFF, 0x0, .word 0x0⟩,  -- R608
    ⟨"PWR_ACCHG", 0xD1B, 1, 0x1, 1, 1, .ro, 0xFFFF, 0x0, .word 0x0⟩,  -- R608
    ⟨"PWR_FLAG", 0xD20, 4, 0x1, 1, 1, .cc, 0x800F, 0x800F, .word 0x0⟩,  -- R608
    ⟨"SCR_ONCPASS", 0xC00, 1, 0x1, 2, 2, .ro, 0xFFFF, 0x0, .word 0x0⟩,  -- R559
    ⟨"SCR_DRMPASS", 0xC02, 1, 0x1, 2, 2, .ro, 0xFFFF, 0x0, .word 0x0⟩,  -- R559
    ⟨"SCR_CNT", 0xC04, 4, 0x2, 2, 2, .cnt, 0xFFFF, 0xFFFF, .word 0x0⟩,  -- R559
    ⟨"SCR_RESTBAD", 0xC0C, 1, 0x1, 1, 1, .ro, 0xFFFF, 0x0, .word 0x0⟩,  -- R559
    ⟨"SCR_UELOG", 0xC10, 16, 0x2, 2, 2, .ro, 0xFFFF, 0x0, .word 0x0⟩,  -- R559
    ⟨"SCR_UEFLAG", 0xC30, 1, 0x1, 1, 1, .cc, 0x800F, 0x800F, .word 0x0⟩,  -- R559
    ⟨"SUBCTX", 0xE00, 1, 0x1, 16, 16, .ro, 0xFFFF, 0x0, .word 0x0⟩,  -- R621
    ⟨"SYS_SUBCNT", 0xE10, 1, 0x1, 2, 2, .ro, 0xFFFF, 0x0, .word 0x0⟩]  -- R621

/-- All of space 0x3f. -/
def regRows3F : List RegRow := regRows3Fa ++ regRows3Fb ++ regRows3Fc

/-- Space 0x08. -/
def regRows08 : List RegRow :=
  [ ⟨"CLS_KEY", 0x0, 16384, 0x20, 20, 20, .rw, 0xFFFF, 0xFFFF, .word 0x0⟩,  -- R344
    ⟨"CLS_ACTVERB", 0x14, 16384, 0x20, 1, 1, .rw, 0x3F, 0x3F, .word 0x0⟩,  -- R344, R350
    ⟨"CLS_ACTQ", 0x15, 16384, 0x20, 2, 1, .rw, 0x83FF, 0x83FF, .word 0x0⟩,  -- R344, R350
    ⟨"CLS_ACTTAG", 0x17, 16384, 0x20, 1, 1, .rw, 0xFFFF, 0xFFFF, .word 0x0⟩,  -- R344, R350
    ⟨"CLS_HITS", 0x18, 16384, 0x20, 3, 3, .cnt, 0xFFFF, 0xFFFF, .word 0x0⟩,  -- R344
    ⟨"CLS_CTRL", 0x1F, 16384, 0x20, 1, 1, .rw, 0x8007, 0x8007, .word 0x0⟩]  -- R344

/-- Space 0x09. -/
def regRows09 : List RegRow :=
  [ ⟨"CLS_PROFSEL", 0x0, 8, 0x10, 12, 1, .rw, 0x1F, 0x1F, .word 0x0⟩,  -- R341
    ⟨"CLS_PROFCTL", 0xF, 8, 0x10, 1, 1, .rw, 0xE70F, 0xE70F, .word 0x0⟩,  -- R341
    ⟨"CLS_SEL0", 0x80, 16, 0x2, 1, 1, .rw, 0xFFFF, 0xFFFF, .word 0x0⟩,  -- R365
    ⟨"CLS_SEL1", 0x81, 16, 0x2, 1, 1, .rw, 0x7, 0x7, .word 0x0⟩,  -- R365
    ⟨"CLS_PCLO", 0xC0, 16, 0x4, 1, 1, .rw, 0xFFFF, 0xFFFF, .pcLo⟩,  -- R365
    ⟨"CLS_PCHI", 0xC1, 16, 0x4, 1, 1, .rw, 0xFFFF, 0xFFFF, .pcHi⟩,  -- R365
    ⟨"CLS_PCCFG", 0xC2, 16, 0x4, 1, 1, .rw, 0xE0FF, 0xE0FF, .pcCfg⟩,  -- R365
    ⟨"CLS_DEFVERB", 0x100, 2, 0x4, 1, 1, .rw, 0x3F, 0x3F, .word 0x4⟩,  -- R365, R350
    ⟨"CLS_DEFQ", 0x101, 2, 0x4, 2, 1, .rw, 0x83FF, 0x83FF, .word 0x0⟩,  -- R365, R350
    ⟨"CLS_DEFTAG", 0x103, 2, 0x4, 1, 1, .rw, 0xFFFF, 0xFFFF, .word 0x0⟩,  -- R365, R350
    ⟨"CLS_FIXQ", 0x110, 4, 0x1, 1, 1, .rw, 0xC3FF, 0xC3FF, .word 0x0⟩,  -- R365
    ⟨"CLS_ICPT", 0x114, 1, 0x1, 1, 1, .rw, 0x1F, 0x1F, .word 0x1F⟩,  -- R365
    ⟨"CLS_FRAGTO", 0x115, 1, 0x1, 1, 1, .rw, 0x3FF, 0x3FF, .word 0x64⟩,  -- R365
    ⟨"CLS_MALHOST", 0x116, 1, 0x1, 1, 1, .rw, 0xFFFF, 0xFFFF, .word 0x0⟩,  -- R365
    ⟨"CLS_SEED0", 0x118, 1, 0x1, 2, 2, .rw, 0xFFFF, 0xFFFF, .seed0⟩,  -- R365
    ⟨"CLS_SEED1", 0x11A, 1, 0x1, 2, 2, .rw, 0xFFFF, 0xFFFF, .seed1⟩,  -- R365
    ⟨"CLS_TBLCNT", 0x11C, 2, 0x1, 1, 1, .ro, 0x3FFF, 0x0, .word 0x0⟩,  -- R365
    ⟨"CLS_FENCE", 0x11E, 1, 0x1, 1, 1, .rw, 0x8001, 0x1, .word 0x0⟩,  -- R365
    ⟨"CLS_FLAG", 0x120, 3, 0x1, 1, 1, .cc, 0x800F, 0x800F, .word 0x0⟩,  -- R365
    ⟨"CLS_PAT", 0x200, 64, 0x20, 17, 1, .rw, 0xFFFF, 0xFFFF, .word 0x0⟩,  -- R358
    ⟨"CLS_FRAGENT", 0xA00, 128, 0x10, 1, 1, .ro, 0xE000, 0x0, .word 0x0⟩,  -- R365
    ⟨"CLS_FRAGID", 0xA01, 128, 0x10, 2, 2, .ro, 0xFFFF, 0x0, .word 0x0⟩,  -- R365
    ⟨"CLS_FRAGSEEN", 0xA03, 128, 0x10, 1, 1, .ro, 0xFFFF, 0x0, .word 0x0⟩,  -- R365
    ⟨"CLS_FRAGTOTAL", 0xA04, 128, 0x10, 1, 1, .ro, 0xFFFF, 0x0, .word 0x0⟩,  -- R365
    ⟨"CLS_FRAGACT", 0xA05, 128, 0x10, 4, 4, .ro, 0xFFFF, 0x0, .word 0x0⟩,  -- R365
    ⟨"CLS_FRAGMS", 0xA09, 128, 0x10, 1, 1, .ro, 0xFFFF, 0x0, .word 0x0⟩,  -- R365
    ⟨"CLS_PASS", 0x1200, 3, 0x3, 3, 3, .cnt, 0xFFFF, 0xFFFF, .word 0x0⟩,  -- R365
    ⟨"CLS_HIT0", 0x1209, 1, 0x1, 3, 3, .cnt, 0xFFFF, 0xFFFF, .word 0x0⟩,  -- R365
    ⟨"CLS_HIT1", 0x120C, 1, 0x1, 3, 3, .cnt, 0xFFFF, 0xFFFF, .word 0x0⟩,  -- R365
    ⟨"CLS_MISS", 0x120F, 1, 0x1, 3, 3, .cnt, 0xFFFF, 0xFFFF, .word 0x0⟩,  -- R365
    ⟨"CLS_FRAGFOLLOW", 0x1212, 1, 0x1, 3, 3, .cnt, 0xFFFF, 0xFFFF, .word 0x0⟩,  -- R365
    ⟨"CLS_CNT", 0x1220, 8, 0x2, 2, 2, .cnt, 0xFFFF, 0xFFFF, .word 0x0⟩,  -- R365
    ⟨"CLS_MALCNT", 0x1240, 16, 0x2, 2, 2, .cnt, 0xFFFF, 0xFFFF, .word 0x0⟩]  -- R365

/-- Space 0x0A. -/
def regRows0A : List RegRow :=
  [ ⟨"QUE_BIND", 0x0, 1024, 0x4, 1, 1, .rw, 0xF0FF, 0xF0FF, .qBind⟩,  -- R404
    ⟨"QUE_LIM", 0x1, 1024, 0x4, 1, 1, .rw, 0xFFFF, 0xFFFF, .word 0x40⟩,  -- R404
    ⟨"QUE_MAXF", 0x2, 1024, 0x4, 1, 1, .rw, 0x3FF, 0x3FF, .word 0x80⟩,  -- R404
    ⟨"QUE_FILL", 0x3, 1024, 0x4, 1, 1, .ro, 0x3FF, 0x0, .word 0x0⟩,  -- R404
    ⟨"QUE_ENQ", 0x1000, 1024, 0x8, 3, 3, .cnt, 0xFFFF, 0xFFFF, .word 0x0⟩,  -- R404
    ⟨"QUE_DROP", 0x1003, 1024, 0x8, 2, 2, .cnt, 0xFFFF, 0xFFFF, .word 0x0⟩,  -- R404
    ⟨"QUE_IND", 0x3000, 512, 0x1, 1, 1, .rw, 0x800F, 0x800F, .word 0x0⟩,  -- R404
    ⟨"QUE_GRP", 0x3200, 64, 0x2, 1, 1, .rw, 0x1FFF, 0x1FFF, .word 0x0⟩,  -- R404
    ⟨"QUE_HSEL", 0x3201, 64, 0x2, 1, 1, .rw, 0x7F, 0x7F, .word 0x0⟩,  -- R404
    ⟨"QUE_HSEED", 0x3280, 1, 0x1, 2, 2, .rw, 0xFFFF, 0xFFFF, .word 0xFFFF⟩,  -- R404
    ⟨"QUE_DEFTX", 0x3282, 2, 0x1, 1, 1, .rw, 0x3FF, 0x3FF, .index⟩,  -- R404
    ⟨"LANE_STAT", 0x3290, 4, 0x1, 1, 1, .ro, 0x801F, 0x0, .word 0x0⟩,  -- R404
    ⟨"LANE_FRAMES", 0x32A0, 4, 0x8, 3, 3, .cnt, 0xFFFF, 0xFFFF, .word 0x0⟩,  -- R404
    ⟨"LANE_AUTHFAIL", 0x32A3, 4, 0x8, 2, 2, .cnt, 0xFFFF, 0xFFFF, .word 0x0⟩,  -- R404
    ⟨"LANE_REORDTO", 0x32A5, 4, 0x8, 2, 2, .cnt, 0xFFFF, 0xFFFF, .word 0x0⟩,  -- R404
    ⟨"QUE_FLAG", 0x32E0, 2, 0x1, 1, 1, .cc, 0x800F, 0x800F, .word 0x0⟩,  -- R404
    ⟨"RX_FILL", 0x4000, 16, 0x800, 1, 1, .ro, 0x3FF, 0x0, .word 0x0⟩,  -- R404
    ⟨"RX_LEN", 0x4001, 16, 0x800, 1, 1, .ro, 0x7FF, 0x0, .word 0x0⟩,  -- R404
    ⟨"RX_KIND", 0x4002, 16, 0x800, 1, 1, .ro, 0xF3FF, 0x0, .word 0x0⟩,  -- R404
    ⟨"RX_INPORT", 0x4003, 16, 0x800, 1, 1, .ro, 0x1, 0x0, .word 0x0⟩,  -- R404
    ⟨"RX_STAMP", 0x4004, 16, 0x800, 2, 2, .ro, 0xFFFF, 0x0, .word 0x0⟩,  -- R404
    ⟨"RXREL", 0x4006, 16, 0x800, 1, 1, .wo, 0x0, 0xFFFF, .word 0x0⟩,  -- R404
    ⟨"RX_DATA", 0x4010, 16, 0x800, 1000, 1, .ro, 0xFFFF, 0x0, .word 0x0⟩,  -- R404
    ⟨"TX_STAT", 0xC000, 16, 0x400, 1, 1, .ro, 0x8000, 0x0, .word 0x0⟩,  -- R404
    ⟨"TXDEST", 0xC001, 16, 0x400, 1, 1, .rw, 0x3FF, 0x3FF, .word 0x0⟩,  -- R404
    ⟨"TXSEND", 0xC002, 16, 0x400, 1, 1, .wo, 0x0, 0x7FF, .word 0x0⟩,  -- R404
    ⟨"TXDATA", 0xC010, 16, 0x400, 998, 1, .rw, 0xFFFF, 0xFFFF, .word 0x0⟩]  -- R404

/-- Space 0x0B. -/
def regRows0B : List RegRow :=
  [ ⟨"STR_CTL", 0x0, 256, 0x100, 1, 1, .rw, 0xFFE7, 0xFFE7, .word 0x0⟩,  -- R405
    ⟨"STR_SLOT", 0x1, 256, 0x100, 1, 1, .rw, 0x1FF, 0x1FF, .word 0x0⟩,  -- R405
    ⟨"STR_SPP", 0x2, 256, 0x100, 1, 1, .rw, 0xFF, 0xFF, .word 0x30⟩,  -- R405
    ⟨"STR_PT", 0x3, 256, 0x100, 1, 1, .rw, 0x7F, 0x7F, .word 0x60⟩,  -- R405
    ⟨"STR_SSRC", 0x4, 256, 0x100, 2, 2, .rw, 0xFFFF, 0xFFFF, .word 0x0⟩,  -- R405
    ⟨"STR_BUFBASE", 0x6, 256, 0x100, 1, 1, .rw, 0x1FF, 0x1FF, .word 0x0⟩,  -- R405
    ⟨"STR_BUFLEN", 0x7, 256, 0x100, 1, 1, .rw, 0x7, 0x7, .word 0x2⟩,  -- R405
    ⟨"STR_DEPTH", 0x8, 256, 0x100, 1, 1, .rw, 0x1FFF, 0x1FFF, .word 0x60⟩,  -- R405
    ⟨"STR_TSOFS", 0x9, 256, 0x100, 2, 2, .rw, 0xFFFF, 0xFFFF, .word 0x0⟩,  -- R405
    ⟨"STR_WIN", 0xB, 256, 0x100, 1, 1, .rw, 0x1F, 0x1F, .word 0xC⟩,  -- R405
    ⟨"STR_FADE", 0xC, 256, 0x100, 1, 1, .rw, 0xFF, 0xFF, .word 0xA⟩,  -- R405
    ⟨"STR_QUEUE", 0xD, 256, 0x100, 1, 1, .rw, 0x3FF, 0x3FF, .word 0x0⟩,  -- R405
    ⟨"STR_UCSUM", 0xE, 256, 0x100, 1, 1, .rw, 0x1, 0x1, .word 0x1⟩,  -- R405
    ⟨"STR_TPLLEN", 0xF, 256, 0x100, 1, 1, .rw, 0x7F, 0x7F, .word 0x2A⟩,  -- R405
    ⟨"STR_TPL", 0x10, 256, 0x100, 48, 1, .rw, 0xFFFF, 0xFFFF, .word 0x0⟩,  -- R405
    ⟨"STR_KEYS", 0x40, 256, 0x100, 25, 1, .wo, 0x0, 0xFFFF, .word 0x0⟩,  -- R405
    ⟨"STR_INDEX", 0x60, 256, 0x100, 3, 3, .rw, 0xFFFF, 0xFFFF, .word 0x0⟩,  -- R405
    ⟨"STR_STATUS", 0x70, 256, 0x100, 1, 1, .ro, 0xF000, 0x0, .word 0x0⟩,  -- R405
    ⟨"STR_CNT", 0x80, 256, 0x100, 26, 2, .cnt, 0xFFFF, 0xFFFF, .word 0x0⟩,  -- R405
    ⟨"STR_PKTS", 0x9C, 256, 0x100, 3, 3, .cnt, 0xFFFF, 0xFFFF, .word 0x0⟩,  -- R405
    ⟨"ENG_PARK", 0x10000, 16, 0x10, 1, 1, .ro, 0x7F, 0x0, .word 0x0⟩,  -- R405
    ⟨"ENG_TAGS", 0x10001, 16, 0x10, 1, 1, .ro, 0xFF, 0x0, .word 0x0⟩,  -- R405
    ⟨"ENG_UNPUB", 0x10002, 16, 0x10, 2, 2, .cnt, 0xFFFF, 0xFFFF, .word 0x0⟩,  -- R405
    ⟨"ENG_VOIDOUT", 0x10004, 16, 0x10, 2, 2, .cnt, 0xFFFF, 0xFFFF, .word 0x0⟩,  -- R405
    ⟨"ENG_PARKWAIT", 0x10006, 16, 0x10, 2, 2, .cnt, 0xFFFF, 0xFFFF, .word 0x0⟩]  -- R405

/-- Space 0x25. -/
def regRows25 : List RegRow :=
  [ ⟨"AES_ISLOTA", 0x0, 2, 0x100, 1, 1, .rw, 0x1FF, 0x1FF, .word 0x0⟩,  -- R429
    ⟨"AES_ISLOTB", 0x1, 2, 0x100, 1, 1, .rw, 0x1FF, 0x1FF, .word 0x0⟩,  -- R429
    ⟨"AES_RATE", 0x2, 2, 0x100, 2, 2, .ro, 0xFFFF, 0x0, .word 0x0⟩,  -- R429
    ⟨"AES_SEQ", 0x4, 2, 0x100, 4, 1, .ro, 0xFFFF, 0x0, .word 0x0⟩,  -- R429
    ⟨"AES_IFRAMES", 0x8, 2, 0x100, 3, 3, .cnt, 0xFFFF, 0xFFFF, .word 0x0⟩,  -- R429
    ⟨"AES_ICNT", 0x10, 2, 0x100, 14, 2, .cnt, 0xFFFF, 0xFFFF, .word 0x0⟩,  -- R429
    ⟨"AES_ICSA", 0x40, 2, 0x100, 12, 1, .ro, 0xFFFF, 0x0, .word 0x0⟩,  -- R429
    ⟨"AES_ICSB", 0x50, 2, 0x100, 12, 1, .ro, 0xFFFF, 0x0, .word 0x0⟩,  -- R429
    ⟨"AES_IUSERA", 0x60, 2, 0x100, 12, 1, .ro, 0xFFFF, 0x0, .word 0x0⟩,  -- R429
    ⟨"AES_IUSERB", 0x70, 2, 0x100, 12, 1, .ro, 0xFFFF, 0x0, .word 0x0⟩,  -- R429
    ⟨"AES_OSLOTA", 0x200, 2, 0x100, 1, 1, .rw, 0x1FF, 0x1FF, .word 0x0⟩,  -- R429
    ⟨"AES_OSLOTB", 0x201, 2, 0x100, 1, 1, .rw, 0x1FF, 0x1FF, .word 0x0⟩,  -- R429
    ⟨"AES_OFRAMES", 0x208, 2, 0x100, 3, 3, .cnt, 0xFFFF, 0xFFFF, .word 0x0⟩,  -- R429
    ⟨"AES_OCSA", 0x240, 2, 0x100, 12, 1, .rw, 0xFFFF, 0xFFFF, .csTx⟩,  -- R429
    ⟨"AES_OCSB", 0x250, 2, 0x100, 12, 1, .rw, 0xFFFF, 0xFFFF, .csTx⟩,  -- R429
    ⟨"AES_OUSERA", 0x260, 2, 0x100, 12, 1, .rw, 0xFFFF, 0xFFFF, .word 0x0⟩,  -- R429
    ⟨"AES_OUSERB", 0x270, 2, 0x100, 12, 1, .rw, 0xFFFF, 0xFFFF, .word 0x0⟩,  -- R429
    ⟨"AES_FLAG", 0x400, 9, 0x1, 1, 1, .cc, 0x800F, 0x800F, .word 0x0⟩]  -- R429

/-- Space 0x20. -/
def regRows20 : List RegRow :=
  [ ⟨"SLOT_W0", 0x0, 512, 0x2, 1, 1, .rw, 0xB00F, 0xB00F, .word 0x0⟩,  -- R482
    ⟨"SLOT_UNIT", 0x1, 512, 0x2, 1, 1, .rw, 0xFFFF, 0xFFFF, .word 0x0⟩,  -- R482
    ⟨"SLOT_ENV", 0x400, 512, 0x1, 1, 1, .ro, 0xFF, 0x0, .word 0xFF⟩,  -- R482
    ⟨"XP_W0", 0x1000, 4096, 0x8, 1, 1, .rw, 0xFFFF, 0xFFFF, .word 0x0⟩,  -- R482
    ⟨"XP_SNK", 0x1001, 4096, 0x8, 1, 1, .rw, 0x1FF, 0x1FF, .word 0x0⟩,  -- R482
    ⟨"XP_GAIN", 0x1002, 4096, 0x8, 1, 1, .rw, 0xFFFF, 0xFFFF, .word 0x8000⟩,  -- R482
    ⟨"XP_RAMP", 0x1003, 4096, 0x8, 1, 1, .rw, 0x3FF, 0x3FF, .word 0xA⟩,  -- R482
    ⟨"XP_APPLIED", 0x1004, 4096, 0x8, 1, 1, .ro, 0xFFFF, 0x0, .word 0x8000⟩,  -- R482
    ⟨"XP_STAT", 0x1005, 4096, 0x8, 1, 1, .ro, 0xF81F, 0x0, .word 0x0⟩,  -- R482
    ⟨"XP_HELDSRC", 0x1006, 4096, 0x8, 1, 1, .ro, 0x1FF, 0x0, .word 0x0⟩,  -- R482
    ⟨"SNK_DUCK", 0x9000, 512, 0x10, 1, 1, .rw, 0xFFFF, 0xFFFF, .word 0x1432⟩,  -- R482
    ⟨"SNK_ATTACK", 0x9001, 512, 0x10, 1, 1, .rw, 0xFF, 0xFF, .word 0x32⟩,  -- R482
    ⟨"SNK_RELEASE", 0x9002, 512, 0x10, 1, 1, .rw, 0xFF, 0xFF, .word 0x32⟩,  -- R482
    ⟨"SNK_HOLD", 0x9003, 512, 0x10, 1, 1, .rw, 0xFF, 0xFF, .word 0x64⟩,  -- R482
    ⟨"SNK_XF", 0x9004, 512, 0x10, 1, 1, .rw, 0xFF, 0xFF, .word 0xA⟩,  -- R482
    ⟨"SNK_NAG", 0x9005, 512, 0x10, 1, 1, .rw, 0x81FF, 0x81FF, .word 0x0⟩,  -- R482
    ⟨"SNK_NAGAPP", 0x9006, 512, 0x10, 1, 1, .ro, 0x1FF, 0x0, .word 0x0⟩,  -- R482
    ⟨"SNK_NAGRATE", 0x9007, 512, 0x10, 1, 1, .rw, 0xFF, 0xFF, .word 0xA⟩,  -- R482
    ⟨"SNK_STAT", 0x9008, 512, 0x10, 1, 1, .ro, 0x1F, 0x0, .word 0x0⟩,  -- R482
    ⟨"SNK_XPCOUNT", 0x9009, 512, 0x10, 1, 1, .ro, 0x1FFF, 0x0, .word 0x0⟩,  -- R482
    ⟨"SNK_PEAK", 0x900A, 512, 0x10, 1, 1, .ro, 0xFF, 0x0, .word 0xFF⟩,  -- R482
    ⟨"SNK_SATCNT", 0x900C, 512, 0x10, 2, 2, .cnt, 0xFFFF, 0xFFFF, .word 0x0⟩,  -- R482
    ⟨"RTM_FLAG", 0xB000, 3, 0x1, 1, 1, .cc, 0x800F, 0x800F, .word 0x0⟩,  -- R482
    ⟨"RTM_ALLOC", 0xB010, 4, 0x1, 1, 1, .ro, 0x1FF, 0x0, .word 0x0⟩]  -- R482

/-- Space 0x21. -/
def regRows21 : List RegRow :=
  [ ⟨"ZONE_W0", 0x0, 8, 0x10, 1, 1, .rw, 0x80FF, 0x80FF, .word 0x0⟩,  -- R505
    ⟨"ZONE_MIC", 0x1, 8, 0x10, 1, 1, .rw, 0xFF, 0xFF, .word 0x0⟩,  -- R505
    ⟨"ZONE_THRESH", 0x2, 8, 0x10, 1, 1, .rw, 0xFFFF, 0xFFFF, .word 0xFD44⟩,  -- R505
    ⟨"ZONE_SLOPE", 0x3, 8, 0x10, 1, 1, .rw, 0xFF, 0xFF, .word 0x50⟩,  -- R505
    ⟨"ZONE_MAXG", 0x4, 8, 0x10, 1, 1, .rw, 0xFF, 0xFF, .word 0x78⟩,  -- R505
    ⟨"ZONE_NZONE", 0x5, 8, 0x10, 1, 1, .ro, 0xFFFF, 0x0, .word 0x8000⟩,  -- R505
    ⟨"ZONE_NAGTGT", 0x6, 8, 0x10, 1, 1, .ro, 0xFF, 0x0, .word 0x0⟩,  -- R505
    ⟨"ZONE_SEQ", 0x7, 8, 0x10, 1, 1, .ro, 0xFFFF, 0x0, .word 0x0⟩,  -- R505
    ⟨"ZONE_STAMP", 0x8, 8, 0x10, 2, 2, .ro, 0xFFFF, 0x0, .word 0x0⟩,  -- R505
    ⟨"LINE_ZMAG", 0x100, 8, 0x20, 8, 1, .ro, 0xFFFF, 0x0, .word 0xFFFF⟩,  -- R505
    ⟨"LINE_FRESH", 0x108, 8, 0x20, 1, 1, .ro, 0xFF, 0x0, .word 0x0⟩,  -- R505
    ⟨"LINE_ZREF", 0x109, 8, 0x20, 1, 1, .rw, 0xFFFF, 0xFFFF, .word 0x0⟩,  -- R505
    ⟨"LINE_TOL", 0x10A, 8, 0x20, 1, 1, .rw, 0x7F, 0x7F, .word 0x14⟩,  -- R505
    ⟨"LINE_SEQ", 0x10B, 8, 0x20, 1, 1, .ro, 0xFFFF, 0x0, .word 0x0⟩,  -- R505
    ⟨"LINE_STAMP", 0x10C, 8, 0x20, 2, 2, .ro, 0xFFFF, 0x0, .word 0x0⟩,  -- R505
    ⟨"LINE_REASON", 0x10E, 8, 0x20, 1, 1, .ro, 0xF, 0x0, .word 0x0⟩,  -- R505
    ⟨"PATH_DELAY", 0x200, 64, 0x10, 1, 1, .ro, 0xFFFF, 0x0, .word 0xFFFF⟩,  -- R505
    ⟨"PATH_GAIN", 0x201, 64, 0x10, 1, 1, .ro, 0xFFFF, 0x0, .word 0x8000⟩,  -- R505
    ⟨"PATH_COH", 0x202, 64, 0x10, 1, 1, .ro, 0x3FF, 0x0, .word 0x0⟩,  -- R505
    ⟨"PATH_SEQ", 0x203, 64, 0x10, 1, 1, .ro, 0xFFFF, 0x0, .word 0x0⟩,  -- R505
    ⟨"PATH_STAMP", 0x204, 64, 0x10, 2, 2, .ro, 0xFFFF, 0x0, .word 0x0⟩,  -- R505
    ⟨"PATH_REASON", 0x206, 64, 0x10, 1, 1, .ro, 0xF, 0x0, .word 0x0⟩,  -- R505
    ⟨"NOISE_NMIC", 0x600, 8, 0x10, 1, 1, .ro, 0xFFFF, 0x0, .word 0x8000⟩,  -- R505
    ⟨"NOISE_SEQ", 0x601, 8, 0x10, 1, 1, .ro, 0xFFFF, 0x0, .word 0x0⟩,  -- R505
    ⟨"NOISE_STAMP", 0x602, 8, 0x10, 2, 2, .ro, 0xFFFF, 0x0, .word 0x0⟩,  -- R505
    ⟨"NOISE_REASON", 0x604, 8, 0x10, 1, 1, .ro, 0xF, 0x0, .word 0x0⟩,  -- R505
    ⟨"TRIM_ST", 0x605, 8, 0x10, 1, 1, .ro, 0x3, 0x0, .word 0x0⟩,  -- R505
    ⟨"TRIM_CNT", 0x606, 8, 0x10, 2, 2, .cnt, 0xFFFF, 0xFFFF, .word 0x0⟩,  -- R505
    ⟨"TRIM_INT", 0x608, 8, 0x10, 1, 1, .rw, 0xFFF, 0xFFF, .word 0x3C⟩,  -- R505
    ⟨"CAL_COHMIN", 0x700, 1, 0x1, 1, 1, .rw, 0x3FF, 0x3FF, .word 0x1F4⟩,  -- R505
    ⟨"CAL_FAILCNT", 0x782, 13, 0x2, 2, 2, .cnt, 0xFFFF, 0xFFFF, .word 0x0⟩,  -- R505
    ⟨"CAL_FLAG", 0x800, 5, 0x1, 1, 1, .cc, 0x800F, 0x800F, .word 0x0⟩]  -- R505

/-- Space 0x22. -/
def regRows22 : List RegRow :=
  [ ⟨"CUE_W0", 0x80000, 64, 0x4, 1, 1, .rw, 0x83FF, 0x83FF, .word 0x0⟩,  -- R526
    ⟨"CUE_TICK", 0x80001, 64, 0x4, 2, 2, .rw, 0xFFFF, 0xFFFF, .word 0x0⟩,  -- R526
    ⟨"CUE_ST", 0x80003, 64, 0x4, 1, 1, .ro, 0x3, 0x0, .word 0x0⟩,  -- R526
    ⟨"CAP_GEOM", 0x80200, 2, 0x10, 1, 1, .rw, 0x1F03, 0x1F03, .word 0x1F01⟩,  -- R526
    ⟨"CAP_SHOWN", 0x80201, 2, 0x10, 1, 1, .ro, 0xFF, 0x0, .word 0x0⟩,  -- R526
    ⟨"CAP_FRAMES", 0x80202, 2, 0x10, 3, 3, .ro, 0xFFFF, 0x0, .word 0x0⟩,  -- R526
    ⟨"CAP_LATEMAX", 0x80300, 1, 0x1, 1, 1, .rw, 0xFFFF, 0xFFFF, .word 0x12C0⟩,  -- R526
    ⟨"CAP_CNT", 0x80302, 6, 0x2, 2, 2, .cnt, 0xFFFF, 0xFFFF, .word 0x0⟩,  -- R526
    ⟨"CAP_FLAG", 0x80310, 3, 0x1, 1, 1, .cc, 0x800F, 0x800F, .word 0x0⟩,  -- R526
    ⟨"CAP_PIXELS", 0x0, 1, 0x1, 524288, 1, .rw, 0xFFFF, 0xFFFF, .word 0x0⟩,  -- R526
    ⟨"CAP_GLYPH", 0x81000, 95, 0x4, 4, 4, .ro, 0xFFFF, 0x0, .glyph⟩]  -- R526

/-- Space 0x30. -/
def regRows30 : List RegRow :=
  [ ⟨"CAR_BUF", 0x0, 2048, 0x1, 1, 1, .rw, 0xFFFF, 0xFFFF, .word 0x0⟩,  -- R557
    ⟨"CAR_CMD", 0x1000, 1, 0x1, 1, 1, .wo, 0x0, 0xF00F, .word 0x0⟩,  -- R557
    ⟨"CAR_PART", 0x1001, 1, 0x1, 1, 1, .rw, 0x7, 0x7, .word 0x0⟩,  -- R557
    ⟨"CAR_ID", 0x1002, 1, 0x1, 1, 1, .rw, 0xFFF, 0xFFF, .word 0x0⟩,  -- R557
    ⟨"CAR_ARG", 0x1003, 1, 0x1, 2, 2, .rw, 0xFFFF, 0xFFFF, .word 0x0⟩,  -- R557
    ⟨"CAR_ENG", 0x1005, 1, 0x1, 1, 1, .rw, 0xF, 0xF, .word 0x0⟩,  -- R557
    ⟨"CAR_LEN", 0x1006, 1, 0x1, 2, 2, .ro, 0xFFFF, 0x0, .word 0x0⟩,  -- R557
    ⟨"CAR_CRC", 0x1008, 1, 0x1, 2, 2, .ro, 0xFFFF, 0x0, .word 0x0⟩,  -- R557
    ⟨"CAR_INFO", 0x100A, 1, 0x1, 1, 1, .ro, 0x8007, 0x0, .word 0x0⟩,  -- R557
    ⟨"CAR_PAGES", 0x100B, 1, 0x1, 1, 1, .ro, 0xFFF, 0x0, .word 0x0⟩,  -- R557
    ⟨"CAR_PARTST", 0x1100, 5, 0x8, 5, 1, .ro, 0xFFFF, 0x0, .word 0x0⟩,  -- R557
    ⟨"CAR_CNT", 0x1200, 4, 0x2, 2, 2, .cnt, 0xFFFF, 0xFFFF, .word 0x0⟩,  -- R557
    ⟨"LOG_PSEQ", 0x1300, 1, 0x1, 3, 3, .ro, 0xFFFF, 0x0, .word 0x0⟩,  -- R557
    ⟨"LOG_RETAIN", 0x1303, 1, 0x1, 2, 2, .ro, 0xFFFF, 0x0, .word 0x0⟩,  -- R557
    ⟨"LOG_CNT", 0x1305, 2, 0x2, 2, 2, .cnt, 0xFFFF, 0xFFFF, .word 0x0⟩,  -- R557
    ⟨"BGS_FLAGA", 0x1310, 3, 0x1, 1, 1, .cc, 0x800F, 0x800F, .word 0x0⟩]  -- R557

/-- Space 0x31. -/
def regRows31 : List RegRow :=
  [ ⟨"TEL_CNT", 0x400000, 1, 0x1, 3, 3, .ro, 0xFFFF, 0x0, .word 0x0⟩,  -- R558
    ⟨"TEL_ITEM", 0x400010, 64, 0x2, 1, 1, .rw, 0x7FFF, 0x7FFF, .telItem⟩,  -- R558
    ⟨"TEL_INTERVAL", 0x400011, 64, 0x2, 1, 1, .rw, 0xFFFF, 0xFFFF, .telInt⟩,  -- R558
    ⟨"TEL_EXPQ", 0x400100, 1, 0x1, 1, 1, .rw, 0x3FF, 0x3FF, .word 0x0⟩,  -- R558
    ⟨"TEL_BATCH", 0x400101, 1, 0x1, 1, 1, .rw, 0xFF, 0xFF, .word 0x20⟩,  -- R558
    ⟨"TEL_MAXAGE", 0x400102, 1, 0x1, 1, 1, .rw, 0xFFFF, 0xFFFF, .word 0x3E8⟩,  -- R558
    ⟨"TEL_TPLLEN", 0x400103, 1, 0x1, 1, 1, .rw, 0x7F, 0x7F, .word 0x2A⟩,  -- R558
    ⟨"TEL_TPL", 0x400110, 48, 0x1, 1, 1, .rw, 0xFFFF, 0xFFFF, .word 0x0⟩,  -- R558
    ⟨"TEL_EXPLOST", 0x400140, 1, 0x1, 2, 2, .cnt, 0xFFFF, 0xFFFF, .word 0x0⟩,  -- R558
    ⟨"TEL_FLAG", 0x400142, 1, 0x1, 1, 1, .cc, 0x800F, 0x800F, .word 0x0⟩,  -- R558
    ⟨"TEL_RING", 0x0, 1, 0x1, 4194304, 1, .ro, 0xFFFF, 0x0, .word 0x0⟩]  -- R558

/-- Space 0x01. -/
def regRows01 : List RegRow :=
  [ ⟨"OTP_ARRAY", 0x0, 64, 0x40, 34, 1, .ro, 0xFFFF, 0x0, .word 0x0⟩,  -- R583
    ⟨"OTP_MARGIN", 0x1000, 1, 0x1, 1, 1, .rw, 0x3, 0x3, .word 0x1⟩,  -- R583
    ⟨"OTP_HOLD", 0x1001, 1, 0x1, 1, 1, .ro, 0xFFFF, 0x0, .word 0x0⟩,  -- R583
    ⟨"OTP_SLOTST", 0x1100, 16, 0x2, 1, 1, .ro, 0xE003, 0x0, .word 0x0⟩,  -- R583
    ⟨"OTP_GENST", 0x1101, 16, 0x2, 1, 1, .ro, 0xFFF, 0x0, .word 0x0⟩,  -- R583
    ⟨"OTP_BUF", 0x1200, 32, 0x1, 1, 1, .rw, 0xFFFF, 0xFFFF, .word 0x0⟩,  -- R583
    ⟨"OTP_ROASTCNT", 0x1300, 1, 0x1, 2, 2, .ro, 0xFFFF, 0x0, .word 0x0⟩,  -- R583
    ⟨"OTP_FLAG", 0x1310, 3, 0x1, 1, 1, .cc, 0x800F, 0x800F, .word 0x0⟩]  -- R583

/-- The rows of a space; space 0 stands for the direct registers (R115, R124). -/
def regRows (sp : Nat) : List RegRow :=
  if sp = 0 then regRowsDirect
  else if sp = 0x02 then regRows02
  else if sp = 0x0C then regRows0C
  else if sp = 0x24 then regRows24
  else if sp = 0x3F then regRows3F
  else if sp = 0x08 then regRows08
  else if sp = 0x09 then regRows09
  else if sp = 0x0A then regRows0A
  else if sp = 0x0B then regRows0B
  else if sp = 0x25 then regRows25
  else if sp = 0x20 then regRows20
  else if sp = 0x21 then regRows21
  else if sp = 0x22 then regRows22
  else if sp = 0x30 then regRows30
  else if sp = 0x31 then regRows31
  else if sp = 0x01 then regRows01
  else if 0x10 ≤ sp ∧ sp < 0x20 then regRowsEngine
  else []

/-- Does the row hold the offset. -/
def RegRow.holds (r : RegRow) (off : Nat) : Bool :=
  r.base ≤ off && decide ((off - r.base) / r.stride < r.count) && decide ((off - r.base) % r.stride < r.words)
    || (r.count == 1 && r.base ≤ off && decide (off < r.base + r.words))

/-- The instance that the offset belongs to. -/
def RegRow.inst (r : RegRow) (off : Nat) : Nat := if r.count = 1 then 0 else (off - r.base) / r.stride

/-- The word of its instance that the offset is. -/
def RegRow.word (r : RegRow) (off : Nat) : Nat := if r.count = 1 then off - r.base else (off - r.base) % r.stride

/-- The space of a key. -/
def keySpace (k : Nat) : Nat := k / 2 ^ 32

/-- The offset of a key. -/
def keyOff (k : Nat) : Nat := k % 2 ^ 32

/-- The first row that holds an offset. -/
def findRow : List RegRow → Nat → Option RegRow
  | [], _ => none
  | r :: rs, off => if r.holds off then some r else findRow rs off

/-- The row of a key. -/
def rowOf (k : Nat) : Option RegRow := findRow (regRows (keySpace k)) (keyOff k)

/-- Reset urgency of a source (R141). -/
def urgReset (s : Nat) : Nat :=
  if 224 ≤ s ∧ s ≤ 239 then 3
  else if s ≤ 15 ∨ (96 ≤ s ∧ s ≤ 111) ∨ (120 ≤ s ∧ s ≤ 159) ∨ (216 ≤ s ∧ s ≤ 223) ∨ 240 ≤ s then 2
  else 1

/-- Reset of word `w` of instance `i`. -/
def RegReset.value (r : RegReset) (i w : Nat) : Nat :=
  match r with
  | .word v => v
  | .index => i
  | .urg => urgReset i
  | .clkoN => if i = 4 ∨ i = 5 then 32 else if i = 6 then 8 else 16
  | .clkoCfg => if i < 4 then 0x8000 else 0
  | .seMap => 0x8000 + i
  | .peMap => 0x2000 + i
  | .ptp => [0, 1, 0, 0, 3, 128, 128, 37].getD i 0
  | .pcLo => [17224, 5060, 5060].getD i 0
  | .pcHi => [17225, 5061, 5061].getD i 0
  | .pcCfg => [0x8002, 0x8003, 0xC003].getD i 0
  | .glyph => (Config.glyph (0x20 + i) w).toNat
  | .seed0 => 0xFFFF
  | .seed1 => 0x5A5A
  | .qBind => if i = 0 then 0x1000 else if i = 1 then 0x1001 else if 1020 ≤ i then 0x4000 else 0
  | .csTx => if w = 0 then 1 else 0
  | .telItem => if i = 0 then 0x100 else 0
  | .telInt => if i = 0 then 1 else 0

/-- What a register word reads as when nothing has changed it since reset (R16); a word that no table gives reads
zero (R17, R114). A field whose Reset column reads "OTP" is 0 until the load. -/
def resetWord (k : Nat) : Word :=
  match rowOf k with
  | none => 0
  | some r => BitVec.ofNat 16 (r.reset.value (r.inst (keyOff k)) (r.word (keyOff k)))

/-- Key of a direct register. -/
def dir (a : Nat) : Nat := a

/-- Key of a word of an indirect space. -/
def spc (sp off : Nat) : Nat := sp * 2 ^ 32 + off

/-- Key of a word of logical engine `n`'s space (R115). -/
def eng (n off : Nat) : Nat := spc (0x10 + n) off

end Sys2Proof.Machine
end

