-- ==== Sys2Proof/Machine/State.lean ====
section
/-! DEFINITION. State.lean: everything the spec gives the machine, as plain data; the queue of waiting commands; the
reasons a step can stop; the state after reset. -/

namespace Sys2Proof.Machine

/-! ### Fixed numbers of like things -/

/-- Two things of one kind, by number from 0. -/
structure Two (α : Type) where
  e0 : α
  e1 : α
deriving DecidableEq, Repr

/-- Four things of one kind, by number from 0. -/
structure Four (α : Type) where
  e0 : α
  e1 : α
  e2 : α
  e3 : α
deriving DecidableEq, Repr

/-- Eight things of one kind, by number from 0. -/
structure Eight (α : Type) where
  e0 : α
  e1 : α
  e2 : α
  e3 : α
  e4 : α
  e5 : α
  e6 : α
  e7 : α
deriving DecidableEq, Repr

/-! ### Events (R127 to R148) -/

/-- An event record (R129). -/
structure EvRecord where
  src : BitVec 8
  urg : BitVec 2
  lostF : Bool
  lostN : BitVec 4
  seq : Word
  stamp : BitVec 32
  code : Word
  data0 : Word
  data1 : Word
  data2 : Word
deriving DecidableEq, Repr

/-- A record that waits in the queue, with the reference time in ms at which it entered (R146). -/
structure Waiting where
  record : EvRecord
  entered : Nat
deriving DecidableEq, Repr

/-- An open overflow episode (R143, R144). -/
structure Episode where
  dropped : Nat
  sources : List Nat
  start : Nat
deriving DecidableEq, Repr

/-- The event queue: one ring of 1,024 records, oldest first (R138, R139). EVQ_FILL is the number of entries. -/
structure EvQueue where
  entries : List Waiting := []
  head : Word := 0
  tail : Word := 0
  hwm : Nat := 0
  episode : Option Episode := none
deriving DecidableEq, Repr

/-- An open rate-limit window: a source, its code and the thing the limit is kept for; the domain whose ticks it counts,
none where it is stated in time; and the two counts, of ticks and of ms of reference time (R142). -/
structure RateWindow where
  src : Nat
  code : Nat
  sub : Nat
  dom : Option Nat := none
  ticks : Nat := 0
  ms : Nat := 0
deriving DecidableEq, Repr

/-- What the sources hold: next sequence numbers, pending-loss counts, the issued records that have not entered the
queue yet, in order of issue, and the open rate-limit windows. -/
structure EvSources where
  seq : Tbl Word := []
  pendLoss : Tbl Nat := []
  inflight : List EvRecord := []
  windows : List RateWindow := []
deriving DecidableEq, Repr

/-! ### Sample engines (R149 to R181, R195 to R200, R210 to R214, R235 to R280, R395 to R397) -/

/-- A value as a register or window word holds it: up to 40 bits, void, or Crema while a tag of its mask is pending
(R210, R395). -/
structure RVal where
  v : BitVec 40 := 0
  void : Bool := false
  tags : BitVec 4 := 0
deriving DecidableEq, Repr

/-- A result that has not landed: the register, its value and the bundle at which it lands; `mac` for a chained
accumulation (R196), `orIn` for sticky bits that are ORed into SR (R215). -/
structure Flight where
  ref : Nat
  val : RVal
  due : Nat
  /-- The slot that issued it, in order of issue. -/
  born : Nat := 0
  mac : Bool := false
  orIn : Bool := false
deriving DecidableEq, Repr

/-- A register bank (R151): the registers by their number (Machine/Operands.lean), the results in flight, the bundle
count, the repeat depth, the slots of the bundle being issued, the bundle that waits and why (SE_WAITSTAT codes), the
event latches (R253), pending sticky bits (R214), and in compact mode a branch that waits for its delay slot and a
prefix that waits for its operation. -/
structure Bank where
  regs : Tbl RVal := []
  flights : List Flight := []
  pos : Nat := 0
  depth : Nat := 0
  bundle : List Instr := []
  held : List Instr := []
  wait : Nat := 0
  /-- The answer of the XL module to the opcode that the held bundle waits for (R204). -/
  answer : Option RVal := none
  latch : Word := 0
  pendSt : List (Nat × BitVec 4) := []
  /-- Target of a branch whose delay slot comes next, 0x8000 where it is not taken (R203). -/
  branch : Option Nat := none
  /-- Repetitions that the bundle or compact operation at PC still has to run, and whether under REPN (R247). -/
  rep : Option (Nat × Bool) := none
  /-- A REPN is between its first and its last repetition: writes from outside wait (R248). -/
  hold : Bool := false
deriving DecidableEq, Repr

/-- A far operation as issued (R241): direction, far word address, X address, words, the data of a store, and whether
background code issued it. -/
structure FarOp where
  store : Bool
  far : Nat
  x : Nat
  n : Nat
  data : List Word := []
  bg : Bool := false
  /-- How many of its words, from the first on, lie within the program's allowance (R288). -/
  quota : Nat := 0
  /-- Fetch words that must land before the next tick (R292): cleared when the deadline has passed. -/
  live : Bool := true
deriving DecidableEq, Repr

/-- A request of at most 16 words in one aligned block (R286), with the translation it holds (R285). -/
structure FarReq where
  store : Bool
  far : Nat
  x : Nat
  n : Nat
  data : List Word := []
  bg : Bool := false
  live : Bool := true
  tr : Option (Nat × Bool) := none
deriving DecidableEq, Repr

/-- What a park-buffer entry does when it is released (R397): a store, a register write, a far operation or an
extension opcode with its arguments and destination. -/
inductive ParkKind where
  | store (mem addr : Nat)
  | reg (ref : Nat)
  | far (op : FarOp)
  | ext (num : Nat) (args : List Nat) (dst : Nat)
deriving DecidableEq, Repr

/-- An entry of the park buffer, oldest first; `dead` marks a register write that a later write supersedes (R212). -/
structure ParkEntry where
  kind : ParkKind
  bg : Bool
  val : RVal
  /-- The slot that parked it, in order of issue. -/
  born : Nat := 0
  dead : Bool := false
deriving DecidableEq, Repr

/-- A write of X (`mem` 0) or Y (`mem` 1) memory from outside the engine's code that a REPN holds (R248): the word, and
what becomes of its void mark: 0 cleared, 1 set, 2 kept (R291). -/
structure HeldWrite where
  mem : Nat
  addr : Nat
  val : Word
  mark : Nat
deriving DecidableEq, Repr

/-- A stack fault of an operation whose predicate is Crema: the bank, its cause, PC and SP, the state that decides it, and
whether its program has ended since (R137, R251). -/
structure FaultWait where
  bg : Bool
  cause : Nat
  pc : Nat
  sp : Nat
  val : RVal
  ended : Bool := false
deriving DecidableEq, Repr

/-- A resolution tag: pending, the frames it still stands for (context, frame number), and whether one was rejected
(R395, R396). -/
structure Tag where
  pending : Bool := false
  frames : List (Nat × Nat) := []
  void : Bool := false
deriving DecidableEq, Repr

/-- A source slot's entry of a snapshot S(k): a 24-bit sample, void, or Crema by a frame of a context (R19, R155). -/
structure Sample where
  v : BitVec 24 := 0
  void : Bool := false
  crema : Option (Nat × Nat) := none
deriving DecidableEq, Repr

/-- A glide's internal value, step and ramp in progress (R273). CUR and LEFT stand in the register store. -/
structure Glide where
  c : BitVec 32 := 0
  step : Int := 0
  /-- A target is written and takes effect at the next tick. -/
  fresh : Bool := false
  /-- A target has taken effect and is taken up at the next program start. -/
  taken : Bool := false
deriving DecidableEq, Repr

/-- The state of a logical engine, as SE_STAT.STATE codes it (R179). -/
inductive EngSt where
  | normal | failing | failed | substituting
deriving DecidableEq, Repr

/-- The restore image of a logical engine (R265), and its words in units found uncorrectable that the host has not
rewritten: memory (0 program, 1 Y, 2 register words) and address (R531). -/
structure Image where
  prog : Tbl (BitVec 32) := []
  y : Tbl Word := []
  regs : Tbl Word := []
  bad : List (Nat × Nat) := []
deriving DecidableEq, Repr

/-- How the sample program of an engine stands (R47 to R51, R161). -/
structure Run where
  /-- SPEN in force (R157). -/
  spen : Bool := false
  inprog : Bool := false
  /-- The running program belongs to the domain's latest tick. -/
  recent : Bool := false
  pend : Bool := false
  pendRecent : Bool := false
  /-- Domain counter [15:0] at the pending tick (R279). -/
  pendTick : Nat := 0
  /-- The program of the latest tick reached END. -/
  done : Bool := false
  /-- A program of the engine has been due since it was enabled. -/
  due : Bool := false
  /-- The running program's outputs are discarded (R158). -/
  discard : Bool := false
  /-- Every output of the running program is void (R166, R251). -/
  outVoid : Bool := false
  /-- The running program started late from a pending tick (R290). -/
  late : Bool := false
  /-- A program fetch met an uncorrectable error and ECCFAIL is set (R167). -/
  eccFail : Bool := false
  /-- Bundles executed by the running program (R194). -/
  count : Nat := 0
  /-- SE_PLEN in force when the running program started (R271). -/
  plen : Nat := 0
  /-- Consecutive misses, and whether MISS_RUN has been raised for the run (R51). -/
  misses : Nat := 0
  raised : Bool := false
  firstMiss : Nat := 0
  /-- A program has been on time (R48). -/
  everOn : Bool := false
  /-- The fade-in after a substitution: the number j of the spare's next program, from 1, or 0 outside a fade-in (R612). -/
  fade : Nat := 0
  /-- The engine was lost: it was retired with no spare, and no spare has served since (R614). -/
  lost : Bool := false
  /-- The position of the miss policy that the ticks since the declaration add, until the first on-time program (R611). -/
  gap : Nat := 0
  /-- The physical engine that served it last (R609). -/
  oldPe : Nat := 0
  /-- Cause of ENGINE_FAILED while the engine is not normal (R170). -/
  failCause : Nat := 0
  /-- Words of far access the running program has used of its allowance (R288). -/
  farUsed : Nat := 0
deriving DecidableEq, Repr

/-- A logical engine. -/
structure Engine where
  shadow : Bank := { regs := [(69, { v := 0x7FFF })] }
  fore : Bank := { regs := [(69, { v := 0x7DFF })] }
  prog : Tbl (BitVec 32) := []
  x : Tbl Word := []
  y : Tbl Word := []
  /-- X words with a void mark (R291). -/
  xVoid : List Nat := []
  /-- Words with an uncorrectable error: memory (0 program, 1 X, 2 Y) and address (R167). -/
  ue : List (Nat × Nat) := []
  /-- The output window, by word (R154, R156). -/
  outWin : Tbl RVal := []
  inRun : Tbl RVal := []
  inPend : Tbl Sample := []
  /-- The output window as END handed it to the output stage (R156). -/
  handed : Tbl RVal := []
  tags : Four Tag := ⟨{}, {}, {}, {}⟩
  park : List ParkEntry := []
  /-- Stack faults that wait for the confirmation of a predicate (R137). -/
  faults : List FaultWait := []
  /-- Writes from outside that wait for the end of a REPN, oldest first (R248). -/
  heldWr : List HeldWrite := []
  farq : List FarOp := []
  infl : List FarReq := []
  /-- Walk cache, most recently used first: page, frame, W (R284). -/
  walk : List (Nat × Nat × Bool) := []
  /-- Invalidations that wait for the tick: none for a page, some p for page p (R285). -/
  inval : List (Option Nat) := []
  st : EngSt := .normal
  run : Run := {}
  /-- BGEN in force, and the halt cause (R164, R165). -/
  bgen : Bool := false
  halt : Nat := 0
  /-- Last on-time value of each output (R48). -/
  lastOn : Tbl (BitVec 24) := []
  /-- Consecutive void or unresolved values of each output (R48, R399). -/
  voids : Tbl Nat := []
  /-- What each output last put into its slot. -/
  out : Tbl (BitVec 24) := []
  glides : Tbl Glide := []
  /-- A pending commit: SE_COMMIT as written (R267); it binds to a tick that has arrived and whose program is to start
  (R268). -/
  commit : Option Word := none
  bound : Bool := false
  image : Image := {}
deriving DecidableEq, Repr

/-- A job of the FFT unit or of the correlator (R172): engine, tag, source and destination addresses, length words. -/
structure Job where
  eng : Nat
  tag : Nat
  src : Nat
  src2 : Nat := 0
  dst : Nat
  n : Nat := 256
  lags : Nat := 0
  first : Int := 0
  inverse : Bool := false
  /-- A window of live calibration, which shares the queue (R172). -/
  cal : Bool := false
deriving DecidableEq, Repr

/-- An XL transfer that waits or runs: engine, bank, opcode, ARG, SA, and the destination of an opcode that left the
park buffer, which no bundle waits for (R636). -/
structure XlReq where
  eng : Nat
  bg : Bool
  op : Nat
  arg : Nat
  sa : Nat
  dst : Option Nat := none
  /-- The slot that issued it, for an opcode that left the park buffer. -/
  born : Nat := 0
deriving DecidableEq, Repr

/-- The accelerator cluster and the XL header (R171 to R175, R204 to R206, R636, R637). -/
structure Cluster where
  fftq : List Job := []
  corq : List Job := []
  /-- Tags of the jobs done, which a poll reports. -/
  fftDone : List Nat := []
  corDone : List Nat := []
  /-- Links into the cluster that the watchdog ends at the next opcode: engine and unit (R647). -/
  stalls : List (Nat × Nat) := []
  /-- Opcode mask the XL module declared (R206). -/
  xlMask : Byte := 0
  /-- XL transfers that wait or run, oldest first. -/
  xl : List XlReq := []
deriving DecidableEq, Repr

/-- Adaptive supply control and the speed monitors (R41 to R46). -/
structure Asc where
  /-- Least slack of the interval with its engine, and whether an engine missed. -/
  slack : Nat := 0xFFFF
  eng : Nat := 0
  any : Bool := false
  missed : Bool := false
  dwell : Nat := 0
  /-- Consecutive readings at or above the floor, per monitor, that a breach still needs (R41). -/
  breach : Bool := false
  good : Tbl Nat := []
deriving DecidableEq, Repr

/-- Substitution of engines (R609 to R614): the declarations that wait, and the substitution in progress: logical
engine, old and new physical engine, cause, affected contexts. -/
structure Subst where
  waiting : List Nat := []
  active : Option (Nat × Nat × Nat) := none
  ready : Bool := false
  /-- µs from the declaration to the spare's first program. -/
  us : Word := 0
  affected : List (Nat × Nat) := []
deriving DecidableEq, Repr

/-! ### Clock synthesizer (R59 to R89) -/

/-- Core states (R67). -/
inductive CoreSt where
  | off | search | free | track | slew | hold | hop
deriving DecidableEq, Repr

/-- One synthesizer core. The codes applied, the offsets and the counters stand in space 0x24. -/
structure ClkCore where
  st : CoreSt := .off
  /-- Entry in force (R77). -/
  entry : Nat := 0
  /-- FAM and MULT as loaded at the last accepted hop or at start-up (R63). -/
  fam : Bool := false
  mult : BitVec 32 := 0
  /-- VALID, FINE and TCOEF as the core loaded them last, or FINE as its search found it (R62, R63, R74). -/
  valid : Bool := false
  fine : Nat := 0
  tcoef : Int := 0
  /-- Reference in use, or the target of a committed switch (R69). -/
  ref : Option Nat := none
  /-- A stop requested and not yet judged at the base tick (R64). -/
  stopReq : Bool := false
  /-- A hop held because the core is slewing (R77). -/
  hopHeld : Option Nat := none
  /-- An accepted hop: waiting for the base tick, then running in state HOP (R78). -/
  hopTo : Option Nat := none
  /-- The hop runs: the core has stopped its domains and outputs and loads the new codes (R78). -/
  hopping : Bool := false
  /-- A relock after a loss of lock (R63). -/
  relock : Bool := false
  /-- A restart of a stopped core (R64). -/
  restart : Bool := false
  /-- The code search of R61 runs. -/
  searching : Bool := false
deriving DecidableEq, Repr

/-- One sample domain: the binding in force, and what waits for a base tick or for the domain's next tick. -/
structure Domain where
  core : Nat := 0
  rate : Nat := 4
  en : Bool := false
  run : Bool := false
  /-- The domain stops after its next tick. -/
  lastTick : Bool := false
  /-- A disable written and not yet taken effect (R80). -/
  disabling : Bool := false
  /-- The domain is stopped for a hop or a relock and resumes after it (R78, R63). -/
  paused : Bool := false
  /-- An accepted enable waits for the base tick (R80). -/
  starting : Bool := false
  /-- A change of binding waits for the present core's base tick (R79). -/
  rebind : Option Nat := none
  /-- A new binding is in force and its first tick is awaited (R79). -/
  rebound : Bool := false
  /-- The next tick is the first one after the counter was reset, and reads 0. -/
  fresh : Bool := true
  /-- Counter and epoch (R81). -/
  tick : BitVec 32 := 0
  epoch : BitVec 48 := 0
deriving DecidableEq, Repr

/-- One clock output (R83 to R86): the divider, half step, delay and domain in force. -/
structure ClkOut where
  en : Bool := false
  run : Bool := false
  /-- The output completes its high phase after a stop (R86). -/
  stopping : Bool := false
  n : Nat := 16
  half : Bool := false
  delay : Nat := 0
  dom : Nat := 0
  /-- Half core periods counted toward the next step of DELAY (R86). -/
  part : Nat := 0
deriving DecidableEq, Repr

/-- The clock synthesizer. -/
structure Clock where
  cores : Two ClkCore := ⟨{}, {}⟩
  doms : Four Domain := ⟨{ en := true, starting := true }, {}, {}, {}⟩
  outs : Eight ClkOut :=
    ⟨{ en := true }, { en := true }, { en := true }, { en := true }, { n := 32 }, { n := 32 }, { n := 8 }, {}⟩
  /-- On-die junction temperature in °C at the last recomputation (R62). -/
  tj : Int := 25
  /-- DOM0 has ticked since start-up (R46). -/
  started : Bool := false
deriving DecidableEq, Repr

/-! ### Control port (R90 to R126) -/

/-- A stored response: the tag, the status and CCI of its header, and its data words (R102). -/
structure Resp where
  tag : BitVec 4
  status : BitVec 4
  cci : Bool
  data : List Word
deriving DecidableEq, Repr

/-- A path of the control port: its bank of window registers (R112), its stored response (R102) and the words it
last sent (R97). -/
structure CpPath where
  wspace : BitVec 8 := 0
  /-- The value written to 0x11 that 0x12 makes effective (R9). -/
  waddrLo : Option Word := none
  waddr : BitVec 32 := 0
  inc : Bool := false
  wstat : BitVec 3 := 0
  wfail : BitVec 32 := 0
  stored : Option Resp := none
  sent : List Word := []
deriving DecidableEq, Repr

/-- Where a tunnel request came from: its sender, UDP port, the network port by which it arrived, the own address that it was
sent to, and its SEQ (R104, R105). -/
structure TunFrom where
  peer : NetPeer
  udpPort : Nat
  port : Nat
  own : Nat
  seq : Word
deriving DecidableEq, Repr

/-- A waiting tunnel request (R106). -/
structure TunReq where
  from_ : TunFrom
  words : List Word
deriving DecidableEq, Repr

/-- The management tunnel (R103 to R107). -/
structure Tunnel where
  queue : List TunReq := []
  last : Option TunFrom := none
  lastAnswer : List Word := []
  /-- The datagram last sent: its destination and payload (R104). -/
  sentTo : Option TunFrom := none
  sent : List Word := []
deriving DecidableEq, Repr

/-- The control port. -/
structure Control where
  serial : CpPath := {}
  tunnel : CpPath := {}
  tun : Tunnel := {}
  /-- Links whose next access by a requester the fabric watchdog ends: KIND, INDEX, requester as `stallPath` numbers it (R53). -/
  stalls : List (Nat × Nat × Nat) := []
  /-- A system reset has been requested and starts 1 ms later (R125). -/
  resetPending : Bool := false
  /-- The window access being judged has failed: cause and offset (R116). -/
  fail : Option (Nat × Nat) := none
  /-- The model's own counter: writes refused when they were judged, which boot records are judged by (R598). -/
  refused : Nat := 0
deriving DecidableEq, Repr

/-! ### Network ports, classifier, queues and stream contexts (R304 to R405) -/

/-- A foreign master (R315, R318): its port identity, an external port where its Announce is heard, the reference time in ms of
the last one, whether it is qualified and thereby bound to that port, and its data set. -/
structure Foreign where
  ident : BitVec 80
  port : Nat
  last : Nat
  bound : Bool
  gm : BitVec 64
  prio1 : Byte
  cls : Byte
  acc : Byte
  var : Word
  prio2 : Byte
  steps : Word
deriving DecidableEq, Repr

/-- A two-step Sync of the master in use that waits for its Follow_Up. -/
structure SyncWait where
  seq : Word
  rx : Int
  corr : Int
deriving DecidableEq, Repr

/-- The ordinary clock (R315 to R322). Its state, port in use and CONV stand in NET_PTPSTAT. Times are in units of
2^-16 ns, as correctionField counts. -/
structure Ptp where
  masters : List Foreign := []
  /-- The master in use. -/
  parent : Option (BitVec 80) := none
  /-- The second of reference time and the Syncs accepted in it (R318). -/
  syncSec : Nat := 0
  syncs : Nat := 0
  wait : Option SyncWait := none
  /-- Send and receive times of the last complete Sync, and the times of a Delay_Req that is out. -/
  t1 : Int := 0
  t2 : Int := 0
  haveSync : Bool := false
  /-- The last complete Sync waits for a path delay. -/
  fresh : Bool := false
  reqSeq : Word := 0
  t3 : Option Int := none
  haveMpd : Bool := false
  /-- Consecutive offsets below 10 µs, within CONVTHR and above it (R321). -/
  small : Nat := 0
  good : Nat := 0
  bad : Nat := 0
  first : Bool := true
  /-- The local PTP time, with the remainder that core A's base ticks leave, in 1/441 (R320). -/
  time : Int := 0
  part : Nat := 0
  /-- Reference time in ms of the last change of its rate (R320). -/
  steered : Nat := 0
  seqAnn : Word := 0
  seqSync : Word := 0
deriving DecidableEq, Repr

/-- A pending two-step Sync residence of the transparent clock (R325). -/
structure Residence where
  ident : BitVec 80
  seq : Word
  dom : Byte
  time : BitVec 64
  port : Nat
deriving DecidableEq, Repr

/-- A relay command and what the sense contact says (R311, R312): closed is bypass. -/
structure Relay where
  closed : Bool := true
  cause : Nat := 1
  moving : Bool := false
  sensed : Bool := true
deriving DecidableEq, Repr

/-- A frame or copy in a queue (R369, R376). -/
structure QFrame where
  bytes : List Byte
  /-- Ingress port; 2 for a frame the hub originated, 3 for a message of its ordinary clock, which takes no correction (R324). -/
  port : Nat
  /-- Kind of copy: MIR, CPY, ICPT, MAL in [3:0] (R404). -/
  kind : Nat := 0
  stamp : BitVec 32 := 0
  cells : Nat := 0
  /-- The frame that is still arriving and this copy belongs to. -/
  fly : Option Nat := none
deriving DecidableEq, Repr

/-- Where the primary copy of a frame goes once its last pass has decided (R351, R353). -/
inductive Primary where
  | none
  | queued (q : Nat)                 -- stored in a transmit queue while it arrives
  | cut (q port cells : Nat)         -- cut through to an external port
  | host (q : Nat)                   -- to a host queue once its FCS is confirmed
  | stream (c : Nat)
deriving DecidableEq, Repr

/-- Everything the parser finds in a frame (R334 to R337). -/
structure Parsed where
  /-- The cause of a malformed frame (R356). -/
  bad : Option Nat := none
  dmac : Nat := 0
  smac : Nat := 0
  ovid : Nat := 0
  ivid : Nat := 0
  tagged : Bool := false
  double : Bool := false
  etype : Nat := 0
  /-- 0 other, 1 ARP, 2 IPv4, 3 IPv6. -/
  kind : Nat := 0
  l3 : Nat := 0
  proto : Nat := 0
  tclass : Nat := 0
  sip : Nat := 0
  dip : Nat := 0
  options : Bool := false
  ext : Bool := false
  frag : Bool := false
  fragOff : Nat := 0
  more : Bool := false
  ident : Nat := 0
  /-- Bytes of IP payload, after the headers of R361's key. -/
  fragLen : Nat := 0
  /-- 6 TCP, 17 UDP, else 0; with its offset, and offset and length of its payload. -/
  l4 : Nat := 0
  l4At : Nat := 0
  sport : Nat := 0
  dport : Nat := 0
  pay : Nat := 0
  payLen : Nat := 0
  pclass : Nat := 0
  /-- ICMPv6 or IGMP type; the target of a neighbour solicitation or an ARP request. -/
  icmp : Option Nat := none
  igmp : Bool := false
  target : Nat := 0
  arpReq : Bool := false
  rtp : Bool := false
  ssrc : Nat := 0
  rtppt : Nat := 0
  seq : Nat := 0
  ts : Nat := 0
  pad : Bool := false
  rtpPay : Nat := 0
  /-- Frame length in bytes with the FCS that the IP header declares (R369). -/
  declared : Option Nat := none
  /-- End of the last header parsed. -/
  last : Nat := 0
deriving DecidableEq, Repr

/-- A frame from its first byte to its end (R331): its number, ingress port and bytes without the FCS, the pass that
decides next with its profile and TAG, the copies collected over the passes, and what has been decided. -/
structure Fly where
  id : Nat
  port : Nat
  bytes : List Byte
  pass : Nat := 0
  prof : Nat := 0
  tag : Nat := 0
  copyTo : Option Nat := none
  mirror : Bool := false
  decided : Bool := false
  /-- Malformed, dropped or taken by the tunnel: no pass decides any more. -/
  primary : Primary := .none
  /-- Copies that are made once the FCS is confirmed: queue and kind. -/
  copies : List (Nat × Nat) := []
  answer : Bool := false
  /-- Intercept copies to the ordinary clock and to the tunnel (R340), made once the FCS is confirmed. -/
  clock : Bool := false
  tunnel : Bool := false
  stamp : BitVec 32 := 0
  /-- What pass 0 parsed; later passes parse nothing again (R354). -/
  parsed : Option Parsed := none
  /-- The FCS result has arrived, and it was good. -/
  ended : Option Bool := none
  /-- The recirculation queue that holds it between passes; 0 for none. -/
  recirc : Nat := 0
  /-- Cells that each copy reserves at its decision point (R369). -/
  cells : Nat := 0
  residence : BitVec 64 := 0
  /-- The ingress timestamp, in units of 0.25 ns (R319). -/
  rx : Int := 0
deriving DecidableEq, Repr

/-- What an external port sends or sent last: the bytes, whether the FCS is inverted (R309), and, while a stored frame is still
being sent, the reference time in ms at which it started. -/
structure Sent where
  bytes : List Byte
  stomp : Bool
  since : Option Nat
deriving DecidableEq, Repr

/-- A datagram of the fragment table (R361). -/
structure FragEntry where
  v6 : Bool
  src : Nat
  dst : Nat
  ident : Nat
  proto : Nat
  seen : Nat
  total : Option Nat
  /-- The recorded action as one 64-bit value in the encoding of R350; STREAM stands for CLS_FRAGQ (R360). -/
  action : Nat
  /-- Reference time in ms of the latest fragment. -/
  latest : Nat
deriving DecidableEq, Repr

/-- A frame of a receive context (R385 to R392): number, 48-bit index, sequence number and lane, RTP timestamp and
samples by tick, its position, and its results. -/
structure RxFrame where
  id : Nat
  index : Nat
  seq : Nat
  lane : Option Nat := none
  poured : Bool := false
  standby : Bool := false
  ts : Nat := 0
  ssrc : Nat := 0
  samples : List (List (BitVec 24)) := []
  /-- Domain counter at the decision point. -/
  counter : BitVec 32 := 0
  /-- What the lane will find: the tag verifies. -/
  verdict : Bool := true
  /-- Frame-pool cells that a standby frame keeps (R385). -/
  cells : Nat := 0
  fcs : Option Bool := none
  auth : Option Bool := none
  /-- Confirmed or rejected; with the cause of a rejection: 0 none counted, 1 FCSREJ, 2 AUTHFAIL, 3 WINREJ, 4 DUP. -/
  res : Option Bool := none
  cause : Nat := 0
  /-- Lost with its lane: its result never comes, and later results wait behind it (R381, R615). -/
  lost : Bool := false
deriving DecidableEq, Repr

/-- A position of a jitter buffer that holds a sample of each channel for a playout tick (R387). -/
structure BufCell where
  tick : BitVec 32
  samples : List (BitVec 24)
  frame : Option Nat
deriving DecidableEq, Repr

/-- A transmit packet in a lane, in order (R379, R380): lane, sequence number and bytes; done when protected. -/
structure TxJob where
  id : Nat
  lane : Nat
  bytes : List Byte
  done : Bool := false
  /-- Lost with its lane (R381, R615). -/
  lost : Bool := false
deriving DecidableEq, Repr

/-- A stream context (R382 to R393). Its settings stand in space 0x0B. -/
structure Ctx where
  /-- EN in force, from the tick on at which the context starts. -/
  run : Bool := false
  starting : Bool := false
  stopping : Bool := false
  ssrcKnown : Bool := false
  tsKnown : Bool := false
  keyv : Bool := false
  seen : List Nat := []
  frames : List RxFrame := []
  buf : Tbl (Option BufCell) := []
  /-- Samples played, newest first, up to SPP ticks; each may be Crema by a frame. -/
  played : List (List Sample) := []
  /-- Concealed ticks of the present run, and ticks of fade-in since it ended. -/
  gap : Nat := 0
  fadeIn : Nat := 0xFFFF
  /-- The values that fade in the present run (R389). -/
  hold : List (BitVec 24) := []
  /-- Runs of concealed ticks that samples of unconfirmed frames ended: the frame and the length (R137). -/
  ended : List (Nat × Nat) := []
  /-- Concealment values of the present tick, for samples that do not resolve in time (R400). -/
  alt : List (BitVec 24) := []
  /-- Samples collected for the packet being filled, and the counter at the publish of the first. -/
  fill : List (List (BitVec 24)) := []
  fillTick : BitVec 32 := 0
  jobs : List TxJob := []
deriving DecidableEq, Repr

/-- An integrity lane (R378 to R381): the frames in process as context and frame number. -/
structure Lane where
  failed : Bool := false
  held : List (Nat × Nat) := []
deriving DecidableEq, Repr

/-- The network side of the hub. -/
structure Net where
  ptp : Ptp := {}
  tc : List Residence := []
  relay : Relay := {}
  fly : List Fly := []
  nextId : Nat := 0
  frags : Tbl (Option FragEntry) := []
  /-- Words of the classifier tables with an uncorrectable error (R531). -/
  clsBad : List Nat := []
  /-- Frames a fence waits for (R348). -/
  fence : List Nat := []
  /-- Frames waiting in queues, oldest first. -/
  queues : Tbl (List QFrame) := []
  /-- Turn of queues of equal priority: the queue served last, at 8 times the port 0, 1 or ring 2 + r, plus the priority (R370). -/
  turn : Tbl Nat := []
  /-- The queue whose first frame is the head frame of a host receive ring (R376). -/
  heads : Tbl (Option Nat) := []
  /-- What each external port sends or sent last (R309). -/
  wire : Tbl (Option Sent) := []
  /-- Frames in recirculation queues, in decision order (R372). -/
  recircs : Tbl (List Nat) := []
  /-- A host transmit ring sends: its queue and padded frame (R377). -/
  txBusy : Tbl (Option (Nat × List Byte)) := []
  lanes : Four Lane := ⟨{}, {}, {}, {}⟩
  nextLane : Nat := 0
  ctx : Tbl Ctx := []
deriving DecidableEq, Repr

/-! ### AES3 ports (R406 to R427) -/

/-- A channel of an AES3 input: the last completed subframe as replaced, the last good word, subframes completed since
the last tick, the bits of the block being assembled (R417) and what the block met, and the last accepted channel status. -/
structure AesCh where
  word : BitVec 24 := 0
  good : BitVec 24 := 0
  done : Nat := 0
  cs : List Bool := []
  user : List Bool := []
  bad : Bool := false
  v : Bool := false
  vLast : Bool := false
  /-- The last accepted channel-status block; none since the lock. -/
  prev : Option (List Nat) := none
  /-- What its slot carried last. -/
  out : BitVec 24 := 0
  /-- Its slot's value when the fade to 0 began. -/
  held : BitVec 24 := 0
deriving DecidableEq, Repr

/-- An AES3 input. -/
structure AesIn where
  /-- EN in force, and an accepted enable that waits for the tick. -/
  en : Bool := false
  starting : Bool := false
  lock : Bool := false
  /-- RATE: the class of the lock, 0 for none. -/
  cls : Nat := 0
  /-- Class of the last complete block. -/
  last : Nat := 0
  /-- Rates of the last 16 complete blocks in 1/16 Hz, newest first. -/
  rates : List Nat := []
  /-- Blocks assemble: a block has begun at or after the lock. -/
  asm : Bool := false
  asrc : Option Nat := none
  a : AesCh := {}
  b : AesCh := {}
  /-- Ticks since the slots began to rise, and since they began to fall. -/
  up : Nat := 0
  down : Nat := 0xFFFF
  mis : Bool := false
  pro : Bool := false
  nonaudio : Bool := false
deriving DecidableEq, Repr

/-- An AES3 output: whether it sends frames, an accepted enable that waits for the tick, a disable that waits for the
frame's end, the frame's place in its block, the channel-status and user words that the block sends, and the subframes
sent last, as time slots 4 to 31. -/
structure AesOut where
  run : Bool := false
  starting : Bool := false
  stopping : Bool := false
  pos : Nat := 0
  cs : List (List Word) := []
  user : List (List Word) := []
  sent : List (BitVec 28) := []
deriving DecidableEq, Repr

/-! ### Analog inputs, amplifiers, train lines and field I/O (R430 to R461) -/

/-- An analog input: bias on, checks below 50 µA in a row, the bias fault, and the CLIP and NEAR indications. The applied
gain and the offset stand in the register store. -/
structure Adc where
  bias : Bool := false
  low : Nat := 0
  biasf : Bool := false
  clip : Bool := false
  near : Bool := false
deriving DecidableEq, Repr

/-- A caption message that is being sent: TYPE, body and whether its preamble has started (R444). -/
structure CdcTx where
  ty : Byte
  body : List Byte
  started : Bool := false
deriving DecidableEq, Repr

/-- A train-line port: the applied receive gain, the transmission in progress, the QPSK symbols of the one that started
last (R440), and what the send carries. -/
structure TrainLine where
  gain : Nat := 0
  tx : Option CdcTx := none
  symbols : List (Bool × Bool) := []
  rise : Rat := 0
  out : BitVec 24 := 0
deriving DecidableEq, Repr

/-- Where an amplifier channel's mute ramp leads (R446, R447, R453). -/
inductive RampTo where
  | run | muted | off | thermal
deriving DecidableEq, Repr

/-- An amplifier channel: its ramp, amplitude, rise after a clock restart (R432), the state before THERMAL, and what it
delivers. Its state, cause and partner stand in its STATE word. -/
structure AmpCh where
  ramp : Option RampTo := none
  amp : Rat := 0
  rise : Rat := 0
  before : Nat := 0
  out : BitVec 24 := 0
  /-- Ticks for which the output limiter of R604 still acts. -/
  limit : Nat := 0
deriving DecidableEq, Repr

/-- A field input: raw state, whether it has been sampled, samples in a row that differ from the debounced state, the
range status (0 in range, 1 over-range, 2 reverse) and the samples in a row of another one. -/
structure FieldIn where
  raw : Bool := false
  seen : Bool := false
  differ : Nat := 0
  range : Nat := 0
  cand : Nat := 0
  candN : Nat := 0
deriving DecidableEq, Repr

/-- A field output: switched on, a command of 0 seen since its trip, and a retry that fell due while its command was 0. -/
structure FieldOut where
  on : Bool := false
  armed : Bool := false
  /-- A retry fell due while the command was 0 (R459). -/
  due : Bool := false
deriving DecidableEq, Repr

/-- The converters, train lines, amplifiers and field I/O. -/
structure Aio where
  adc : Eight Adc := ⟨{}, {}, {}, {}, {}, {}, {}, {}⟩
  tl : Two TrainLine := ⟨{}, {}⟩
  tlRelay : Relay := {}
  amp : Eight AmpCh := ⟨{}, {}, {}, {}, {}, {}, {}, {}⟩
  fin : Tbl FieldIn := []
  fout : Eight FieldOut := ⟨{}, {}, {}, {}, {}, {}, {}, {}⟩
deriving DecidableEq, Repr

/-! ### Sample bus and route matrix (R465 to R479) -/

/-- An amplitude: a level in dB, or a factor (R470). -/
inductive Amp where
  | db (x : Rat)
  | lin (a : Rat)
deriving DecidableEq, Repr

/-- A gain ramp in progress: from, to, law (linear in dB), ticks and tick (R470). -/
structure Ramp where
  a0 : Amp
  a1 : Amp
  dB : Bool
  n : Nat
  j : Nat := 0
deriving DecidableEq, Repr

/-- A crosspoint entry. Its words in force stand in the register store. -/
structure Xp where
  valid : Bool := false
  removing : Bool := false
  /-- The source that contributes, besides the old one of a crossfade. -/
  src : Nat := 0
  a : Amp := .lin 0
  ramp : Option Ramp := none
  /-- A crossfade: old source, ticks and tick (R472). -/
  fade : Option (Nat × Nat × Nat) := none
  /-- A source held for the next crossfade. -/
  heldSrc : Option Nat := none
  /-- Duck level in dB, and its movement: from, to, ticks and tick (R473). -/
  duck : Rat := 0
  duckMove : Option (Rat × Rat × Nat × Nat) := none
  /-- Ticks since a sample of the source reached DETTH. -/
  quiet : Option Nat := none
  /-- Words written that take effect at the next tick, and words that wait for RTM_GO (R468, R474). -/
  next : Option (List Word) := none
  wait : Option (List Word) := none
  /-- The words in `next` were written after those in `wait`. -/
  later : Bool := false
deriving DecidableEq, Repr

/-- A sink slot: active level (R473), applied noise-adaptive gain in 0.1 dB (R478), the mix published last (R467). -/
structure Snk where
  level : Option Nat := none
  nag : Rat := 0
  out : BitVec 24 := 0
deriving DecidableEq, Repr

/-- The route matrix: entries, sinks, the source and target domain of each ASRC channel it owns (R479), and the peaks
of source slots of the last 2.56 s, the longest HOLD and more (R473, R482), and of sinks of the last 100 ms (R482), as age
in ticks and magnitude, newest first. -/
structure Rtm where
  xps : Tbl Xp := []
  snks : Tbl Snk := []
  asrc : Tbl (Option (Nat × Nat)) := []
  /-- Ticks for which an ASRC channel's source domain has produced none (R479). -/
  still : Tbl Nat := []
  env : Tbl (List (Nat × Nat)) := []
  peak : Tbl (List (Nat × Nat)) := []
deriving DecidableEq, Repr

/-! ### Live calibration (R483 to R501) -/

/-- A measurement window (R487, R488): kind, amplifier, microphone; ticks still to come, the domain counter it was
counted at last, the reason that broke it, a reason to be judged at the next tick, the pilot, whether it is forced, and
DOM0's counter at its end. -/
structure CalWin where
  kind : Nat
  amp : Nat
  mic : Nat
  left : Nat
  last : BitVec 32
  reason : Option Nat := none
  hit : Option Nat := none
  pilot : Bool := false
  forced : Bool := false
  stamp : BitVec 32 := 0
  ended : Nat := 0
deriving DecidableEq, Repr

/-- How far a forced measurement has come (R498). -/
inductive ForceSt where
  | measuring | fadeIn | window
deriving DecidableEq, Repr

/-- A forced measurement and whether the pilot ran for it. -/
structure Forced where
  kind : Nat
  amp : Nat
  mic : Nat
  st : ForceSt := .measuring
  pilot : Bool := false
deriving DecidableEq, Repr

/-- The pilot (R499): its amplifier, and while it fades out the ticks of the fade that are left and the cause of PILOT_STOP. -/
structure Pilot where
  amp : Nat
  out : Option Nat := none
  cause : Nat := 0
deriving DecidableEq, Repr

/-- A trim of an input's offset (R501): the offset before it, the one it steps to, and the one without the limit. -/
structure Trim where
  before : Int
  target : Int
  wanted : Int
deriving DecidableEq, Repr

/-- Live calibration: running, the windows that are open, those whose analysis runs, the pairs with a published path, the
channels off their line baseline, the reference time of each microphone's latest result, and the trims that step. -/
structure Cal where
  on : Bool := false
  wins : List CalWin := []
  work : List CalWin := []
  forced : Option Forced := none
  pilot : Option Pilot := none
  /-- The microphone whose path window comes next, per amplifier. -/
  next : Tbl Nat := []
  paths : List Nat := []
  lineOff : List Nat := []
  noiseAt : Tbl (Option Nat) := []
  trims : Tbl (Option Trim) := []
deriving DecidableEq, Repr

/-! ### Caption ports (R506 to R523) -/

/-- A caption port (R507, R514, R518): link running, the frame in progress is the first after a start, it is blank, its
row that comes next and the lines it still has, a mode change requested, the page shown, a held page, and the line packet
sent last. -/
structure CapPort where
  run : Bool := false
  first : Bool := false
  blank : Bool := false
  row : Nat := 0
  left : Nat := 0
  pend : Bool := false
  page : Nat := 0
  held : Option Nat := none
  packet : List Word := []
deriving DecidableEq, Repr

/-- The caption ports, and the cue entries that fire late (R521). -/
structure Captions where
  ports : Two CapPort := ⟨{}, {}⟩
  late : List Nat := []
deriving DecidableEq, Repr

/-! ### Background services (R527 to R554) -/

/-- The scrubber (R529 to R532): the next unit of the on-chip memories and of DRAM, uncorrectable units of the DRAM pass,
the reference time of its start, and the DRAM corrections so far. -/
structure Scrub where
  chip : Nat := 0
  dram : Nat := 0
  found : Nat := 0
  start : Nat := 0
  corr : Nat := 0
deriving DecidableEq, Repr

/-- A committed object (R537, R540): its length, pages, write generation, CRC-32 and whether it is DAMAGED. -/
structure NandObj where
  len : Nat
  pages : List (List Byte)
  gen : Nat
  crc : BitVec 32
  damaged : Bool := false
deriving DecidableEq, Repr

/-- The open write session (R538): object number (partition and ID), length, generation and pages written. -/
structure Session where
  obj : Nat
  len : Nat
  gen : Nat
  pages : List (List Byte) := []
deriving DecidableEq, Repr

/-- A NAND block (R534 to R536): bad, erase count, read count, and the pages programmed, each by object, page index and
generation. -/
structure NBlock where
  bad : Bool := false
  erased : Nat := 0
  reads : Nat := 0
  pages : List (Nat × Nat × Nat) := []
deriving DecidableEq, Repr

/-- The Carafe store: mounted, declared unavailable or neither yet; whether power loss has closed it; objects and blocks;
the block that each partition fills; the command that runs with its result and ID, and DONE, CMD and RESULT. -/
structure Store where
  avail : Option Bool := none
  closed : Bool := false
  objs : Tbl (Option NandObj) := []
  blocks : Tbl NBlock := []
  cur : Tbl (Option Nat) := []
  sess : Option Session := none
  gen : Nat := 0
  busy : Option (Nat × Nat × Nat) := none
  done : Bool := false
  cmd : Nat := 0
  result : Nat := 0
  /-- The incident log: its pages newest first with their block, the block of the write point, the next PSEQ. -/
  log : List (Nat × List Byte) := []
  logBlock : Nat := 1664
  pseq : Nat := 0
deriving DecidableEq, Repr

/-- The incident recorder (R545 to R549): frozen, closed by power loss; sixteenths of a second discarded and lost; what
the header of the current page takes at its first sample; the ADPCM state of each channel. -/
structure Recorder where
  frozen : Bool := false
  closing : Bool := false
  closed : Bool := false
  lost : Nat := 0
  gap : Nat := 0
  tick : BitVec 32 := 0
  epoch : BitVec 48 := 0
  sec : BitVec 48 := 0
  ns : BitVec 32 := 0
  ptpv : Bool := false
  mark : Nat := 0
  nosig : Byte := 0
  /-- Pages filled while the NAND is write-protected (R601, R602). -/
  buffer : List (List Byte) := []
  chans : Eight (Int × Nat) := ⟨(0, 0), (0, 0), (0, 0), (0, 0), (0, 0), (0, 0), (0, 0), (0, 0)⟩
deriving DecidableEq, Repr

/-- Telemetry (R551 to R554): the number of the next record to export, the datagrams sent, and per item the DRAM
corrections at its previous record. -/
structure Telemetry where
  next : Nat := 0
  seq : Word := 0
  drm : Tbl Nat := []
deriving DecidableEq, Repr

/-! ### One-time-programmable memory (R560 to R580) -/

/-- An OTP word as it reads at weak, normal and strict margin (R561). -/
structure OtpWord where
  weak : Word := 0
  normal : Word := 0
  strict : Word := 0
deriving DecidableEq, Repr

/-- A Roast that runs: slot, target generation, LOCK, the payload captured and its check word (R575). -/
structure Roast where
  slot : Nat
  gen : Nat
  lock : Bool
  payload : List Word
  check : Word
deriving DecidableEq, Repr

/-- The OTP array by word number 136 × slot + 34 × generation + word, whether the load has completed, and the Roast that
runs. -/
structure Otp where
  words : Tbl OtpWord := []
  loaded : Bool := false
  roast : Option Roast := none
  /-- SLOT of the running or last Roast. -/
  slot : Nat := 0
deriving DecidableEq, Repr

/-! ### Supply, start-up and power loss (R584 to R605) -/

/-- The image that executes, or what its execution waits for (R598). -/
inductive BootWait where
  | none
  | fload      -- the result of an FLOAD record
  | delay      -- the delay of a WAIT record
deriving DecidableEq, Repr

/-- Booting: the candidates still to verify, none before the headers are read; the body as bytes, the position of the next
record and what execution waits for (R597, R598). -/
structure Boot where
  cands : Option (List Nat) := none
  body : List Byte := []
  pos : Nat := 0
  wait : BootWait := .none
  /-- Byte offset of the record that a wait belongs to. -/
  from_ : Nat := 0
  /-- A record of this execution has failed. -/
  failed : Bool := false
deriving DecidableEq, Repr

/-- The chime path (R593 to R595): a request for the next tick of DOM0 (chime, and 1 command or 2 field input), the chime
that plays with the ticks it still has, a release requested, and a release in progress. -/
structure Chime where
  req : Option (Nat × Nat) := none
  play : Option (Nat × Nat) := none
  releaseReq : Bool := false
  releasing : Bool := false
  /-- CHIME_READY has not been raised for the path that stands. -/
  awaited : Bool := false
deriving DecidableEq, Repr

/-- Power: the inputs qualified, the fabric runs, the power-loss signal and when it came, amplifiers shed, relays released, the amplifier rail on, RENZA_HOT entered. -/
structure Power where
  dc : Bool := false
  ac : Bool := false
  running : Bool := false
  loss : Bool := false
  lossAt : Nat := 0
  shed : Bool := false
  released : Bool := false
  rail : Bool := false
  hot : Bool := false
  /-- Milliseconds from time zero to step 3, and the reference time of step 3 (R591). -/
  zeroMs : Nat := 0
  startMs : Nat := 0
  boot : Boot := {}
  chime : Chime := {}
deriving DecidableEq, Repr

/-- The hub: everything but the event queue and the commands that wait. -/
structure Hub where
  /-- The register store: the value of every register word of Machine/RegMap.lean (R15, R646). -/
  regs : Tbl Word := []
  /-- Values in force of words that act later than they are stored: WT words (R15) and fields of several words (R9). -/
  force : Tbl Word := []
  /-- Words of a field of several words that are written and not yet in effect (R9). -/
  stage : Tbl (Option Word) := []
  /-- Snapshots of fields of several words, taken when the lowest word is read (R9). -/
  snap : Tbl Word := []
  /-- Reference time in ms, counted from the internal TCXO (R41). -/
  refMs : Nat := 0
  /-- The model's own counter: the number of free values taken so far. -/
  free : Nat := 0
  ev : EvSources := {}
  engs : Tbl Engine := []
  /-- The engine that the round-robin of far requests serves next (R288). -/
  farRr : Nat := 0
  clu : Cluster := {}
  asc : Asc := {}
  sub : Subst := {}
  /-- DRAM by word address, and its 8-byte units with an uncorrectable error (R296, R297). -/
  dram : Tbl Word := []
  dramUe : List Nat := []
  clk : Clock := {}
  cp : Control := {}
  net : Net := {}
  aesIn : Two AesIn := ⟨{}, {}⟩
  aesOut : Two AesOut := ⟨{}, {}⟩
  aio : Aio := {}
  /-- The last snapshot of each domain's source slots (R19), by slot. -/
  bus : Tbl Sample := []
  rtm : Rtm := {}
  cal : Cal := {}
  cap : Captions := {}
  scr : Scrub := {}
  nand : Store := {}
  rcd : Recorder := {}
  tel : Telemetry := {}
  otp : Otp := {}
  pwr : Power := {}
deriving DecidableEq, Repr

/-- The machine: the commands that wait, first in first out, the event queue and the hub. -/
structure State where
  pending : List Instr
  q : EvQueue
  hub : Hub
deriving DecidableEq, Repr

/-- Reasons to stop with a fault. -/
inductive Fault where
  /-- Raised by no command of this model: every command of the table has an effect in every state. It stands for a
  state that the spec would call stuck, and is safe. -/
  | stuck
deriving DecidableEq, Repr

/-- Reasons to refuse a command. -/
inductive Refusal where
  /-- Raised by an arm of exec whose command has no meaning yet; safe: the model stops where the hub goes on. -/
  | notModelled (mnemonic : String)
deriving DecidableEq, Repr

/-! ### Reset -/

/-- QUEUE_STARTED, the first record of the queue (R132, R145). -/
def EvRecord.started : EvRecord :=
  { src := 240, urg := 2, lostF := false, lostN := 0, seq := 0, stamp := 0, code := 2, data0 := 0, data1 := 0, data2 := 0 }

/-- The event queue as it starts: QUEUE_STARTED waits (R132, R147). -/
def EvQueue.start (now : Nat) : EvQueue := { entries := [⟨.started, now⟩], tail := 1, hwm := 1 }

/-- The event sources as the queue starts: source 240 has issued one record. -/
def EvSources.start : EvSources := { seq := [(240, 1)] }

/-- A word of the array that is fully programmed. -/
def OtpWord.full (w : Word) : OtpWord := ⟨w, w, w⟩

/-- The array as it leaves the factory (R568): generation 0 of slots 0 to 4 sealed, of slots 0 to 2 also locked, with their
check words over payloads of 0 but for the ordering code in slot 0. -/
def Otp.factory : Tbl OtpWord :=
  [(2, .full 0x0008), (32, .full 0xAFE3), (33, .full 0x5CA3), (168, .full 0x9929), (169, .full 0x5CA3), (304, .full 0x4C88),
   (305, .full 0x5CA3), (440, .full 0x0017), (441, .full 0x5C3A), (576, .full 0xF7EB), (577, .full 0x5C3A)]

/-- The hub after reset: the registers at their reset values, of which the register store lists none. -/
def Hub.reset : Hub := { ev := .start, otp := { words := Otp.factory } }

/-- The machine right after reset (R16): no command waits. -/
def State.reset : State := { pending := [], q := .start 0, hub := .reset }

end Sys2Proof.Machine
end

