-- ==== Sys2Proof/Machine/Ops.lean ====
section
/-! DEFINITION. Ops.lean: the named operations over tables, registers, flags, counters and events that every
meaning uses. -/

namespace Sys2Proof.Machine

/-! ### Bits and numbers -/

/-- Bits [hi:lo] of a number (R7). -/
def bits (n hi lo : Nat) : Nat := n / 2 ^ lo % 2 ^ (hi - lo + 1)

/-- Bit `i` of a number. -/
def bit (n i : Nat) : Bool := n.testBit i

/-- `n` with bits [hi:lo] replaced by `v`. -/
def putBits (n hi lo v : Nat) : Nat :=
  n / 2 ^ (hi + 1) * 2 ^ (hi + 1) + v % 2 ^ (hi - lo + 1) * 2 ^ lo + n % 2 ^ lo

/-- 1 for true. -/
def b2n (b : Bool) : Nat := if b then 1 else 0

/-- A flag at bit `i`. -/
def flagAt (b : Bool) (i : Nat) : Nat := if b then 2 ^ i else 0

/-- The word of a signed number, two's complement (R128). -/
def wordOf (i : Int) : Nat := (BitVec.ofInt 16 i).toNat

/-- The signed number that a word is in two's complement. -/
def s16 (n : Nat) : Int := (BitVec.ofNat 16 n).toInt

/-- The signed number that the low `w` bits are in two's complement. -/
def sgn (w n : Nat) : Int := (BitVec.ofNat w n).toInt

/-- `x` limited to lo .. hi. -/
def clampI (lo hi x : Int) : Int := max lo (min hi x)

/-- Saturation at a largest value. -/
def satN (top n : Nat) : Nat := min top n

/-- `n / d` rounded up. -/
def ceilDiv (n d : Nat) : Nat := (n + d - 1) / d

/-- `n / d` rounded to the nearest integer; which way a tie goes is not stated (R62). -/
def roundDiv (n : Int) (d : Nat) : Int :=
  let twice := 2 * (n % d)
  if twice < d then n / d
  else if twice = d then (if Config.tieUp n d then n / d + 1 else n / d)
  else n / d + 1

/-- `n / d` where the spec states no rounding: one of the two integers beside it. -/
def divOpen (n : Int) (d : Nat) : Int :=
  if n % d = 0 then n / d else if Config.roundUp n d then n / d + 1 else n / d

/-- One more bit of a CRC of width `w`, most significant bit first. -/
def crcBit (w poly c : Nat) (x : Bool) : Nat :=
  let d := 2 * c % 2 ^ w
  if bit c (w - 1) != x then d ^^^ poly else d

/-! ### Tables and lists -/

/-- The value a table holds for a number, `d k` where it lists none. -/
def tget {α : Type} (d : Nat → α) : Tbl α → Nat → α
  | [], k => d k
  | (k', v) :: r, k => if k = k' then v else tget d r k

/-- A table with the value of one number replaced, in canonical form. -/
def tput {α : Type} [DecidableEq α] (d : Nat → α) : Tbl α → Nat → α → Tbl α
  | [], k, v => if v = d k then [] else [(k, v)]
  | (k', v') :: r, k, v =>
    if k = k' then (if v = d k then tput d r k v else (k, v) :: r)
    else if k < k' ∧ v ≠ d k then (k, v) :: (k', v') :: r
    else (k', v') :: tput d r k v

/-- Canonical form of a table: numbers strictly rising, no value that an unlisted number reads as. -/
abbrev twf {α : Type} (d : Nat → α) (t : Tbl α) : Prop :=
  t.Pairwise (fun a b => a.1 < b.1) ∧ ∀ e ∈ t, e.2 ≠ d e.1

/-- Every value of a table changed, in canonical form. -/
def tmapv {α : Type} [DecidableEq α] (d : Nat → α) (f : α → α) (t : Tbl α) : Tbl α :=
  t.filterMap fun e => if f e.2 = d e.1 then none else some (e.1, f e.2)

/-- Element `i` of a list, `d` beyond its end. -/
def lget {α : Type} (d : α) (l : List α) (i : Nat) : α := l.getD i d

/-- A list with element `i` changed; unchanged beyond its end. -/
def lmod {α : Type} (l : List α) (i : Nat) (f : α → α) : List α := l.modify i f

/-- `f` applied to 0, 1, …, n - 1 in turn. -/
def iter {α : Type} (n : Nat) (f : Nat → α → α) (a : α) : α := (List.range n).foldl (fun x i => f i x) a

/-- Thing `i` of two, `d` beyond them. -/
def Two.get {α : Type} (d : α) (t : Two α) : Nat → α
  | 0 => t.e0 | 1 => t.e1 | _ => d

/-- Thing `i` of two changed. -/
def Two.mod {α : Type} (t : Two α) (i : Nat) (f : α → α) : Two α :=
  match i with
  | 0 => { t with e0 := f t.e0 } | 1 => { t with e1 := f t.e1 } | _ => t

/-- Thing `i` of four, `d` beyond them. -/
def Four.get {α : Type} (d : α) (t : Four α) : Nat → α
  | 0 => t.e0 | 1 => t.e1 | 2 => t.e2 | 3 => t.e3 | _ => d

/-- Thing `i` of four changed. -/
def Four.mod {α : Type} (t : Four α) (i : Nat) (f : α → α) : Four α :=
  match i with
  | 0 => { t with e0 := f t.e0 } | 1 => { t with e1 := f t.e1 } | 2 => { t with e2 := f t.e2 } | 3 => { t with e3 := f t.e3 }
  | _ => t

/-- All of four changed. -/
def Four.map {α : Type} (f : α → α) (t : Four α) : Four α := ⟨f t.e0, f t.e1, f t.e2, f t.e3⟩

/-- Does one of four satisfy a test. -/
def Four.any {α : Type} (t : Four α) (p : α → Bool) : Bool := p t.e0 || p t.e1 || p t.e2 || p t.e3

/-- Thing `i` of eight, `d` beyond them. -/
def Eight.get {α : Type} (d : α) (t : Eight α) : Nat → α
  | 0 => t.e0 | 1 => t.e1 | 2 => t.e2 | 3 => t.e3 | 4 => t.e4 | 5 => t.e5 | 6 => t.e6 | 7 => t.e7 | _ => d

/-- Thing `i` of eight changed. -/
def Eight.mod {α : Type} (t : Eight α) (i : Nat) (f : α → α) : Eight α :=
  match i with
  | 0 => { t with e0 := f t.e0 } | 1 => { t with e1 := f t.e1 } | 2 => { t with e2 := f t.e2 } | 3 => { t with e3 := f t.e3 }
  | 4 => { t with e4 := f t.e4 } | 5 => { t with e5 := f t.e5 } | 6 => { t with e6 := f t.e6 } | 7 => { t with e7 := f t.e7 }
  | _ => t

/-- Eight things by their numbers. -/
def Eight.ofFn {α : Type} (f : Nat → α) : Eight α := ⟨f 0, f 1, f 2, f 3, f 4, f 5, f 6, f 7⟩

/-- The first number below `n` that satisfies a test. -/
def firstBelow (n : Nat) (p : Nat → Bool) : Option Nat := (List.range n).find? p

/-- A CRC over bytes, each most significant bit first. -/
def crcBytes (w poly init : Nat) (b : List Byte) : Nat :=
  b.foldl (fun c x => iter 8 (fun i c => crcBit w poly c (x.getMsbD i)) c) init

/-! ### The register store -/

/-- The stored value of a register word (R646). -/
def Hub.reg (h : Hub) (k : Nat) : Nat := (tget resetWord h.regs k).toNat

/-- A register word stored. -/
def Hub.setReg (h : Hub) (k n : Nat) : Hub := { h with regs := tput resetWord h.regs k (BitVec.ofNat 16 n) }

/-- A field of a register word. -/
def Hub.fld (h : Hub) (k hi lo : Nat) : Nat := bits (h.reg k) hi lo

/-- A field of a register word stored. -/
def Hub.setFld (h : Hub) (k hi lo v : Nat) : Hub := h.setReg k (putBits (h.reg k) hi lo v)

/-- A field of `m` consecutive words, lowest word first (R9, R113). -/
def Hub.regN (h : Hub) (k : Nat) : Nat → Nat
  | 0 => 0
  | m + 1 => h.reg k + 65536 * Hub.regN h (k + 1) m

/-- A field of `m` consecutive words stored. -/
def Hub.setRegN (h : Hub) (k : Nat) : Nat → Nat → Hub
  | 0, _ => h
  | m + 1, n => Hub.setRegN (h.setReg k (n % 65536)) (k + 1) m (n / 65536)

/-- The value in force of a word that acts later than it is stored (R15, R9). -/
def Hub.eff (h : Hub) (k : Nat) : Nat := (tget resetWord h.force k).toNat

/-- The value in force of a field of `m` words. -/
def Hub.effN (h : Hub) (k : Nat) : Nat → Nat
  | 0 => 0
  | m + 1 => h.eff k + 65536 * Hub.effN h (k + 1) m

/-- A stored word takes effect. -/
def Hub.enforce (h : Hub) (k : Nat) : Hub := { h with force := tput resetWord h.force k (tget resetWord h.regs k) }

/-- A refused word returns to the value in force (R646). -/
def Hub.revert (h : Hub) (k : Nat) : Hub := { h with regs := tput resetWord h.regs k (tget resetWord h.force k) }

/-- A word stored and in force at once. -/
def Hub.setEff (h : Hub) (k n : Nat) : Hub := (h.setReg k n).enforce k

/-- A field of `m` words stored and in force at once. -/
def Hub.setEffN (h : Hub) (k : Nat) : Nat → Nat → Hub
  | 0, _ => h
  | m + 1, n => Hub.setEffN (h.setEff k (n % 65536)) (k + 1) m (n / 65536)

/-- A saturating counter of `m` words counts `n` more. -/
def Hub.addSat (h : Hub) (k m n : Nat) : Hub := h.setRegN k m (satN (65536 ^ m - 1) (h.regN k m + n))

/-- A wrapping counter of `m` words counts `n` more. -/
def Hub.addWrap (h : Hub) (k m n : Nat) : Hub := h.setRegN k m ((h.regN k m + n) % 65536 ^ m)

/-- The row's writable bits of a stored word replaced (R17). -/
def Hub.store (h : Hub) (sp o w : Nat) : Hub :=
  match findRow (regRows sp) o with
  | none => h
  | some r => h.setReg (spc sp o) ((h.reg (spc sp o) &&& (0xFFFF ^^^ r.wmask)) ||| (w &&& r.wmask))

/-- The written word of a field that is not yet in effect, if there is one (R9). -/
def Hub.staged (h : Hub) (k : Nat) : Option Word := tget (fun _ => none) h.stage k

/-- A word of a field written and held until the highest word is written (R9). -/
def Hub.hold (h : Hub) (k n : Nat) : Hub := { h with stage := tput (fun _ => none) h.stage k (some (BitVec.ofNat 16 n)) }

/-- A held word is taken up. -/
def Hub.unstage (h : Hub) (k : Nat) : Hub := { h with stage := tput (fun _ => none) h.stage k none }

/-! ### Flags with an occurrence count (R117 to R121) -/

/-- Hardware sets a flag: the count adds 1 modulo 16 (R118). -/
def Hub.setFlag (h : Hub) (k : Nat) : Hub := h.setReg k (0x8000 + (h.reg k % 16 + 1) % 16)

/-- Is a flag set. -/
def Hub.flag (h : Hub) (k : Nat) : Bool := bit (h.reg k) 15

/-- Does a written word clear the flag: [15] written 1, the flag set and the count equal (R119). -/
def Hub.clears (h : Hub) (k w : Nat) : Bool := bit w 15 && h.flag k && w % 16 == h.reg k % 16

/-- A write to a CC register: the new hub, and whether an ignored clear sets CCI (R119). -/
def Hub.writeFlag (h : Hub) (k w : Nat) : Hub × Bool :=
  if h.clears k w then (h.setReg k (h.reg k % 16), false) else (h, bit w 15)

/-! ### Free values -/

/-- The next free value: nothing constrains it. -/
def Hub.freeVal (h : Hub) : Nat := Config.freeNat h.free

/-- The hub with that free value taken. -/
def Hub.tookFree (h : Hub) : Hub := { h with free := h.free + 1 }

/-! ### Issuing events (R131, R141, R142) -/

/-- The configuration word of a source (R141, R148). -/
def evCfg (src : Nat) : Nat := spc 0x02 (0x2000 + src)

/-- DOM0's tick counter, which stamps every record (R26, R133). -/
def Hub.stamp (h : Hub) : BitVec 32 := h.clk.doms.e0.tick

/-- Does an event say that a write was refused when it was judged (R598). -/
def isRefusal (src code : Nat) : Bool :=
  if src < 16 then code == 0x202 || code == 0x402 || code == 0x20B
  else if src < 32 then code == 4
  else match src with
    | 96 => code == 8 || code == 10
    | 97 => code == 8 || code == 10
    | 105 => code == 1
    | 85 => code == 4
    | 87 => code == 1
    | 112 => code == 6
    | 113 => code == 6
    | 114 => code == 3
    | 115 => code == 3
    | 128 => code == 4 || code == 5
    | 129 => code == 4 || code == 5
    | 160 => code == 1 || code == 2
    | 164 => code == 1
    | 176 => code == 4 || code == 5
    | 177 => code == 4 || code == 5
    | 217 => code == 2
    | _ => (101 ≤ src && src ≤ 104 && code == 2) || (120 ≤ src && src ≤ 127 && code == 3) || (136 ≤ src && src ≤ 143 && code == 4)

/-- A refusal is counted, whether or not its event is issued. -/
def Hub.noteRefusal (h : Hub) (src code : Nat) : Hub :=
  if isRefusal src code then { h with cp := { h.cp with refused := h.cp.refused + 1 } } else h

/-- The record that a source issues: its URG of the moment, its next sequence number, DOM0's counter (R129, R131, R133). -/
def Hub.recordOf (h : Hub) (src code d0 d1 d2 : Nat) : EvRecord :=
  { src := BitVec.ofNat 8 src, urg := BitVec.ofNat 2 (h.reg (evCfg src)), lostF := false, lostN := 0,
    seq := tget (fun _ => (0 : Word)) h.ev.seq src, stamp := h.stamp, code := BitVec.ofNat 16 code,
    data0 := BitVec.ofNat 16 d0, data1 := BitVec.ofNat 16 d1, data2 := BitVec.ofNat 16 d2 }

/-- A record is issued: it takes its number (R131) and waits for its entry into the queue (R135). -/
def EvSources.take (e : EvSources) (src : Nat) (r : EvRecord) : EvSources :=
  { e with seq := tput (fun _ => 0) e.seq src (r.seq + 1), inflight := e.inflight ++ [r] }

/-- A source issues a record: suppressed while the source is masked (R141). -/
def Hub.issue (h : Hub) (src code : Nat) (d0 d1 d2 : Nat) : Hub :=
  let h := h.noteRefusal src code
  if bit (h.reg (evCfg src)) 2 then h else { h with ev := h.ev.take src (h.recordOf src code d0 d1 d2) }

/-- The stated length of an event's rate limit (R54, R87, R123, R177, R258, R301, R327, R362, R402, R427, R462, R480, R503,
R524, R555, R606): 1,000 ticks of the engine's own domain or of DOM0, or a number of ms of reference time. `sub` 0x10000 of a
far request is a read of the DRAM window. -/
inductive RateLimit where
  | ticks (dom : Nat)
  | time (ms : Nat)
deriving DecidableEq, Repr

/-- The rate limit of an event of source `src`. -/
def Hub.rateLimit (h : Hub) (sub src code : Nat) : RateLimit :=
  if src < 16 then .ticks (if code = 0x102 ∨ code = 0x301 then h.fld (eng src 0x40100) 9 8 else 0)
  else if src < 32 then (if sub = 0x10000 then .time 1000 else .ticks 0)
  else if src = 242 then .ticks 0
  else if 64 ≤ src ∧ src < 80 then .time 10
  else if (src = 112 ∨ src = 113) ∧ code = 4 then .time 100
  else if src = 165 ∨ src = 166 ∨ src = 228 then .time 10000
  else if src = 169 ∨ (src = 186 ∧ (code = 4 ∨ code = 5)) then .time 3600000
  else .time 1000

/-- Is a window that of an event. -/
def RateWindow.is (w : RateWindow) (sub src code : Nat) : Bool := w.src == src && w.code == code && w.sub == sub

/-- Is the window of an event open. -/
def Hub.windowOpen (h : Hub) (sub src code : Nat) : Bool := h.ev.windows.any fun w => w.is sub src code

/-- The window that an issued record opens. -/
def Hub.openWindow (h : Hub) (sub src code : Nat) : RateWindow :=
  match h.rateLimit sub src code with
  | .ticks d => { src := src, code := code, sub := sub, dom := some d }
  | .time _ => { src := src, code := code, sub := sub }

/-- Has a window reached its length: the ticks counted and the reference time counted, at 48 ticks per ms or, for
FABRIC_STALL, at 50, reach the 1,000 ticks; or the time is over (R142, R54). -/
def Hub.windowOver (h : Hub) (w : RateWindow) : Bool :=
  match w.dom with
  | some _ => decide (1000 ≤ w.ticks + (if w.src = 242 then 50 else 48) * w.ms)
  | none => match h.rateLimit w.sub w.src w.code with
    | .time n => decide (n ≤ w.ms)
    | .ticks _ => true

/-- The open windows count a tick of a domain. -/
def EvSources.countTick (e : EvSources) (d : Nat) : EvSources :=
  { e with windows := e.windows.map fun w => if w.dom = some d then { w with ticks := w.ticks + 1 } else w }

/-- The open windows count a millisecond of reference time: those stated in time, and those of a domain that produces no
ticks. -/
def EvSources.countMs (e : EvSources) (runs : Nat → Bool) : EvSources :=
  { e with windows := e.windows.map fun w => if (w.dom.map runs).getD false then w else { w with ms := w.ms + 1 } }

/-- The window of an event ends, where its length is reached. -/
def Hub.endWindow (h : Hub) (sub src code : Nat) : Hub :=
  { h with ev := { h.ev with windows := h.ev.windows.filter fun w => !(w.is sub src code && h.windowOver w) } }

/-- A rate-limited event: while its window is open it is suppressed and SUPCNT counts it; otherwise it is issued and
opens the window (R142). A masked event is neither issued nor counted (R141). -/
def Hub.issueLimited (h : Hub) (sub src code : Nat) (d0 d1 d2 : Nat) : Hub :=
  if bit (h.reg (evCfg src)) 2 then h.noteRefusal src code
  else if h.windowOpen sub src code then (h.noteRefusal src code).addSat (spc 0x02 (0x2300 + 2 * src)) 2 1
  else
    let h := h.issue src code d0 d1 d2
    { h with ev := { h.ev with windows := h.ev.windows ++ [h.openWindow sub src code] } }

/-! ### Window failures (R116) -/

/-- The window access being judged fails; the first failure counts. -/
def Hub.failWin (h : Hub) (cause off : Nat) : Hub :=
  if h.cp.fail.isNone then { h with cp := { h.cp with fail := some (cause, off) } } else h

/-- The first failure of a frame sets CP_WSTAT and CP_WFAIL of its path. -/
def CpPath.fails (p : CpPath) (cause off : Nat) : CpPath :=
  if p.wstat = 0 then { p with wstat := BitVec.ofNat 3 cause, wfail := BitVec.ofNat 32 off } else p

/-- A failure noted in the bank of a path: 0 the serial port, 1 the tunnel. -/
def Hub.noteFail (h : Hub) (path : Nat) : Hub :=
  match h.cp.fail with
  | none => h
  | some (c, off) =>
    if path = 1 then { h with cp := { h.cp with fail := none, tunnel := h.cp.tunnel.fails c off } }
    else { h with cp := { h.cp with fail := none, serial := h.cp.serial.fails c off } }

/-- The path that owns writes (R108). -/
def Hub.owner (h : Hub) : Nat := h.fld 0x09 0 0

/-! ### Accesses that the fabric watchdog ends (R53, R647) -/

/-- Who makes an access, as Control.stalls tells them apart: 0 the serial port, 1 the tunnel, 2 the boot image, and 16 + r for
the block that issues events as source r. -/
def stallPath (requester : Nat) : Nat :=
  if requester = 0x100 then 0 else if requester = 0x101 then 1 else if requester = 241 then 2 else 16 + requester

/-- The next access of a requester over a link is ended. -/
def Hub.awaitStall (h : Hub) (kind i requester : Nat) : Hub :=
  { h with cp := { h.cp with stalls := h.cp.stalls ++ [(kind, i, stallPath requester)] } }

/-- An access of a block over a link: whether the watchdog ends it, and the hub after it. -/
def Hub.stallTaken (h : Hub) (kind i requester : Nat) : Hub × Bool :=
  let k := (kind, i, stallPath requester)
  if h.cp.stalls.contains k then ({ h with cp := { h.cp with stalls := h.cp.stalls.erase k } }, true) else (h, false)

/-! ### Outcomes -/

/-- The fabric runs: before it starts, and after the logic has stopped, nothing but the supply acts (R24, R591, R603). -/
def State.live (s : State) : Bool := s.hub.pwr.running

/-- A command that changes the hub while the fabric runs: the next state, the event queue and the waiting commands as they
are. -/
def State.onHub (s : State) (f : Hub → Hub) : Host.Outcome State Fault Refusal :=
  .next { s with hub := if s.live then f s.hub else s.hub }

/-- A command that is a write by the path that owns writes: a failure shows in that path's window bank. -/
def State.onWrite (s : State) (f : Hub → Hub) : Host.Outcome State Fault Refusal :=
  s.onHub fun h => (f h).noteFail s.hub.owner

/-- A happening of the supply, which acts whether or not the fabric runs (R24). -/
def State.onSupply (s : State) (f : Hub → Hub) : Host.Outcome State Fault Refusal := .next { s with hub := f s.hub }

end Sys2Proof.Machine
end

