-- ==== Sys2Proof/Machine/Clock.lean ====
section
/-! DEFINITION. Clock.lean: the synthesizer cores, references, hop table, domains and clock outputs (R59 to R89). -/

namespace Sys2Proof.Machine

/-! ### Keys -/

/-- Word `w` of hop-table entry `n` of core `c` (R89). -/
def kHop (c n w : Nat) : Nat := spc 0x24 (0x40 * c + 8 * n + w)
/-- Word `w` of clock output `m`. -/
def kClko (m w : Nat) : Nat := spc 0x24 (0x100 + 4 * m + w)
/-- GAPCNT of a domain. -/
def kGapCnt (d : Nat) : Nat := spc 0x24 (0x205 + 8 * d)
/-- Word `w` of reference `r`: 0 state and class, 1 offset, 2 drift, 3 time remaining. -/
def kRef (r w : Nat) : Nat := spc 0x24 (0x220 + 4 * r + w)
/-- Word `w` of core `c`: 1 FOFS, 2 HOLDFOFS, 3 PHERR, 4 COARSE, 5 FINE, 6 SEARCHCNT. -/
def kCore (c w : Nat) : Nat := spc 0x24 (0x240 + 8 * c + w)
/-- Flag `i` of the clock: 0 HOLD, 1 UNLOCK, 2 REFLOSS, 3 GAP, 4 REFUSE. -/
def kCksFlag (i : Nat) : Nat := spc 0x24 (0x280 + i)

/-! ### Cores -/

/-- Core `c`. -/
def Hub.core (h : Hub) (c : Nat) : ClkCore := h.clk.cores.get {} c

/-- Core `c` changed. -/
def Hub.modCore (h : Hub) (c : Nat) (f : ClkCore → ClkCore) : Hub :=
  { h with clk := { h.clk with cores := h.clk.cores.mod c f } }

/-- Domain `d`. -/
def Hub.dom (h : Hub) (d : Nat) : Domain := h.clk.doms.get {} d

/-- Domain `d` changed. -/
def Hub.modDom (h : Hub) (d : Nat) (f : Domain → Domain) : Hub :=
  { h with clk := { h.clk with doms := h.clk.doms.mod d f } }

/-- Clock output `m`. -/
def Hub.clko (h : Hub) (m : Nat) : ClkOut := h.clk.outs.get {} m

/-- Clock output `m` changed. -/
def Hub.modClko (h : Hub) (m : Nat) (f : ClkOut → ClkOut) : Hub :=
  { h with clk := { h.clk with outs := h.clk.outs.mod m f } }

/-- Code of a core state (R67). -/
def CoreSt.code : CoreSt → Nat
  | .off => 0 | .search => 1 | .free => 2 | .track => 3 | .slew => 4 | .hold => 5 | .hop => 6

/-- States in which a core is locked and produces ticks (R67). -/
def CoreSt.locked : CoreSt → Bool
  | .free | .track | .slew | .hold => true
  | .off | .search | .hop => false

/-- The family of a rate code: false 48 kHz, true 44.1 kHz (R59); code 7 names no rate. -/
def rateFam (rate : Nat) : Option Bool :=
  if rate = 3 ∨ rate = 5 then some true else if rate < 7 then some false else none

/-- Sample rate in Hz of a rate code (R88). -/
def rateHz (rate : Nat) : Nat := [8000, 16000, 32000, 44100, 48000, 88200, 96000].getD rate 0

/-- Tick budget at a rate: min(8,192, 480,000,000 / fs - 16), rounded down (R33, R34). -/
def tickBudget (rate : Nat) : Nat := min 8192 (480000000 / rateHz rate - 16)

/-- Nominal MULT of a family (R59). -/
def multNominal (fam : Bool) : Nat := if fam then 0x0759999A else 0x08000000

/-- Is VALID of a hop entry set (R74). -/
def Hub.hopValid (h : Hub) (c n : Nat) : Bool := bit (h.reg (kHop c n 2)) 15

/-- FAM of a hop entry. -/
def Hub.hopFam (h : Hub) (c n : Nat) : Bool := bit (h.reg (kHop c n 2)) 12

/-- The temperature term TCOEF * (Tj - 25) / 8, rounded to the nearest integer, with the TCOEF that the core loaded
(R62, R74, R75). -/
def Hub.tempTerm (h : Hub) (c : Nat) : Int := roundDiv ((h.core c).tcoef * (h.clk.tj - 25)) 8

/-- A 10-bit fine code; where a corrected value leaves it the spec states none (R62, R75). -/
def fineCode (x : Int) : Nat := if 0 ≤ x ∧ x < 1024 then x.toNat else Config.fineOutside x % 1024

/-- The corrected fine code of the FINE and TCOEF that the core loaded (R62, R74). -/
def Hub.fineTarget (h : Hub) (c : Nat) : Nat := fineCode ((h.core c).fine + h.tempTerm c)

/-- Core `c` loads the VALID, COARSE, FINE and TCOEF of entry `n` as they stand (R63, R74, R76, R78). -/
def Hub.loadCodes (h : Hub) (c n : Nat) : Hub :=
  let h := h.modCore c fun k => { k with valid := h.hopValid c n, fine := h.fld (kHop c n 3) 9 0, tcoef := s16 (h.reg (kHop c n 4)) }
  ((h.setReg (kCore c 4) (h.fld (kHop c n 2) 11 0)).setReg (kCore c 5) (h.fineTarget c)).setReg (kCore c 1) 0
    |>.setReg (kCore c 3) 0

/-- Core `c` takes FAM and MULT of entry `n`: an accepted hop, or start-up (R74). -/
def Hub.loadFamily (h : Hub) (c n : Nat) : Hub :=
  h.modCore c fun k => { k with entry := n, fam := h.hopFam c n, mult := BitVec.ofNat 32 (h.effN (kHop c n 0) 2) }

/-- A hop, a relock or a restart of the core is in progress, or a hop is held (R64, R77). -/
def ClkCore.busy (k : ClkCore) : Bool := k.hopHeld.isSome || k.hopTo.isSome || k.hopping || k.relock || k.restart

/-- The domains that are bound to a core. -/
def Hub.boundTo (h : Hub) (c : Nat) : List Nat := (List.range 4).filter fun d => (h.dom d).core == c

/-- The first enabled domain that is bound to a core. DESIGN CHOICE (log 124): a domain whose disable is written and waits
for its next tick is still enabled here, and for cause 2 of R77. -/
def Hub.enabledOn (h : Hub) (c : Nat) : Option Nat := (h.boundTo c).find? fun d => (h.dom d).en

/-- A clock output stops: it completes its high phase, or stops at once if it is low (R86). -/
def ClkOut.stop (o : ClkOut) (high : Bool) : ClkOut := { o with run := false, stopping := o.stopping || (o.run && high) }

/-- The outputs of a core stop (R78 step 2); where each stands in its period is open. -/
def Hub.stopOutputs (h : Hub) (c : Nat) : Hub :=
  iter 8 (fun m h => if (h.dom (h.clko m).dom).core = c ∧ (h.clko m).run then
    (h.modClko m fun o => o.stop (bit h.freeVal 0)).tookFree else h) h

/-- The outputs of a core that are enabled start, with the settings written (R78 step 4, R86). -/
def Hub.startOutputs (h : Hub) (c : Nat) : Hub :=
  iter 8 (fun m h =>
    let o := h.clko m
    if (h.dom o.dom).core = c ∧ o.en ∧ ¬ o.run ∧ ¬ o.stopping then
      h.modClko m fun o => { o with run := true, n := h.reg (kClko m 0), half := bit (h.reg (kClko m 1)) 0, delay := h.reg (kClko m 2) }
    else h) h

/-! ### References and their selection (R65 to R71) -/

/-- State of a reference: 0 ABSENT, 1 QUALIFYING, 2 QUALIFIED. -/
def Hub.refState (h : Hub) (r : Nat) : Nat := h.fld (kRef r 0) 1 0

/-- Is a reference usable by a core: QUALIFIED, its rate class the core's family; REF0 has the class of the family
that uses it (R65, R66). -/
def Hub.refUsable (h : Hub) (c r : Nat) : Bool :=
  decide (r < 3) && h.refState r == 2 && (r == 0 || h.fld (kRef r 0) 3 2 == (if (h.core c).fam then 2 else 1))

/-- The priority list of a core (R88): three entries, 3 for none. -/
def Hub.refList (h : Hub) (c : Nat) : List Nat :=
  let w := if c = 0 then h.fld 0x34 5 0 else h.fld 0x34 13 8
  [bits w 1 0, bits w 3 2, bits w 5 4]

/-- The candidate of a core: the first usable reference of its list (R68). -/
def Hub.candidate (h : Hub) (c : Nat) : Option Nat := (h.refList c).find? fun r => h.refUsable c r

/-- Does reference `a` stand higher in the core's list than `b`. -/
def Hub.higher (h : Hub) (c a b : Nat) : Bool := decide ((h.refList c).idxOf a < (h.refList c).idxOf b)

/-- A steering offset in 1/128 ppm within ±250 ppm (R60). -/
def steer (x : Int) : Int := clampI (-32000) 32000 x

/-- A switch is committed: the phase error `e` is measured in units of 4 ns, and the core slews, its offset within the range
of R60 (R69). -/
def Hub.commitSwitch (h : Hub) (c r : Nat) (e : Int) : Hub :=
  let from_ := (h.core c).ref.getD 3
  let ppm := h.fld 0x35 15 8
  let ms := satN 0xFFFF (ceilDiv (4 * e.natAbs) ppm)
  let off := steer (s16 (h.reg (kRef r 1)) + (if Config.slewUp e then 128 * (ppm : Int) else -(128 * (ppm : Int))))
  let h := h.modCore c fun k => { k with st := .slew, ref := some r }
  ((h.setReg (kCore c 3) (wordOf e)).setReg (kCore c 1) (wordOf off)).issue (96 + c) 4 (from_ + 16 * r) (wordOf e) ms

/-- The core enters HOLD on the mean steering offset of the last HAVG seconds, within the range of R60 (R68, R73). -/
def Hub.enterHold (h : Hub) (c : Nat) (held : Int) : Hub :=
  let lost := (h.core c).ref.getD 3
  let f := wordOf (steer held)
  let h := h.modCore c fun k => { k with st := .hold, ref := none }
  (((h.setReg (kCore c 2) f).setReg (kCore c 1) f).setFlag (kCksFlag 0)).issue (96 + c) 6 lost f 0

/-- A core evaluates its candidates (R68). DESIGN CHOICE (log 129): a hop that is accepted and waits for its base tick changes
nothing here; a switch committed meanwhile is cut at that base tick. -/
def Hub.evalRefs (h : Hub) (c : Nat) (e held : Int) : Hub :=
  match (h.core c).st with
  | .free | .hold =>
    match h.candidate c with
    | some r => h.commitSwitch c r e
    | none => h
  | .track =>
    let r := (h.core c).ref.getD 3
    match h.candidate c with
    | some r' =>
      if ¬ h.refUsable c r then h.commitSwitch c r' e
      else if h.higher c r' r ∧ bit (h.reg 0x34) 15 then h.commitSwitch c r' e
      else h
    | none => if h.refUsable c r then h else h.enterHold c held
  | .off | .search | .slew | .hop => h

/-- Both cores evaluate their candidates. -/
def Hub.evalBoth (h : Hub) (m : ClkMeas) : Hub :=
  (h.evalRefs 0 m.eA.toInt m.heldA.toInt).evalRefs 1 m.eB.toInt m.heldB.toInt

/-- Core `c` evaluates with its own measurements. -/
def Hub.evalOne (h : Hub) (c : Nat) (m : ClkMeas) : Hub :=
  if c = 0 then h.evalRefs 0 m.eA.toInt m.heldA.toInt else h.evalRefs 1 m.eB.toInt m.heldB.toInt

/-- Does the source of a reference present a valid signal: the servo in SLAVE with convergence, an AES3 input enabled and
locked (R65, R322, R411). -/
def Hub.refPresent (h : Hub) (r : Nat) : Bool :=
  match r with
  | 0 => bit (h.reg 0x3A) 15
  | i + 1 => (h.aesIn.get {} i).en && (h.aesIn.get {} i).lock

/-- The clock class of an AES3 rate class: 32, 48 and 96 kHz in family 0, 44.1 and 88.2 kHz in family 1 (R411). -/
def aesFamily (cls : Nat) : Nat := if cls = 0 then 0 else if cls = 2 ∨ cls = 4 then 2 else 1

/-- The rate class of a reference: of an AES3 input as measured; REF0 has the class of the family that uses it, and which
class it shows is open (R65, log 130). -/
def Hub.refClass (h : Hub) (r : Nat) : Hub × Nat :=
  match r with
  | 0 => (h.tookFree, h.freeVal % 3)
  | i + 1 => (h, aesFamily (h.aesIn.get {} i).cls)

/-- A valid signal appears on an ABSENT reference: QUALIFYING, its timer at zero, and candidates are evaluated (R66, R68). -/
def Hub.refValid (h : Hub) (r : Nat) (off drift : Word) (m : ClkMeas) : Hub :=
  if h.refState r ≠ 0 ∨ h.refPresent r = false then h
  else
    let (h, cls) := h.refClass r
    (((h.setReg (kRef r 0) (4 * cls + 1)).setReg (kRef r 1) off.toNat).setReg (kRef r 2) drift.toNat
      |>.setReg (kRef r 3) (h.fld 0x35 7 0)).evalBoth m

/-- The timer reaches QTIME: QUALIFIED, and candidates are evaluated (R66, R68). -/
def Hub.refQualify (h : Hub) (r : Nat) (off drift : Word) (m : ClkMeas) : Hub :=
  if h.refState r ≠ 1 then h
  else
    let cls := h.fld (kRef r 0) 3 2
    let h := ((h.setFld (kRef r 0) 1 0 2).setReg (kRef r 1) off.toNat).setReg (kRef r 2) drift.toNat |>.setReg (kRef r 3) 0
    (h.issue (98 + r) 1 cls off.toNat 0).evalBoth m

/-- A reference breaks a cause of R66, 1 to 4, and returns to ABSENT; REFLOSS where it was in use. DESIGN CHOICE (log 125): the
target of a slew counts as the reference in use. -/
def Hub.refLose (h : Hub) (r cause : Nat) (off drift : Word) (m : ClkMeas) : Hub :=
  if h.refState r = 0 ∨ cause = 0 then h
  else
    let used := h.clk.cores.e0.ref == some r || h.clk.cores.e1.ref == some r
    let h := ((h.setReg (kRef r 0) 0).setReg (kRef r 1) off.toNat).setReg (kRef r 2) drift.toNat |>.setReg (kRef r 3) 0
    let h := h.issueLimited r (98 + r) 2 cause off.toNat drift.toNat
    (if used then h.setFlag (kCksFlag 2) else h).evalBoth m

/-- Free words, from the next free value on. -/
def Hub.freeWord (h : Hub) (i : Nat) : Word := BitVec.ofNat 16 (Config.freeNat (h.free + i))

/-- What the clock measures where the command that changes a reference brings no measurement: free. -/
def Hub.freeMeas (h : Hub) : ClkMeas := ⟨h.freeWord 0, h.freeWord 1, h.freeWord 2, h.freeWord 3⟩

/-- The source of a reference begins to present a valid signal (R65, R322, R411); offset and drift are measured. -/
def Hub.refAppears (h : Hub) (r : Nat) : Hub :=
  ({ h with free := h.free + 6 } : Hub).refValid r (h.freeWord 4) (h.freeWord 5) h.freeMeas

/-- The source of a reference no longer presents a valid signal, or changes its rate class (R66, R322, R411). -/
def Hub.refGone (h : Hub) (r cause : Nat) : Hub :=
  ({ h with free := h.free + 6 } : Hub).refLose r cause (h.freeWord 4) (h.freeWord 5) h.freeMeas

/-! ### Hops, stops, relocks and restarts (R61 to R64, R74 to R78) -/

/-- Why a hop request is refused (R77), `held` for a request judged again when the slew that held it ends; a domain whose
disable waits counts as enabled (log 124). -/
def Hub.hopCause (h : Hub) (c n : Nat) (held : Bool) : Option Nat :=
  let mult := h.effN (kHop c n 0) 2
  let nom := multNominal (h.hopFam c n)
  if ¬ h.hopValid c n then some 1
  else if (h.boundTo c).any fun d => (h.dom d).en && rateFam (h.dom d).rate != some (h.hopFam c n) then some 2
  else if 2000 * (mult - nom) > nom ∨ 2000 * (nom - mult) > nom then some 3
  else if ¬ held ∧ (h.core c).busy then some 4
  else if (h.core c).st = .off then some 5
  else none

/-- A hop request is judged: refused with its cause, held during a slew, or accepted for the next base tick (R77). -/
def Hub.judgeHop (h : Hub) (c n : Nat) (held : Bool) : Hub :=
  match h.hopCause c n held with
  | some cause => ((h.setFlag (kCksFlag 4)).modCore c fun k => { k with hopHeld := if held then none else k.hopHeld }).issue (96 + c) 8 n cause 0
  | none =>
    if (h.core c).st = .slew then h.modCore c fun k => { k with hopHeld := some n }
    else h.modCore c fun k => { k with hopTo := some n, hopHeld := none }

/-- The entry that CKS_HOP reads for a core: of the hop held or in progress, else the one in force (R77). -/
def ClkCore.entryRead (k : ClkCore) : Nat := (k.hopHeld.orElse fun _ => k.hopTo).getD k.entry

/-- A write of an entry and GO to CKS_HOP (R77). -/
def Hub.hopRequest (h : Hub) (c n : Nat) (go : Bool) : Hub :=
  if n ≠ (h.core c).entryRead ∨ go then h.judgeHop c n false else h

/-- A stop is refused: an enabled domain is bound, or a hop, relock or restart is in progress or held (R64). -/
def Hub.stopCause (h : Hub) (c : Nat) : Option (Nat × Nat) :=
  match h.enabledOn c with
  | some d => some (1, d)
  | none => if (h.core c).busy then some (2, 0xFFFF) else none

/-- STOP_REFUSED (R64). -/
def Hub.refuseStop (h : Hub) (c : Nat) (why : Nat × Nat) : Hub :=
  ((h.setFlag (kCksFlag 4)).modCore c fun k => { k with stopReq := false }).issue (96 + c) 10 why.1 why.2 0

/-- A write of 1 to a CKS_STOP bit (R64). -/
def Hub.stopRequest (h : Hub) (c : Nat) : Hub :=
  if (h.core c).st = .off ∨ (h.core c).stopReq then h
  else match h.stopCause c with
    | some why => h.refuseStop c why
    | none => h.modCore c fun k => { k with stopReq := true }

/-- A write of 0 before the base tick withdraws a requested stop (R64). -/
def Hub.stopWithdraw (h : Hub) (c : Nat) : Hub := h.modCore c fun k => { k with stopReq := false }

/-- A write of 0 to the bit of an OFF core restarts it (R64). -/
def Hub.coreRestart (h : Hub) (c : Nat) : Hub :=
  if (h.core c).st ≠ .off then h
  else (h.modCore c fun k => { k with st := .hop, restart := true }).loadCodes c (h.core c).entry

/-- A core loads its entry 0 at start-up (R76). -/
def Hub.coreStart (h : Hub) (c : Nat) : Hub :=
  if (h.core c).st ≠ .off then h
  else ((h.loadFamily c 0).modCore c fun k => { k with st := .hop }).loadCodes c 0

/-- The core's search of R61 starts: no valid codes, or lock not confirmed in time. -/
def Hub.searchStart (h : Hub) (c : Nat) : Hub :=
  if (h.core c).st ≠ .hop then h
  else
    let n := (h.core c).entry
    let h := (h.modCore c fun k => { k with st := .search, searching := true }).addWrap (kCore c 6) 1 1
    h.issue (96 + c) 2 n (if (h.core c).valid then 2 else 1) (h.reg (kCore c 6))

/-- A lock found by search: its codes apply, and FINE of the core is the code found less the temperature term; while CKS_LEARN
is 1 the codes are written back into the entry in use (R75). DESIGN CHOICE (log 128): while CKS_LEARN is 0 the recomputation of
R62 starts from the code found too. -/
def Hub.learnCodes (h : Hub) (c coarse fine : Nat) : Hub :=
  let n := (h.core c).entry
  let f := fineCode ((fine % 1024 : Int) - h.tempTerm c)
  let h := ((h.setReg (kCore c 4) (coarse % 4096)).setReg (kCore c 5) (fine % 1024)).modCore c fun k => { k with fine := f }
  if h.reg (spc 0x24 0x273) = 1 then
    (h.setReg (kHop c n 2) (putBits (putBits (h.reg (kHop c n 2)) 11 0 coarse) 15 15 1)).setReg (kHop c n 3) f
  else h

/-- Domain `d` resumes after a hop or a relock, its counter advanced by the ticks skipped (R82). -/
def Hub.resumeDom (h : Hub) (c d skipped : Nat) : Hub :=
  let x := (h.dom d).tick.toNat + 2 ^ 32 * (h.dom d).epoch.toNat + skipped
  let h := h.modDom d fun m => { m with paused := false, run := true, lastTick := false,
                                        tick := BitVec.ofNat 32 x, epoch := BitVec.ofNat 48 (x / 2 ^ 32) }
  ((h.addSat (kGapCnt d) 2 skipped).setFlag (kCksFlag 3)).issue (101 + d) 3 (skipped % 65536) (skipped / 65536) c

/-- The domains and outputs that a hop or relock of the core stopped resume (R63, R78). -/
def Hub.resumeCore (h : Hub) (c : Nat) (skips : List Nat) : Hub :=
  (iter 4 (fun d h => if (h.dom d).core = c ∧ (h.dom d).paused then h.resumeDom c d (lget 0 skips d) else h) h).startOutputs c

/-- A held hop is judged as its slew ends; where it is refused the core evaluates its candidates (R70, R77). -/
def Hub.heldHop (h : Hub) (c n : Nat) (m : ClkMeas) : Hub :=
  let h := h.judgeHop c n true
  if (h.core c).hopTo.isSome then h else h.evalOne c m

/-- Can the core lock: with valid codes, or by its search (R61). -/
def ClkCore.locks (k : ClkCore) : Bool := k.st == .search || (k.st == .hop && k.valid)

/-- A core that is not hopping is locked: LOCKED, FREE, and candidates are evaluated (R61, R63, R64, R76). -/
def Hub.coreLock (h : Hub) (c coarse fine : Nat) (skips : List Nat) (m : ClkMeas) : Hub :=
  let k := h.core c
  if k.locks = false ∨ k.hopping then h
  else
    let h := if k.searching then h.learnCodes c coarse fine else h
    let h := h.issue (96 + c) 1 k.entry (h.reg (kCore c 4)) (b2n k.searching)
    let h := h.modCore c fun k => { k with st := .free, ref := none, relock := false, restart := false, searching := false }
    let h := h.resumeCore c skips
    match k.hopHeld with
    | some n => h.heldHop c n m
    | none => h.evalOne c m

/-- The new entry's lock is confirmed: the hop ends (R78 step 4). -/
def Hub.hopDone (h : Hub) (c coarse fine us : Nat) (skips : List Nat) (m : ClkMeas) : Hub :=
  let k := h.core c
  if k.locks = false ∨ ¬ k.hopping then h
  else
    let h := if k.searching then h.learnCodes c coarse fine else h
    let h := h.modCore c fun k => { k with st := .free, ref := none, hopping := false, hopTo := none, searching := false }
    let h := h.resumeCore c skips
    let h := h.issue (96 + c) 7 k.entry (satN 0xFFFF us) (b2n k.searching)
    h.evalOne c m

/-- A locked core loses lock: its domains and outputs stop, and it reloads its entry's codes (R63). -/
def Hub.coreUnlock (h : Hub) (c : Nat) : Hub :=
  let k := h.core c
  if ¬ k.st.locked then h
  else
    let h := (h.issueLimited c (96 + c) 3 k.st.code k.entry 0).setFlag (kCksFlag 1)
    let h := iter 4 (fun d h => if (h.dom d).core = c ∧ (h.dom d).run then
      h.modDom d fun m => { m with run := false, paused := true, lastTick := false } else h) h
    let h := h.stopOutputs c
    (h.modCore c fun k => { k with st := .hop, ref := none, relock := true }).loadCodes c k.entry

/-- A slew ends: TRACK, then the hop that was held, or the candidates (R69 to R71, R77). -/
def Hub.slewEnd (h : Hub) (c : Nat) (m : ClkMeas) : Hub :=
  let k := h.core c
  if k.st ≠ .slew then h
  else
    let r := k.ref.getD 3
    let h := h.modCore c fun k => { k with st := .track }
    let h := ((h.setReg (kCore c 3) 0).setReg (kCore c 1) (h.reg (kRef r 1))).issue (96 + c) 5 r 0 0
    match k.hopHeld with
    | some n => h.heldHop c n m
    | none => h.evalOne c m

/-- The fine code moves by at most one step toward its corrected value (R62). -/
def Hub.fineStep (h : Hub) (c : Nat) : Hub :=
  if (h.core c).st = .off then h
  else
    let cur := h.reg (kCore c 5)
    let tgt := h.fineTarget c
    h.setReg (kCore c 5) (if cur < tgt then cur + 1 else if tgt < cur then cur - 1 else cur)

/-- Every 1 ms the temperature-corrected fine codes are recomputed (R62). -/
def Hub.fineUpdate (h : Hub) (tj : Int) : Hub :=
  (({ h with clk := { h.clk with tj := tj } }).fineStep 0).fineStep 1

/-! ### Domains (R79 to R82) -/

/-- The field of CKS_DOMCFG that a binding reads as: core and rate. -/
def Domain.field (d : Domain) : Nat := 8 * d.core + d.rate

/-- The first engine that R38 protects: enabled, bound to the domain, its SE_PLEN above the budget at the rate. -/
def Hub.plenBlocks (h : Hub) (d rate : Nat) : Option Nat :=
  firstBelow 16 fun n =>
    bit (h.reg (eng n 0x40100)) 15 && h.fld (eng n 0x40100) 9 8 == d && decide (tickBudget rate < h.reg (eng n 0x40001))

/-- Why a binding is refused (R79): 1 rate code 7, 2 family, 3 R38, 4 target core stopped; with the engine of cause 3. -/
def Hub.bindCause (h : Hub) (d field : Nat) : Option (Nat × Nat) :=
  let c := field / 8 % 2
  let rate := field % 8
  match rateFam rate with
  | none => some (1, 0)
  | some fam =>
    if (h.core c).fam ≠ fam then some (2, 0)
    else match h.plenBlocks d rate with
      | some n => some (3, n)
      | none => if (h.core c).st = .off then some (4, 0) else none

/-- RATE_REFUSED; the domain's field of CKS_DOMCFG returns to the change held, or to the binding in force (R646). -/
def Hub.refuseRate (h : Hub) (d field : Nat) (why : Nat × Nat) : Hub :=
  ((h.setFlag (kCksFlag 4)).setFld 0x31 (4 * d + 3) (4 * d) ((h.dom d).rebind.getD (h.dom d).field)).issue (101 + d) 2 field why.1
    (if why.1 = 3 then why.2 else 0)

/-- A CKS_DOMCFG write changes a domain's binding (R79). -/
def Hub.domRebind (h : Hub) (d field : Nat) : Hub :=
  if field = (h.dom d).field then
    (h.modDom d fun m => { m with rebind := none }).setFld 0x31 (4 * d + 3) (4 * d) field
  else match h.bindCause d field with
    | some why => h.refuseRate d field why
    | none =>
      let h := h.setFld 0x31 (4 * d + 3) (4 * d) field
      if (h.dom d).en then h.modDom d fun m => { m with rebind := some field }
      else h.modDom d fun m => { m with core := field / 8 % 2, rate := field % 8 }

/-- A CKS_DOMEN write enables a domain, or cancels a disable that has not yet taken effect; of two causes the lower number is
reported (R80, log 14). -/
def Hub.domEnable (h : Hub) (d : Nat) : Hub :=
  let m := h.dom d
  if m.disabling then (h.modDom d fun m => { m with disabling := false }).setFld 0x32 d d 1
  else if m.en then h
  else
    let refuse := fun cause => ((h.setFlag (kCksFlag 4)).setFld 0x32 d d 0).issue (101 + d) 2 m.field cause 0
    if rateFam m.rate ≠ some (h.core m.core).fam then refuse 2
    else if (h.core m.core).st = .off then refuse 4
    else (h.modDom d fun m => { m with en := true, starting := true }).setFld 0x32 d d 1

/-- A CKS_DOMEN write disables a domain, which stops after its next tick; DOM0's bit reads 1 (R80). -/
def Hub.domDisable (h : Hub) (d : Nat) : Hub :=
  if d = 0 then h.setFld 0x32 0 0 1
  else if (h.dom d).en then (h.modDom d fun m => { m with disabling := true }).setFld 0x32 d d 0
  else h

/-- What waits for a base tick of core `c` in domain `d`: an enable, the first tick of a new binding, a new binding
(R79, R80). -/
def Hub.domBaseTick (h : Hub) (c d : Nat) : Hub :=
  let m := h.dom d
  if m.core ≠ c then h
  else
    let h := if m.rebound then
        (h.modDom d fun m => { m with rebound := false, run := true, lastTick := false }).issue (101 + d) 1 m.field
          (if m.fresh then 0 else (m.tick + 1).toNat % 65536) 0
      else if m.starting then
        h.modDom d fun m => { m with starting := false, run := true, fresh := true, tick := 0, epoch := 0 }
      else h
    match m.rebind with
    | none => h
    | some f =>
      match (h.modDom d fun m => { m with rebind := none }).bindCause d f with
      | some why => (h.modDom d fun m => { m with rebind := none }).refuseRate d f why
      | none => h.modDom d fun m => { m with rebind := none, core := f / 8 % 2, rate := f % 8, lastTick := true, rebound := true }

/-- A domain that has stopped takes the change that waited, as one of a disabled domain (R79, R80). -/
def Hub.settleBind (h : Hub) (d : Nat) : Hub :=
  match (h.dom d).rebind with
  | none => h
  | some f =>
    let h := h.modDom d fun m => { m with rebind := none }
    match h.bindCause d f with
    | some why => h.refuseRate d f why
    | none => h.modDom d fun m => { m with core := f / 8 % 2, rate := f % 8 }

/-- The clock's part of a domain tick: the counter counts, and a domain that stops after this tick stops (R80, R81). -/
def Hub.domCount (h : Hub) (d : Nat) : Hub :=
  let m := h.dom d
  let x := m.tick.toNat + 2 ^ 32 * m.epoch.toNat + 1
  let h := h.modDom d fun m =>
    { m with fresh := false,
             tick := if m.fresh then 0 else BitVec.ofNat 32 x,
             epoch := if m.fresh then 0 else BitVec.ofNat 48 (x / 2 ^ 32),
             run := ! (m.lastTick || m.disabling), lastTick := false, rebound := m.rebound && ! m.disabling,
             en := m.en && ! m.disabling, disabling := false, paused := m.paused && ! m.disabling,
             starting := m.starting && ! m.disabling }
  let h := if m.disabling then h.settleBind d else h
  let h : Hub := { h with ev := h.ev.countTick d }
  if d = 0 then { h with clk := { h.clk with started := true } } else h

/-! ### Clock outputs (R83 to R86) -/

/-- The delay of an output moves for one base period of `base` core periods, one step per output period, until it reaches
`tgt` (R85, R86). -/
def ClkOut.slide (o : ClkOut) (base tgt : Nat) : ClkOut :=
  if o.delay = tgt then { o with part := 0 }
  else
    let x := o.part + 2 * base
    let st := x / (2 * o.n + b2n o.half)
    { o with part := x % (2 * o.n + b2n o.half),
             delay := if o.delay < tgt then min tgt (o.delay + st) else max tgt (o.delay - st) }

/-- What a base tick does to an enabled output: it starts, takes a new divider, and moves its delay (R86). -/
def Hub.clkoBaseTick (h : Hub) (c m : Nat) : Hub :=
  let o := h.clko m
  if (h.dom o.dom).core ≠ c ∨ ¬ o.en then h
  else if o.run then
    h.modClko m fun o =>
      { o.slide (if (h.core c).fam then 16384 else 24576) (h.reg (kClko m 2)) with n := h.reg (kClko m 0), half := bit (h.reg (kClko m 1)) 0 }
  else if o.stopping then h
  else h.modClko m fun o => { o with run := true, n := h.reg (kClko m 0), half := bit (h.reg (kClko m 1)) 0, delay := h.reg (kClko m 2) }

/-- A base tick of core A drives the local PTP clock while the ordinary clock is MASTER: 1/8,000 s or 1/11,025 s (R320). -/
def Hub.ptpBaseTick (h : Hub) (c : Nat) : Hub :=
  if c ≠ 0 ∨ h.fld 0x3A 3 0 ≠ 6 then h
  else
    let p := h.net.ptp
    let n := if (h.core c).fam then 10 ^ 9 * 65536 / 25 + p.part else 441 * 125000 * 65536 + p.part
    { h with net := { h.net with ptp := { p with time := p.time + (n / 441 : Nat), part := n % 441 } } }

/-- A base tick of a core: a requested stop is judged again and taken, an accepted hop begins, and enables, bindings
and output changes take effect (R64, R76, R78, R79, R86). DESIGN CHOICE (log 127): the entry in force, with FAM and MULT, changes
at the base tick of step 2. -/
def Hub.coreBaseTick (h : Hub) (c : Nat) : Hub :=
  let k := h.core c
  if ¬ k.st.locked then h
  else
    let h := h.ptpBaseTick c
    let h := if k.stopReq then (match h.stopCause c with | some why => h.refuseStop c why | none => h) else h
    if (h.core c).stopReq then
      let h := h.stopOutputs c
      (h.modCore c fun k => { k with st := .off, stopReq := false, ref := none }).issue (96 + c) 9 1 k.entry 0
    else match (h.core c).hopTo with
      | some n =>
        let h := iter 4 (fun d h => h.domBaseTick c d) (h.stopOutputs c)
        let h := iter 4 (fun d h => if (h.dom d).core = c ∧ (h.dom d).run ∧ ¬ (h.dom d).rebound then
          h.modDom d fun m => { m with lastTick := true, paused := true } else h) h
        ((h.loadFamily c n).modCore c fun k => { k with st := .hop, hopping := true, ref := none }).loadCodes c n
      | none =>
        let h := iter 4 (fun d h => h.domBaseTick c d) h
        iter 8 (fun m h => h.clkoBaseTick c m) h

/-- EN of an output written 1 (R86). -/
def Hub.clkoEnable (h : Hub) (m : Nat) : Hub :=
  (h.modClko m fun o => { o with en := true }).setFld (kClko m 1) 15 15 1

/-- EN of an output written 0: it completes its high phase, or stops at once if it is low (R86). -/
def Hub.clkoDisable (h : Hub) (m : Nat) (high : Bool) : Hub :=
  (h.modClko m fun o => { o.stop high with en := false }).setFld (kClko m 1) 15 15 0

/-- The high phase of a stopping output ends (R86). -/
def Hub.clkoStopped (h : Hub) (m : Nat) : Hub := h.modClko m fun o => { o with stopping := false }

/-- N or HALF written: N = 0 is ignored; at once while disabled, else at the next base tick (R84, R86). -/
def Hub.clkoDivider (h : Hub) (m n : Nat) (half : Bool) : Hub :=
  let n' := if n = 0 then h.reg (kClko m 0) else n
  let h := (h.setReg (kClko m 0) n').setFld (kClko m 1) 0 0 (b2n half)
  if (h.clko m).en then h else h.modClko m fun o => { o with n := n', half := half }

/-- DELAY written (R85, R86). -/
def Hub.clkoDelay (h : Hub) (m d : Nat) : Hub :=
  let h := h.setReg (kClko m 2) (d % 1024)
  if (h.clko m).en then h else h.modClko m fun o => { o with delay := d % 1024 }

/-- DOM written: applied while the output is disabled, else refused (R86). -/
def Hub.clkoDom (h : Hub) (m d : Nat) : Hub :=
  if (h.clko m).en then
    if d = (h.clko m).dom then h
    else ((h.setFlag (kCksFlag 4)).setFld (kClko m 1) 2 1 (h.clko m).dom).issue 105 1 m d 0
  else (h.modClko m fun o => { o with dom := d }).setFld (kClko m 1) 2 1 d

/-! ### Words read as they stand -/

/-- CKS_STAT (R88). DESIGN CHOICE (log 125): in SLEW the target of the switch reads as the reference in use. -/
def Hub.cksStat (h : Hub) : Nat :=
  let a := h.core 0
  let b := h.core 1
  flagAt (b.st == .slew) 11 + flagAt (a.st == .slew) 10 + 256 * b.ref.getD 3 + 64 * a.ref.getD 3 + 8 * b.st.code + a.st.code

/-- CKS_DOMEN: the RUN bits and the stored EN bits. -/
def Hub.cksDomEn (h : Hub) : Nat :=
  ((List.range 4).map fun d => flagAt ((h.dom d).run) (4 + d)).sum + h.fld 0x32 3 0

/-- CKS_HOP. -/
def Hub.cksHop (h : Hub) : Nat :=
  flagAt (h.core 1).busy 9 + flagAt (h.core 0).busy 8 + 16 * (h.core 1).entryRead + (h.core 0).entryRead

/-- CKS_STOP: bit c reads 1 while core c is OFF (R64). -/
def Hub.cksStop (h : Hub) : Nat := flagAt ((h.core 0).st == .off) 0 + flagAt ((h.core 1).st == .off) 1

/-- A summary word: bit i mirrors the flag at key `k + i` (R122). -/
def Hub.flagSum (h : Hub) (k n : Nat) : Nat := ((List.range n).map fun i => flagAt (h.flag (k + i)) i).sum

/-- The state word of a core (R89). -/
def Hub.coreWord (h : Hub) (c : Nat) : Nat := 16 * (h.core c).entry + (h.core c).st.code

/-- Word `w` of a domain's counter and epoch (R89). -/
def Hub.domWord (h : Hub) (d w : Nat) : Nat :=
  ((h.dom d).tick.toNat + 2 ^ 32 * (h.dom d).epoch.toNat) / 65536 ^ w % 65536

end Sys2Proof.Machine
end

