-- ==== Sys2Proof/Machine/Operands.lean ====
section
/-! DEFINITION. Operands.lean: the registers of an engine bank, how an operation reads them inside and outside the
exposed distances, the memories and windows it reads, and what an operation does to its engine (R149 to R156, R182 to
R199, R209 to R214, R235 to R242). -/

namespace Sys2Proof.Machine

/-! ### Engines and banks -/

/-- The words of logical engine `n`'s control range. -/
def kSe (n off : Nat) : Nat := eng n (0x40000 + off)

/-- Logical engine `n`. -/
def Hub.engine (h : Hub) (n : Nat) : Engine := tget (fun _ => {}) h.engs n

/-- Logical engine `n` replaced. -/
def Hub.setEng (h : Hub) (n : Nat) (e : Engine) : Hub := { h with engs := tput (fun _ => {}) h.engs n e }

/-- Logical engine `n` changed. -/
def Hub.modEng (h : Hub) (n : Nat) (f : Engine → Engine) : Hub := h.setEng n (f (h.engine n))

/-- The foreground bank of background code, or the shadow bank of the sample program (R151). -/
def Engine.bank (e : Engine) (bg : Bool) : Bank := if bg then e.fore else e.shadow

/-- A bank changed. -/
def Engine.modBank (e : Engine) (bg : Bool) (f : Bank → Bank) : Engine :=
  if bg then { e with fore := f e.fore } else { e with shadow := f e.shadow }

/-- A bank of logical engine `n`. -/
def Hub.bank (h : Hub) (n : Nat) (bg : Bool) : Bank := (h.engine n).bank bg

/-- A bank of logical engine `n` changed. -/
def Hub.modBank (h : Hub) (n : Nat) (bg : Bool) (f : Bank → Bank) : Hub := h.modEng n fun e => e.modBank bg f

/-- How the sample program of logical engine `n` stands, changed. -/
def Hub.modRun (h : Hub) (n : Nat) (f : Run → Run) : Hub := h.modEng n fun e => { e with run := f e.run }

/-- Does a physical engine serve logical engine `n` (R168). -/
def Hub.hasPe (h : Hub) (n : Nat) : Bool := bit (h.reg (spc 0x3F (0x200 + n))) 15

/-- Is logical engine `n` reserved to hold a spare (R169). -/
def Hub.reserved (h : Hub) (n : Nat) : Bool :=
  (bit (h.reg 0x23) 7 && h.fld 0x23 3 0 == n) || (bit (h.reg 0x23) 15 && h.fld 0x23 11 8 == n)

/-! ### Register numbers of a bank: D0 to D15 are 0 to 15, A0 to A3 16 to 19; P, O, B and L, F, SR, SP, PC and the loop
registers follow (R151, R180). -/

def rA (i : Nat) : Nat := 16 + i
def rP (i : Nat) : Nat := 32 + i
def rO (i : Nat) : Nat := 40 + i
def rB (i : Nat) : Nat := 48 + i
def rL (i : Nat) : Nat := 56 + i
def rF (i : Nat) : Nat := 64 + i
def rSR : Nat := 68
def rSP : Nat := 69
def rPC : Nat := 70
def rLS (i : Nat) : Nat := 72 + i
def rLE (i : Nat) : Nat := 76 + i
def rLC (i : Nat) : Nat := 80 + i

/-- D, A and F carry taint (R151, R212). -/
def taintable (ref : Nat) : Bool := decide (ref < 20) || (decide (64 ≤ ref) && decide (ref < 68))

/-- A confirmed value. -/
def rv (n : Nat) : RVal := { v := BitVec.ofNat 40 n }

/-- A confirmed 40-bit value from an integer, two's complement. -/
def rvI (w : Nat) (i : Int) : RVal := rv (BitVec.ofInt w i).toNat

/-- Is a value Crema: not void, and some tag of its mask stands (R395). -/
def RVal.crema (r : RVal) : Bool := !r.void && r.tags != 0

/-- Is a value confirmed. -/
def RVal.conf (r : RVal) : Bool := !r.void && r.tags == 0

/-- The value as a number. -/
def RVal.n (r : RVal) : Nat := r.v.toNat

/-- The value as a signed number of `w` bits. -/
def RVal.s (r : RVal) (w : Nat) : Int := sgn w r.n

/-- A value with the state of `s` joined into its own (R210, R395). -/
def RVal.join (r s : RVal) : RVal :=
  if r.void || s.void then { r with void := true, tags := 0 } else { r with tags := r.tags ||| s.tags }

/-- A value with the joined states of a list of operands. -/
def RVal.joins (r : RVal) (l : List RVal) : RVal := l.foldl RVal.join r

/-- Void zero. -/
def voidZero : RVal := { void := true }

/-- The stored value of a bank register. -/
def Bank.get (b : Bank) (ref : Nat) : RVal := tget (fun _ => {}) b.regs ref

/-- A bank register written. -/
def Bank.put (b : Bank) (ref : Nat) (r : RVal) : Bank := { b with regs := tput (fun _ => {}) b.regs ref r }

/-- PC of a bank. -/
def Bank.pc (b : Bank) : Nat := (b.get rPC).n

/-- PC of a bank written: a slot-word address (R182, R185). -/
def Bank.setPc (b : Bank) (a : Nat) : Bank := b.put rPC (rv (a % 0x8000))

/-- What a result does to the register value it lands on: sticky bits are ORed in, any other result replaces it
(R198, R215). -/
def Flight.onto (f : Flight) (r : RVal) : RVal := if f.orIn then rv (r.n ||| f.val.n) else f.val

/-- The results of a register that have not landed, in order of issue. -/
def Bank.inAir (b : Bank) (ref : Nat) : List Flight := b.flights.filter fun f => f.ref == ref

/-! ### What an operation sees -/

/-- What an operation reads from: the hub, its engine and bank as they stand before the bundle (R186), and the number
of the free value that its first early read takes (R197). -/
structure View where
  h : Hub
  n : Nat
  bg : Bool
  base : Nat
  /-- Address of the bundle's last word. -/
  last : Nat

/-- The engine of a view. -/
def View.e (v : View) : Engine := v.h.engine v.n
/-- The bank of a view. -/
def View.b (v : View) : Bank := v.h.bank v.n v.bg

/-- One of several values, by a free choice. -/
def pickFree (k : Nat) (d : RVal) (l : List RVal) : RVal := l.getD (Config.freeNat k % l.length) d

/-- A register read as operand `i`: outside every distance its value; an early read returns the old or a newer value
(R195, R197). -/
def View.reg (v : View) (i ref : Nat) : RVal :=
  let old := v.b.get ref
  match v.b.inAir ref with
  | [] => old
  | fl => pickFree (v.base + i) old (fl.foldl (fun l f => l ++ [f.onto (l.getLastD old)]) [old])

/-- An accumulator read by a chained accumulation: results of earlier MAC, MSU, MACD and MSUD are readable at distance 1
(R196). -/
def View.chain (v : View) (i ref : Nat) : RVal :=
  let fl := v.b.inAir ref
  let old := match (fl.filter fun f => f.mac).getLast? with
    | some f => f.val
    | none => v.b.get ref
  match fl.filter fun f => !f.mac with
  | [] => old
  | g => pickFree (v.base + i) old (old :: g.map fun f => f.val)

/-- A data register read as operand `i`. -/
def View.d (v : View) (i r : Nat) : RVal := v.reg i r

/-- A register pair read as operand `i`: even register low, odd register high (R8, R209). -/
def View.pair (v : View) (i r : Nat) : RVal :=
  let lo := v.reg i r
  let hi := v.reg (i + 1) (r + 1)
  (rv (hi.n % 65536 * 65536 + lo.n % 65536)).joins [lo, hi]

/-! ### Memories and windows (R149, R150, R154 to R156, R238) -/

/-- The parked store that will write a word last, if one is parked (R238). -/
def Engine.parkedStore (e : Engine) (mem a : Nat) : Option ParkEntry :=
  (e.park.filter fun p => p.kind == .store mem a).getLast?

/-- A word of a window, whose entries hold 24-bit samples in [31:8] of a pair (R154); `w` is the pair as 32 bits. -/
def winWord (r : RVal) (w : Nat) (a : Nat) : RVal := { r with v := BitVec.ofNat 40 (if a % 2 = 0 then w % 65536 else w / 65536 % 65536) }

/-- What a load of one word finds, with its state (R150, R238). -/
def Engine.load (e : Engine) (mem a : Nat) : RVal :=
  if mem = 0 ∧ 0x8000 ≤ a then
    if a < 0x8040 then
      let r := tget (fun _ => {}) e.inRun ((a - 0x8000) / 2)
      winWord r (r.n % 2 ^ 24 * 256) a
    else if a < 0x8080 then
      let r := tget (fun _ => {}) e.outWin (a - 0x8040)
      { r with v := BitVec.ofNat 40 (if a % 2 = 0 then r.n / 256 % 256 * 256 else r.n % 65536) }
    else rv 0
  else if mem = 1 ∧ 0x4000 ≤ a then rv 0
  else match e.parkedStore mem a with
    | some p => if p.val.void then voidZero else p.val
    | none =>
      if e.ue.contains (mem + 1, a) then voidZero
      else if mem = 0 ∧ e.xVoid.contains a then voidZero
      else rv (tget (fun _ => (0 : Word)) (if mem = 0 then e.x else e.y) a).toNat

/-- A word of X (`mem` 0) or Y (`mem` 1) memory stored: fresh check bits, and the void mark cleared (R167, R291). -/
def Engine.poke (e : Engine) (mem a w : Nat) : Engine :=
  let e := { e with ue := e.ue.filter fun p => p != (mem + 1, a) }
  if mem = 0 then { e with x := tput (fun _ => 0) e.x a (BitVec.ofNat 16 w), xVoid := e.xVoid.filter fun b => b != a }
  else { e with y := tput (fun _ => 0) e.y a (BitVec.ofNat 16 w) }

/-- X words from `x` on marked void, modulo the memory (R241, R291). -/
def Engine.voidWords (e : Engine) (x n : Nat) : Engine :=
  iter n (fun i e => let a := (x + i) % 0x8000; if e.xVoid.contains a then e else { e with xVoid := e.xVoid ++ [a] }) e

/-- A write from outside the engine's code reaches its word: the void mark is cleared, set or kept (R291). -/
def Engine.arrive (e : Engine) (w : HeldWrite) : Engine :=
  let e' := e.poke w.mem w.addr w.val.toNat
  match w.mark with
  | 0 => e'
  | 1 => e'.voidWords w.addr 1
  | _ => { e' with xVoid := e.xVoid }

/-- Is the engine within a REPN (R248). -/
def Engine.holds (e : Engine) : Bool := e.shadow.hold || e.fore.hold

/-- A write from outside the engine's code: it waits until a REPN ends (R248). -/
def Engine.outside (e : Engine) (w : HeldWrite) : Engine :=
  if e.holds then { e with heldWr := e.heldWr ++ [w] } else e.arrive w

/-- What a REPN has held is written once no REPN holds it (R248). -/
def Engine.flush (e : Engine) : Engine := if e.holds then e else e.heldWr.foldl Engine.arrive { e with heldWr := [] }

/-- The hold of a bank's REPN ends before its last repetition (R248), for good: the rest runs as under REPI. DEDUCED: log entry
137. -/
def Engine.dropHold (e : Engine) (bg : Bool) : Engine :=
  (e.modBank bg fun b => if b.hold then { b with hold := false, rep := b.rep.map fun r => (r.1, false) } else b).flush

/-- X words from `x` on delivered as zero, marked void (R242, R299). -/
def Engine.voidZeros (e : Engine) (x n : Nat) : Engine :=
  iter n (fun i e => e.outside { mem := 0, addr := (x + i) % 0x8000, val := 0, mark := 1 }) e

/-- Is an address one of the memory's words (R149, R150). -/
def inMem (mem a : Nat) : Bool := if mem = 0 then decide (a < 0x8000) else decide (a < 0x4000)

/-- A word of the output window stored at once, in any state (R156, R239). -/
def Engine.pokeOut (e : Engine) (a : Nat) (r : RVal) : Engine :=
  { e with outWin := tput (fun _ => {}) e.outWin (a - 0x8040) { r with v := BitVec.ofNat 40 (r.n % 65536) } }

/-- The sample of output `o` as the output stage takes it from the window handed over at END: bits [31:8] of its word pair
(R154, R156). -/
def Engine.sample (e : Engine) (o : Nat) : RVal :=
  let lo := tget (fun _ => {}) e.handed (2 * o)
  let hi := tget (fun _ => {}) e.handed (2 * o + 1)
  (rv (hi.n % 65536 * 256 + lo.n / 256 % 256)).joins [lo, hi]

/-- What a data read of a memory word gives when ECC finds `c` in it (R167); a word in error stays in error until it is
written. -/
def View.read (v : View) (mem a : Nat) (c : Ecc) : RVal × List (Nat × Nat × Ecc) :=
  if inMem mem a then
    if v.e.ue.contains (mem + 1, a) then (v.e.load mem a, [(mem + 1, a, .uncorrectable)])
    else match c with
      | .ok => (v.e.load mem a, [])
      | .corrected s => (v.e.load mem a, [(mem + 1, a, .corrected s)])
      | .uncorrectable => ((if (v.e.parkedStore mem a).isSome then v.e.load mem a else voidZero), [(mem + 1, a, .uncorrectable)])
  else (v.e.load mem a, [])

/-- The finding in the word that an operation reads as its `i`-th. -/
def found (l : List Ecc) (i : Nat) : Ecc := l.getD i .ok

/-! ### What an operation does -/

/-- A register result: where it goes, its value and state, and its distance (R195, R196). -/
structure Wr where
  ref : Nat
  val : RVal
  dist : Nat
  mac : Bool := false
  /-- Takes place at issue whatever the state of the guard: the pointer step of a store or far operation (R239, R242). -/
  free : Bool := false

/-- Where control goes after a bundle: on, END, a jump of CALL or RET, a taken branch of BR or BRP, one repeat level
more. -/
inductive Ctl where
  | go
  | stop
  | jump (tgt : Nat)
  | branch (tgt : Nat)
  | enter

/-- Everything an operation does when its predicate lets it: register results, stores of single words, sticky bits V, G
and S by their places in SR, the operands whose states join, the operands that only set T where they are void, ECC
findings, a far operation, an extension opcode with its
operand and destination, event lines set and cleared, a stack fault, and where control goes. -/
structure Eff where
  wr : List Wr := []
  st : List (Nat × Nat × RVal) := []
  stick : Nat := 0
  ops : List RVal := []
  met : List RVal := []
  ecc : List (Nat × Nat × Ecc) := []
  far : Option FarOp := none
  /-- Number, arguments, destination and SA value of an extension opcode. -/
  ext : Option (Nat × List Nat × Nat × RVal) := none
  sev : Option Nat := none
  wfe : Option Nat := none
  fault : Nat := 0
  ctl : Ctl := .go

/-- A result in one register at the X-slot distance, with the join of its operands (R196, R210). -/
def Eff.one (ref dist : Nat) (r : RVal) (ops : List RVal) (stick : Nat := 0) : Eff :=
  { wr := [{ ref := ref, val := r.joins ops, dist := dist }], ops := ops, stick := stick }

/-- A result in a register pair, low word in the even register (R8). -/
def Eff.pair (ref dist : Nat) (n : Nat) (ops : List RVal) (stick : Nat := 0) : Eff :=
  { wr := [{ ref := ref, val := (rv (n % 65536)).joins ops, dist := dist },
           { ref := ref + 1, val := (rv (n / 65536 % 65536)).joins ops, dist := dist }],
    ops := ops, stick := stick }

end Sys2Proof.Machine
end

