-- ==== Sys2Proof/Machine/Dmu.lean ====
section
/-! DEFINITION. Dmu.lean: the delay memory unit: far queues, requests, translation, landing, stores and faults
(R281 to R303). -/

namespace Sys2Proof.Machine

/-- Word `w` of logical engine `n` in space 0x0C (R303). -/
def kDmu (n w : Nat) : Nat := spc 0x0C (0x40000000 + 0x40 * n + w)

/-- The domain that SE_CTL.DOM binds engine `n` to (R157). -/
def Hub.domOf (h : Hub) (n : Nat) : Nat := h.fld (kSe n 0x100) 9 8

/-- Bits [15:0] of a domain's tick counter. -/
def Hub.tickLo (h : Hub) (d : Nat) : Nat := (h.dom d).tick.toNat % 65536

/-- The far words that engine `n` may use in one tick (R288). -/
def Hub.allowance (h : Hub) (n : Nat) : Nat := h.reg (kDmu n 2) * 1000000 / rateHz (h.dom (h.domOf n)).rate

/-! ### DRAM (R296, R297) -/

/-- A word of DRAM by its word address. -/
def Hub.dramWord (h : Hub) (a : Nat) : Nat := (tget (fun _ => (0 : Word)) h.dram a).toNat

/-- A word of DRAM stored. -/
def Hub.putDram (h : Hub) (a w : Nat) : Hub := { h with dram := tput (fun _ => 0) h.dram a (BitVec.ofNat 16 w) }

/-- Words written from word address `a` on. A unit that is written whole gets fresh check bits; a unit in error that is
written in part loses its other bytes (R297). -/
def Hub.writeDram (h : Hub) (a : Nat) (ws : List Word) : Hub :=
  let units := ((List.range ws.length).map fun i => (a + i) / 4).dedup
  let bad := units.filter fun u => h.dramUe.contains u
  let h := bad.foldl (fun h u => iter 4 (fun j h => h.putDram (4 * u + j) 0) h) h
  let h := { h with dramUe := h.dramUe.filter fun u => !units.contains u }
  ws.zipIdx.foldl (fun h p => h.putDram (a + p.2) p.1.toNat) h

/-- A double word of DRAM at a byte address (R8, R283). -/
def Hub.dramPair (h : Hub) (byte : Nat) : Nat := h.dramWord (byte / 2) + 65536 * h.dramWord (byte / 2 + 1)

/-- A unit found uncorrectable. -/
def Hub.markUe (h : Hub) (u : Nat) : Hub := if h.dramUe.contains u then h else { h with dramUe := h.dramUe ++ [u] }

/-! ### Issue and acceptance (R286 to R288) -/

/-- Requests in flight across all engines (R286). -/
def Hub.inflight (h : Hub) : Nat := ((List.range 16).map fun n => (h.engine n).infl.length).sum

/-- The class that serves the next request of a far operation: that of its first word (R288). DEDUCED: log entry 136. -/
def FarOp.cls (o : FarOp) : Nat := if o.bg then 3 else if 0 < o.quota then 1 else 2

/-- The engine whose queue the DMU takes from next: the best class, round-robin over engines (R288). -/
def Hub.nextFar (h : Hub) : Option Nat :=
  let order := (List.range 16).map fun i => (h.farRr + i) % 16
  let headCls := fun n => ((h.engine n).farq.head?).map FarOp.cls
  [1, 2, 3].findSome? fun c => order.find? fun n => headCls n == some c

/-- The first request of an operation: its words of the first aligned block of 16 (R286), with a cached translation. -/
def Engine.firstReq (e : Engine) (o : FarOp) : FarReq × Option FarOp :=
  let k := min o.n (16 - o.far % 16)
  let tr := (e.walk.find? fun t => t.1 == o.far / 4096).map fun t => t.2
  ({ store := o.store, far := o.far, x := o.x, n := k, data := o.data.take k, bg := o.bg, live := o.live, tr := tr },
   if o.n ≤ k then none
   else some { o with far := (o.far + k) % 2 ^ 24, x := (o.x + k) % 0x8000, n := o.n - k, data := o.data.drop k, quota := o.quota - k })

/-- The walk cache with a translation used (R284). -/
def touchWalk (w : List (Nat × Nat × Bool)) (page : Nat) : List (Nat × Nat × Bool) :=
  (w.filter fun t => t.1 == page) ++ w.filter fun t => t.1 != page

/-- The DMU takes requests while fewer than 512 are in flight (R287). -/
def Hub.pump (h : Hub) : Nat → Hub
  | 0 => h
  | fuel + 1 =>
    if 512 ≤ h.inflight then h
    else match h.nextFar with
      | none => h
      | some n =>
        match (h.engine n).farq with
        | [] => h
        | o :: os =>
          let e := h.engine n
          let (r, more) := e.firstReq o
          Hub.pump ({ h with farRr := (n + 1) % 16 }.setEng n
            { e with farq := (match more with | some o' => o' :: os | none => os), infl := e.infl ++ [r],
                     walk := touchWalk e.walk (o.far / 4096) }) fuel

/-- FARQ_FULL: the queue was full at issue (R287). -/
def Hub.farFull (h : Hub) (n : Nat) (o : FarOp) (pc : Nat) : Hub :=
  let h := if o.store then h else h.modEng n fun e => e.voidWords o.x o.n
  ((h.addSat (kDmu n 0x0E) 2 1).setFlag (kDmu n 8)).issueLimited 0 (16 + n) 3 (if o.store then 2 else 1) pc 0

/-- A far operation leaves the engine (R241, R287, R288): its words count against the allowance of its program, and those
beyond it in DMU_OVERQCNT. -/
def Hub.farIssue (h : Hub) (n : Nat) (o : FarOp) (pc : Nat) : Hub :=
  let within := min o.n (h.allowance n - (h.engine n).run.farUsed)
  let full := decide (16 ≤ (h.engine n).farq.length)
  let h := if o.bg then h
    else (h.modRun n fun r => { r with farUsed := r.farUsed + o.n }).addSat (kDmu n 0x10) 2 (o.n - within)
  if full then h.farFull n o pc
  else (h.modEng n fun e => { e with farq := e.farq ++ [{ o with quota := if o.bg then 0 else within }] }).pump 600

/-! ### Translation (R282 to R285, R298, R299) -/

/-- Why an address cannot be reached: the device region, or the system or unmapped region (R296, R298). -/
def regionCause (byte : Nat) : Option Nat :=
  if 0x3F000000 ≤ byte then some 3 else if 0x30000000 ≤ byte then some 5 else none

/-- An ECC finding of the DMU counted and reported (R297). -/
def Hub.farEcc (h : Hub) (n far : Nat) (c : Ecc) : Hub :=
  match c with
  | .ok => h
  | .corrected _ => (h.addSat (kDmu n 0x16) 2 1).issueLimited (far / 4096) (16 + n) 5 0 (far / 4096) (far % 4096)
  | .uncorrectable => (h.addSat (kDmu n 0x18) 2 1).issueLimited (far / 4096) (16 + n) 5 1 (far / 4096) (far % 4096)

/-- What a read of a table entry finds: a unit marked in error stays in error. -/
def Hub.entryEcc (h : Hub) (byte : Nat) (c : Ecc) : Ecc := if h.dramUe.contains (byte / 8) then .uncorrectable else c

/-- A walk of the tables for far address `far`: the hub with its findings, and the frame and W of the page, or the cause
and the address of the fault (R283, R298). -/
def Hub.walk (h : Hub) (n far : Nat) (x : FarEcc) : Hub × Except (Nat × Nat) (Nat × Bool) :=
  let h := h.addWrap (kDmu n 0x1A) 2 1
  let base := h.effN (kDmu n 0) 2 / 1024 * 1024 % 2 ^ 30
  match regionCause base with
  | some c => (h, .error (c, base))
  | none =>
    let a1 := base + 4 * (far / 65536)
    let c1 := h.entryEcc a1 x.l1
    let h := h.farEcc n far c1
    if c1 = .uncorrectable then (h.markUe (a1 / 8), .error (4, a1))
    else
      let l1 := h.dramPair a1
      if ¬ bit l1 31 then (h, .error (1, a1))
      else
        let t2 := l1 % 2 ^ 24 * 64
        match regionCause t2 with
        | some c => (h, .error (c, t2))
        | none =>
          let a2 := t2 + 4 * (far / 4096 % 16)
          let c2 := h.entryEcc a2 x.l2
          let h := h.farEcc n far c2
          if c2 = .uncorrectable then (h.markUe (a2 / 8), .error (4, a2))
          else
            let l2 := h.dramPair a2
            if ¬ bit l2 31 then (h, .error (2, a2)) else (h, .ok (l2 % 2 ^ 17, bit l2 30))

/-- The physical byte address of a request, or its fault: by the translation it holds, by the walk cache, or by a walk, which
fills the cache where it succeeds (R284). -/
def Hub.translate (h : Hub) (n : Nat) (r : FarReq) (x : FarEcc) : Hub × Except (Nat × Nat) Nat :=
  let finish := fun (h : Hub) (f : Nat) (w : Bool) =>
    let a := f * 8192 + 2 * (r.far % 4096)
    match regionCause a with
    | some c => (h, Except.error (c, a))
    | none => if r.store && !w then (h, .error (6, a)) else (h, .ok a)
  let page := r.far / 4096
  match r.tr.orElse fun _ => ((h.engine n).walk.find? fun t => t.1 == page).map fun t => t.2 with
  | some (f, w) => finish (if r.tr.isSome then h else h.modEng n fun e => { e with walk := touchWalk e.walk page }) f w
  | none =>
    match h.walk n r.far x with
    | (h, .error e) => (h, .error e)
    | (h, .ok (f, w)) =>
      match finish h f w with
      | (h, .error e) => (h, .error e)
      | (h, .ok a) => (h.modEng n fun e => { e with walk := ((page, f, w) :: e.walk.filter fun t => t.1 != page).take 64 }, .ok a)

/-- A faulted request (R299). -/
def Hub.farFault (h : Hub) (n : Nat) (r : FarReq) (cause addr : Nat) : Hub :=
  let h := if r.store || !r.live then h else h.modEng n fun e => e.voidZeros r.x r.n
  let h := ((h.addSat (kDmu n 0x0A) 2 1).setFlag (kDmu n 6)).setReg (kDmu n 0x12) cause
  let h := h.setRegN (kDmu n 0x13) 2 r.far
  h.issueLimited (r.far / 4096) (16 + n) 1 cause (flagAt r.store 15 + r.far / 4096) (addr / 2 ^ 14)

/-! ### Landing and writing (R292 to R297) -/

/-- Is request `i` of an engine the oldest that touches its far block (R295). -/
def Engine.farTurn (e : Engine) (i : Nat) (r : FarReq) : Bool := !(e.infl.take i).any fun q => q.far / 16 == r.far / 16

/-- The findings in the units of a request: a unit marked in error stays in error. -/
def Hub.unitEcc (h : Hub) (a : Nat) (x : FarEcc) (u : Nat) : Ecc :=
  if h.dramUe.contains u then .uncorrectable
  else match x.units.find? fun p => p.1 == u - a / 32 * 4 with
    | some p => p.2
    | none => .ok

/-- The units of a request's words, from byte address `a` on. -/
def reqUnits (a n : Nat) : List Nat := ((List.range n).map fun i => (a + 2 * i) / 8).dedup

/-- Findings of the data units counted, reported and kept. -/
def Hub.unitsFound (h : Hub) (n : Nat) (r : FarReq) (a : Nat) (x : FarEcc) (us : List Nat) : Hub :=
  us.foldl (fun h u =>
    let c := h.unitEcc a x u
    let h := h.farEcc n (r.far + (4 * u - a / 2)) c
    if c = .uncorrectable then h.markUe u else h) h

/-- The words of a fetch reach the engine: good words with their void marks cleared, words of a unit in error as zero,
marked void; after the deadline the data is discarded, and a REPN holds them to its end (R248, R292, R297). -/
def Hub.landWords (h : Hub) (n : Nat) (r : FarReq) (a : Nat) : Hub :=
  if ¬ r.live then h
  else h.modEng n fun e => iter r.n (fun i e =>
    let bad := h.dramUe.contains ((a + 2 * i) / 8)
    e.outside { mem := 0, addr := (r.x + i) % 0x8000, val := BitVec.ofNat 16 (if bad then 0 else h.dramWord (a / 2 + i)), mark := b2n bad }) e

/-- Request `i` of engine `n` is served: a fetch lands (R292). -/
def Hub.farLanding (h : Hub) (n i : Nat) (x : FarEcc) : Hub :=
  match (h.engine n).infl[i]? with
  | none => h
  | some r =>
    if r.store || !(h.engine n).farTurn i r then h
    else
      let h := h.modEng n fun e => { e with infl := e.infl.eraseIdx i }
      match h.translate n r x with
      | (h, .error (c, a)) => (h.farFault n r c a).pump 600
      | (h, .ok a) => (((h.unitsFound n r a x (reqUnits a r.n))).landWords n r a).pump 600

/-- Request `i` of engine `n` is served: a store is written (R294, R297). -/
def Hub.farWritten (h : Hub) (n i : Nat) (x : FarEcc) : Hub :=
  match (h.engine n).infl[i]? with
  | none => h
  | some r =>
    if !r.store || !(h.engine n).farTurn i r then h
    else
      let h := h.modEng n fun e => { e with infl := e.infl.eraseIdx i }
      match h.translate n r x with
      | (h, .error (c, a)) => (h.farFault n r c a).pump 600
      | (h, .ok a) =>
        let whole := fun u => decide (a ≤ 8 * u) && decide (8 * u + 8 ≤ a + 2 * r.n)
        ((h.unitsFound n r a x ((reqUnits a r.n).filter fun u => !whole u)).writeDram (a / 2) r.data).pump 600

/-! ### The tick (R285, R292) -/

/-- The fetches of the engine's sample program that have not landed at the tick are voided (R292). -/
def Hub.farDeadline (h : Hub) (n : Nat) : Hub :=
  let e := h.engine n
  let late := fun (st bg live : Bool) => !st && !bg && live
  let ops := e.farq.filter fun o => late o.store o.bg o.live
  let rqs := e.infl.filter fun r => late r.store r.bg r.live
  let words := (ops.map fun o => o.n).sum + (rqs.map fun r => r.n).sum
  if words = 0 then h
  else
    let e := ops.foldl (fun e o => e.voidWords o.x o.n) e
    let e := rqs.foldl (fun e r => e.voidWords r.x r.n) e
    let e := { e with farq := e.farq.map fun o => if o.store || o.bg then o else { o with live := false },
                      infl := e.infl.map fun r => if r.store || r.bg then r else { r with live := false } }
    (((h.setEng n e).addSat (kDmu n 0x0C) 2 words).setFlag (kDmu n 7)).issueLimited 0 (16 + n) 2 (satN 0xFFFF words)
      (h.tickLo (h.domOf n)) 0

/-- Invalidations and a new DMU_L1BASE take effect (R285). -/
def Hub.farInvalidate (h : Hub) (n : Nat) : Hub :=
  let e := h.engine n
  let newBase := h.regN (kDmu n 0) 2 != h.effN (kDmu n 0) 2
  let walk := if newBase || e.inval.contains none then [] else e.walk.filter fun t => !e.inval.contains (some t.1)
  ((h.setEng n { e with walk := walk, inval := [] }).enforce (kDmu n 0)).enforce (kDmu n 1)

/-- The failed engine's accepted requests complete, its fetches are discarded, its queue is lost and the walk cache is
empty (R300). -/
def Engine.farRetire (e : Engine) : Engine :=
  { e with farq := [], walk := [], inval := [], infl := e.infl.map fun r => if r.store then r else { r with live := false } }

/-- A write of DMU_QUOTA, refused where the sum would exceed 1,600 (R289). -/
def Hub.quotaSum (h : Hub) : Nat := ((List.range 16).map fun n => h.reg (kDmu n 2)).sum

/-- DMU_QUOTA written (R289). -/
def Hub.quotaWrite (h : Hub) (n q : Nat) : Hub :=
  let sum := h.quotaSum
  if 1600 < sum - h.reg (kDmu n 2) + q then ((h.setFlag (kDmu n 9)).issue (16 + n) 4 q sum 0)
  else h.setReg (kDmu n 2) q

/-- A request of a DMU_INVAL write (R285): ALL, or one page. -/
def Hub.invalRequest (h : Hub) (n w : Nat) : Hub :=
  h.modEng n fun e => { e with inval := e.inval ++ [if bit w 15 then none else some (w % 4096)] }

end Sys2Proof.Machine
end

