-- ==== Sys2Proof/Machine/Cluster.lean ====
section
/-! DEFINITION. Cluster.lean: the accelerator cluster and the XL header (R171 to R175, R204 to R206, R635 to R637). -/

namespace Sys2Proof.Machine

/-- The owner word of an ASRC channel (R181). -/
def kAsrc (c : Nat) : Nat := spc 0x3F (0x220 + c)

/-- Does logical engine `n` own ASRC channel `c` (R173). -/
def Hub.ownsAsrc (h : Hub) (n c : Nat) : Bool := h.reg (kAsrc c) == 0x8000 + n

/-- An engine's link to a cluster unit has stalled: the watchdog ends this access (R53, R647). -/
def Hub.cluStall (h : Hub) (n unit : Nat) : Option Hub :=
  if h.clu.stalls.contains (n, unit) then
    some { h with clu := { h.clu with stalls := h.clu.stalls.erase (n, unit) } }
  else none

/-- A job tag that no waiting job holds; which one the hub hands out is not stated (R205). -/
def Hub.newTag (h : Hub) (q : List Job) : Nat :=
  let t := h.freeVal % 0x8000
  (((List.range (q.length + 1)).map fun i => (t + i) % 0x8000).find? fun t => !q.any fun j => j.tag == t).getD t

/-- XE3: an FFT job enters the queue of 32, or busy (R172, R205). -/
def Hub.fftSubmit (h : Hub) (n src dst inv : Nat) : Hub × RVal :=
  if 32 ≤ h.clu.fftq.length then (h, rv 0xFFFF)
  else
    let t := h.newTag h.clu.fftq
    ({ h.tookFree with clu := { h.clu with
        fftq := h.clu.fftq ++ [{ eng := n, tag := t, src := src, dst := dst, inverse := inv == 1 }],
        fftDone := h.clu.fftDone.filter fun d => d != t } }, rv t)

/-- XE5: a correlator job enters the queue of 4, or busy; a block out of range starts no job (R172, R205). -/
def Hub.corSubmit (h : Hub) (n : Nat) (w : List Nat) : Hub × RVal :=
  let pairs := lget 0 w 2
  let lags := lget 0 w 3
  if pairs < 1 ∨ 4096 < pairs ∨ lags < 1 ∨ 1024 < lags ∨ 4 ≤ h.clu.corq.length then (h, rv 0xFFFF)
  else
    let t := h.newTag h.clu.corq
    ({ h.tookFree with clu := { h.clu with
        corq := h.clu.corq ++ [{ eng := n, tag := t, src := lget 0 w 0, src2 := lget 0 w 1, dst := lget 0 w 5, n := pairs, lags := lags,
                                 first := s16 (lget 0 w 4) }],
        corDone := h.clu.corDone.filter fun d => d != t } }, rv t)

/-- A poll: 1 done, 0 pending, 0xFFFF for a tag that is not known (R205). -/
def pollTag (q : List Job) (done : List Nat) (t : Nat) : RVal :=
  if q.any fun j => j.tag == t then rv 0 else if done.contains t then rv 1 else rv 0xFFFF

/-- The words of XE7 (R206). -/
def Hub.versionWord (h : Hub) (sel : Nat) : Nat :=
  match sel with
  | 0 => (Config.version 0).toNat
  | 1 => h.reg 0x27
  | 2 => h.clu.xlMask.toNat * 256 + 0xFF
  | _ => 0x2001

/-- The cluster unit of an opcode: 0 ASRC channels, 1 FFT unit, 2 correlator (R647). -/
def xeUnit (num : Nat) : Nat := if num < 3 then 0 else if num < 5 then 1 else 2

/-- A cluster opcode is issued: the hub after it and the result; XE1 gives a pair as one 32-bit value (R171, R173, R205).
The sample, fill and ratio of a channel are results of the resampler, which the spec does not compute. -/
def Hub.cluOp (h : Hub) (n num : Nat) (args : List Nat) (x : RVal) : Hub × RVal :=
  if num = 7 then (h, rv (h.versionWord (lget 0 args 0)))
  else match h.cluStall n (xeUnit num) with
    | some h => (h, voidZero)
    | none =>
      let owned := h.ownsAsrc n (lget 0 args 0)
      match num with
      | 0 => if owned then (h.tookFree, rv (h.freeVal % 256)) else (h, rv 0xFFFF)
      | 1 => if owned then (h.tookFree, rv (h.freeVal % 2 ^ 24 * 256)) else (h, rv 0xFFFF)
      | 2 => if owned then (h.tookFree, rv (h.freeVal % (if lget 0 args 1 = 0 then 256 else 65536))) else (h, rv 0xFFFF)
      | 3 => h.fftSubmit n (lget 0 args 0) (lget 0 args 1) (lget 0 args 2)
      | 4 => (h, pollTag h.clu.fftq h.clu.fftDone (x.n % 65536))
      | 5 => h.corSubmit n args
      | _ => (h, pollTag h.clu.corq h.clu.corDone (x.n % 65536))

/-- Free result words of a job, written into the submitting engine's X memory word by word (R172); void marks stay (R291). -/
def Hub.jobWords (h : Hub) (n dst k : Nat) : Hub :=
  let h' := h.modEng n fun e => iter k (fun i e =>
    if inMem 0 (dst + i) then e.outside { mem := 0, addr := dst + i, val := BitVec.ofNat 16 (Config.freeNat (h.free + i)), mark := 2 } else e) e
  { h' with free := h'.free + k }

/-- The FFT job at the head of the queue completes: 256 complex results of two words (R172). -/
def Hub.fftDone (h : Hub) : Hub :=
  match h.clu.fftq with
  | [] => h
  | j :: q => (if h.hasPe j.eng && !j.cal then { h with clu := { h.clu with fftq := q, fftDone := h.clu.fftDone ++ [j.tag] } }.jobWords j.eng j.dst 512
               else { h with clu := { h.clu with fftq := q, fftDone := h.clu.fftDone ++ [j.tag] } })

/-- The correlator job at the head of the queue completes: a word triple for each lag (R171, R172). -/
def Hub.corDone (h : Hub) : Hub :=
  match h.clu.corq with
  | [] => h
  | j :: q =>
    let h := { h with clu := { h.clu with corq := q, corDone := h.clu.corDone ++ [j.tag] } }
    if j.cal || !h.hasPe j.eng then h else h.jobWords j.eng j.dst (3 * j.lags)

/-- The words 0 to 2 that a transfer sends over the header: engine and opcode number, ARG, the value of SA (R636). -/
def XlReq.words (q : XlReq) : List Nat := [4096 * q.eng + 256 * (q.op % 8), q.arg % 4096, q.sa % 65536]

/-- What the header carries: the words of the one transfer that runs, or none (R636). -/
def Hub.xlLines (h : Hub) : List Nat := (h.clu.xl.head?.map XlReq.words).getD []

/-- A module is detected on the XL header (R175, R637). -/
def Hub.xlPresent (h : Hub) : Bool := bit (h.reg 0x27) 15

/-- XL_ABSENT (R175). -/
def Hub.xlAbsent (h : Hub) (n num pc : Nat) : Hub := h.issueLimited 0 n 0x209 num pc 0

/-- SE_CLSTAT (R177). -/
def Hub.clStat (h : Hub) : Nat :=
  256 * ((List.range 32).filter fun c => h.fld (kAsrc c) 15 14 == 0).length + flagAt (!h.clu.corq.isEmpty) 6 + h.clu.fftq.length

/-- An ASRC owner word written by the host: engine ownership of a channel that the route matrix does not own (R173,
R181); a write to a channel that it owns fails with cause 3. -/
def Hub.asrcAssign (h : Hub) (c w : Nat) : Hub :=
  let own := h.fld (kAsrc c) 15 14
  if own = 1 then h.failWin 3 (0x220 + c)
  else if bits w 15 14 = 2 then (if own = 0 ∨ h.fld (kAsrc c) 3 0 = bits w 3 0 then h.setReg (kAsrc c) (0x8000 + bits w 3 0) else h)
  else if bits w 15 14 = 0 then h.setReg (kAsrc c) 0
  else h

end Sys2Proof.Machine
end

