-- ==== Sys2Proof/Machine/CalHit.lean ====
section
/-! DEFINITION. CalHit.lean: what other units do to live calibration: conditions that break open windows, failures, the
loss of the calibration engine (R484, R490, R491, R499). -/

namespace Sys2Proof.Machine

/-- A word of space 0x21 (R505). -/
def kCal (o : Nat) : Nat := spc 0x21 o

def Hub.modCal (h : Hub) (f : Cal → Cal) : Hub := { h with cal := f h.cal }

/-- The sink slot of an amplifier channel. -/
def Hub.ampSink (h : Hub) (n : Nat) : Nat := h.fld (spc 0x3F (0x880 + 16 * n)) 8 0

/-- A condition is broken that the next tick of the windows named will see; the lower reason stays. -/
def Hub.calHit (h : Hub) (reason : Nat) (p : CalWin → Bool) : Hub :=
  h.modCal fun c => { c with wins := c.wins.map fun w => if p w then { w with hit := some (min reason (w.hit.getD reason)) } else w }

/-- A crosspoint of a sink or the allocation of its slot changes: reason 5 for line and path windows. -/
def Hub.calHitSink (h : Hub) (slot : Nat) : Hub := h.calHit 5 fun w => w.kind < 3 && h.ampSink w.amp == slot

/-- The MODE of an input is written: reason 7 for path and noise windows. -/
def Hub.calHitMic (h : Hub) (m : Nat) : Hub := h.calHit 7 fun w => 1 < w.kind && w.mic == m

/-- The REASON word of a unit. -/
def kReason (w : CalWin) : Nat :=
  if w.kind = 1 then kCal (0x10E + 32 * w.amp) else if w.kind = 2 then kCal (0x206 + 16 * (8 * w.amp + w.mic)) else kCal (0x604 + 16 * w.mic)

/-- How the events name a unit. -/
def unitCode (kind amp mic : Nat) : Nat :=
  4096 * kind + (if kind = 3 then 0 else 16 * amp) + (if kind = 1 then 0 else mic)

/-- The pilot fades out over `ms`; PILOT_STOP follows with its cause when it is off (R499, R500). -/
def Hub.pilotStop (h : Hub) (cause ms : Nat) : Hub :=
  match h.cal.pilot with
  | some p =>
    if p.out.isSome then h
    else h.modCal fun c => { c with pilot := some { p with out := some (rateHz (h.dom (h.clko 2).dom).rate * ms / 1000), cause := cause } }
  | none => h

/-- A forced measurement ends (R498 step 5). -/
def Hub.forceDone (h : Hub) (reason : Nat) : Hub :=
  match h.cal.forced with
  | some f => (h.modCal fun c => { c with forced := none }).issue 167 1 (unitCode f.kind f.amp f.mic) reason (b2n f.pilot)
  | none => h

/-- A window fails: nothing of it is published (R491). -/
def Hub.calFail (h : Hub) (w : CalWin) (reason : Nat) : Hub :=
  let k := kCal (0x780 + 2 * reason)
  let h := ((h.setReg (kReason w) reason).addSat k 2 1).setFlag (kCal 0x800)
  let u := unitCode w.kind w.amp w.mic
  let h := h.issueLimited u 165 1 u reason (h.reg k)
  if w.forced then h.forceDone reason else h

/-- Calibration stops: 1 the engine is released, 2 it fails and no spare is available; every open window fails (R484). -/
def Hub.calStop (h : Hub) (cause : Nat) : Hub :=
  if ¬ h.cal.on then h
  else
    let ws := h.cal.wins ++ h.cal.work
    let h := ws.foldl (fun h w => h.calFail w 9) ((h.modCal fun c => { c with wins := [], work := [] }).pilotStop 3 20)
    let h := (h.forceDone 9).modCal fun c => { c with on := false }
    ((h.setFld 0x5C 15 15 0).setFlag (kCal 0x804)).issue 164 2 cause (h.fld 0x5C 3 0) 0

/-- Does calibration hold engine `n` (R483). -/
def Hub.calHolds (h : Hub) (n : Nat) : Bool := h.cal.on && h.fld 0x5C 3 0 == n

/-- The calibration engine is declared failing: every open window fails with reason 9 (R484). -/
def Hub.calLost (h : Hub) (n : Nat) : Hub :=
  if ¬ h.calHolds n then h
  else
    let fail := fun (w : CalWin) => { w with reason := w.reason.orElse fun _ => some 9 }
    let h := (h.modCal fun c => { c with wins := c.wins.map fail, work := c.work.map fail }).pilotStop 3 20
    match h.cal.forced with
    | some f => if f.st = .window then h else h.forceDone 9
    | none => h

end Sys2Proof.Machine
end

