-- ==== Sys2Proof/Machine/Flags.lean ====
section
/-! DEFINITION. Flags.lean: rounding, fitting and the sticky bits of SR (R213 to R218). -/

namespace Sys2Proof.Machine

/-- SR.V, SR.G, SR.S and SR.T by weight (R234). -/
def bV : Nat := 1
def bG : Nat := 2
def bS : Nat := 4
def bT : Nat := 8

/-- Bits below `k` of an exact value rounded away, the value's alignment kept: convergent, or truncating with `rm`
(R216). -/
def roundAt (t : Int) (k : Nat) (rm : Bool) : Int :=
  if k = 0 then t
  else
    let q := t / 2 ^ k
    let r := t - q * 2 ^ k
    let half : Int := 2 ^ (k - 1)
    let q := if !rm && (decide (half < r) || (r == half && q % 2 == 1)) then q + 1 else q
    q * 2 ^ k

/-- A right shift with rounding (R216). -/
def shrRound (t : Int) (k : Nat) (rm : Bool) : Int := roundAt t k rm / 2 ^ k

/-- A value fitted to `w` signed bits, and the sticky bit that fitting sets: S where it clamps, else V or G where it wraps
(R217). -/
def fit (t : Int) (w : Nat) (sat : Bool) : Int × Nat :=
  let hi : Int := 2 ^ (w - 1) - 1
  let lo : Int := -2 ^ (w - 1)
  if lo ≤ t ∧ t ≤ hi then (t, 0)
  else if sat then (if hi < t then hi else lo, bS)
  else ((BitVec.ofInt w t).toInt, if w = 40 then bG else bV)

end Sys2Proof.Machine
end

