-- ==== Sys2Proof/Machine/Arith.lean ====
section
/-! DEFINITION. Arith.lean: what each M-slot and X-slot operation computes, and which encodings of it are defined
(R209, R219 to R232). -/

namespace Sys2Proof.Machine

/-! ### Multiply and accumulate (R219 to R221) -/

/-- AUX[1]: round the result at bit 16. -/
def mmR (f : MM) : Bool := f.aux.getLsbD 1

/-- AUX[0]: integer product. -/
def mmI (f : MM) : Bool := f.aux.getLsbD 0

/-- A 16-bit operand taken signed or unsigned (R220). -/
def opnd (r : RVal) (uns : Bool) : Int := if uns then (r.n % 65536 : Nat) else r.s 16

/-- A result fitted into accumulator `ad`, at distance 3 (R196, R217). -/
def accResult (f : MM) (t : Int) (chain : Bool) (ops : List RVal) : Eff :=
  let (x, st) := fit (if mmR f then roundAt t 16 f.rm else t) 40 f.sat
  { wr := [{ ref := rA f.ad, val := (rvI 40 x).joins ops, dist := 3, mac := chain }], ops := ops, stick := st }

/-- The exact product of MPY, MAC and MSU, with its operands. -/
def View.prod16 (v : View) (f : MM) : Int × List RVal :=
  let a := v.d 0 f.sa
  let b := v.d 2 f.sb
  let p := opnd a (2 ≤ f.sg.val) * opnd b (f.sg.val % 2 = 1)
  (if mmI f then p else 2 * p, [a, b])

/-- The product of MPYD, MACD and MSUD, rounded once at the bits it discards. -/
def View.prod32 (v : View) (f : MM) : Int × List RVal :=
  let a := v.pair 0 f.sa
  let b := v.d 2 f.sb
  let x : Int := if 2 ≤ f.sg.val then (a.n : Int) else a.s 32
  (shrRound (x * opnd b (f.sg.val % 2 = 1) * 2) 16 f.rm, [a, b])

/-- The accumulator that a chained accumulation adds into. -/
def View.acc (v : View) (f : MM) : RVal := v.chain 3 (rA f.ad)

/-- MPY (R220). -/
def mpyEff (v : View) (f : MM) : Eff := let p := v.prod16 f; accResult f p.1 false p.2
/-- MAC (R220). -/
def macEff (v : View) (f : MM) : Eff := let p := v.prod16 f; accResult f ((v.acc f).s 40 + p.1) true (v.acc f :: p.2)
/-- MSU (R220). -/
def msuEff (v : View) (f : MM) : Eff := let p := v.prod16 f; accResult f ((v.acc f).s 40 - p.1) true (v.acc f :: p.2)
/-- MPYD (R220). -/
def mpydEff (v : View) (f : MM) : Eff := let p := v.prod32 f; accResult f p.1 false p.2
/-- MACD (R220). -/
def macdEff (v : View) (f : MM) : Eff := let p := v.prod32 f; accResult f ((v.acc f).s 40 + p.1) true (v.acc f :: p.2)
/-- MSUD (R220). -/
def msudEff (v : View) (f : MM) : Eff := let p := v.prod32 f; accResult f ((v.acc f).s 40 - p.1) true (v.acc f :: p.2)

/-- ACLR (R221): zero, a Q1.15 value or a Q1.31 value; no sticky bit. -/
def aclrEff (v : View) (f : MM) : Eff :=
  match f.aux.toNat % 4 with
  | 0 => .one (rA f.ad) 3 (rv 0) []
  | 1 => let a := v.d 0 f.sa; .one (rA f.ad) 3 (rvI 40 (a.s 16 * 65536)) [a]
  | _ => let a := v.pair 0 f.sa; .one (rA f.ad) 3 (rvI 40 (a.s 32)) [a]

/-- ASHF (R221): shift by the signed AUX. -/
def ashfEff (v : View) (f : MM) : Eff :=
  let a := v.reg 0 (rA (f.sa.val % 4))
  let k := f.aux.toInt
  let t := if 0 ≤ k then a.s 40 * 2 ^ k.toNat else shrRound (a.s 40) (-k).toNat f.rm
  let (x, st) := fit t 40 f.sat
  .one (rA f.ad) 3 (rvI 40 x) [a] st

/-- AADD (R221). -/
def aaddEff (v : View) (f : MM) : Eff :=
  let a := v.reg 0 (rA f.ad)
  let b := v.reg 1 (rA (f.sa.val % 4))
  accResult f (a.s 40 + b.s 40) false [a, b]

/-- ASUB (R221). -/
def asubEff (v : View) (f : MM) : Eff :=
  let a := v.reg 0 (rA f.ad)
  let b := v.reg 1 (rA (f.sa.val % 4))
  accResult f (a.s 40 - b.s 40) false [a, b]

/-- Reserved AUX bits of MPY, MAC and MSU are 0 (R219). -/
def mmOk16 (f : MM) : Bool := f.aux.toNat < 4
/-- MPYD, MACD and MSUD name an even pair, and AUX[0] is reserved (R209, R219). -/
def mmOk32 (f : MM) : Bool := f.sa.val % 2 == 0 && f.aux.toNat < 4 && !mmI f
/-- ACLR's reserved fields (R219). -/
def mmOkClr (f : MM) : Bool :=
  !f.sat && !f.rm && f.sg == 0 && f.sb == 0 && f.aux.toNat < 3 && (f.aux != 0 || f.sa == 0) &&
    (f.aux != 2 || f.sa.val % 2 == 0)
/-- ASHF's reserved fields (R219). -/
def mmOkShf (f : MM) : Bool := f.sb == 0 && f.sg == 0 && f.sa.val < 4
/-- AADD's and ASUB's reserved fields (R219). -/
def mmOkAdd (f : MM) : Bool := mmOkShf f && (f.aux == 0 || f.aux == 2)

/-! ### X-slot operations (R222 to R229) -/

/-- The functions ALU and DALU share, on `w`-bit operands: result and sticky bit; AVG, MINU and MAXU are ALU's alone
(R222, R225). -/
def aluFn (fn w : Nat) (sat rm : Bool) (a b : Nat) : Int × Nat :=
  let sa := sgn w a
  let sb := sgn w b
  match fn with
  | 0 => fit (sa + sb) w sat
  | 1 => fit (sa - sb) w sat
  | 2 => fit (-sa) w sat
  | 3 => fit (if sa < 0 then -sa else sa) w sat
  | 4 => ((a &&& b : Nat), 0)
  | 5 => ((a ||| b : Nat), 0)
  | 6 => ((a ^^^ b : Nat), 0)
  | 7 => ((2 ^ w - 1 - a : Nat), 0)
  | 8 => (min sa sb, 0)
  | 9 => (max sa sb, 0)
  | 10 => ((min a b : Nat), 0)
  | 11 => ((max a b : Nat), 0)
  | _ => (shrRound (sa + sb) 1 rm, 0)

/-- Does a function of ALU or DALU read SA alone. -/
def fnUnary (fn : Nat) : Bool := fn == 2 || fn == 3 || fn == 7

/-- ALU (R222). -/
def aluEff (v : View) (f : XR) : Eff :=
  let a := v.d 0 f.sa
  let b := v.d 1 f.sb
  let (x, st) := aluFn f.fn 16 f.sat f.rm a.n b.n
  .one f.dst 1 (rvI 16 x) (if fnUnary f.fn then [a] else [a, b]) st

/-- Defined encodings of ALU: FN 0 to 12, SAT only where it fits, RM only with AVG (R222). -/
def aluOk (f : XR) : Bool :=
  f.fn.val < 13 && (f.fn.val < 4 || !f.sat) && (f.fn.val == 12 || !f.rm) && (!fnUnary f.fn || f.sb == 0) && f.ax == 0

/-- DALU (R225). -/
def daluEff (v : View) (f : XR) : Eff :=
  let a := v.pair 0 f.sa
  let b := v.pair 2 f.sb
  let (x, st) := aluFn f.fn 32 f.sat f.rm a.n b.n
  .pair f.dst 1 (BitVec.ofInt 32 x).toNat (if fnUnary f.fn then [a] else [a, b]) st

/-- Defined encodings of DALU: even registers, FN 0 to 6, 8 and 9 (R225). -/
def daluOk (f : XR) : Bool :=
  (f.fn.val < 7 || f.fn.val == 8 || f.fn.val == 9) && f.dst.val % 2 == 0 && f.sa.val % 2 == 0 && f.sb.val % 2 == 0 &&
    (f.fn.val < 4 || !f.sat) && !f.rm && (!fnUnary f.fn || f.sb == 0) && f.ax == 0

/-- SHF (R223). -/
def shfEff (v : View) (f : XR) : Eff :=
  let imm := 4 ≤ f.fn.val
  let a := v.d 0 f.sa
  let c := v.d 1 f.sb
  let n := if imm then f.sb.val else c.n % 32
  let ops := if imm then [a] else [a, c]
  let u := a.n % 65536
  match f.fn.val % 4 with
  | 0 => let (x, st) := fit (a.s 16 * 2 ^ n) 16 f.sat; .one f.dst 1 (rvI 16 x) ops st
  | 1 => .one f.dst 1 (rv (u / 2 ^ n)) ops
  | 2 => .one f.dst 1 (rvI 16 (shrRound (a.s 16) (min n 16) f.rm)) ops
  | _ => let k := n % 16; .one f.dst 1 (rv (u * 2 ^ k % 65536 + u / 2 ^ (16 - k))) ops

/-- Defined encodings of SHF: FN[3] 0, SAT with the left shift, RM with the arithmetic right shift (R223). -/
def shfOk (f : XR) : Bool :=
  f.fn.val < 8 && (f.fn.val % 4 == 0 || !f.sat) && (f.fn.val % 4 == 2 || !f.rm) && f.ax == 0

/-- CMP (R224): the condition, and with FN[3] its AND with the predicate's present value. -/
def cmpEff (v : View) (f : XR) : Eff :=
  let a := v.d 0 f.sa
  let b := v.d 1 f.sb
  let p := v.reg 2 (rF f.dst)
  let c := match f.fn.val % 8 with
    | 0 => a.n == b.n
    | 1 => a.n != b.n
    | 2 => decide (a.s 16 < b.s 16)
    | 3 => decide (a.s 16 ≤ b.s 16)
    | 4 => decide (a.n < b.n)
    | 5 => decide (a.n ≤ b.n)
    | _ => a.n &&& b.n != 0
  if 8 ≤ f.fn.val then .one (rF f.dst) 2 (rv (b2n (c && p.n == 1))) [a, b, p] else .one (rF f.dst) 2 (rv (b2n c)) [a, b]

/-- Defined encodings of CMP (R224). -/
def cmpOk (f : XR) : Bool := f.dst.val < 4 && f.fn.val % 8 != 7 && !f.sat && !f.rm && f.ax == 0

/-- EXT (R226). -/
def extEff (v : View) (f : XR) : Eff :=
  let a := v.reg 0 (rA f.ax)
  match f.fn.val with
  | 0 => let (x, st) := fit (shrRound (a.s 40) 16 f.rm) 16 f.sat; .one f.dst 1 (rvI 16 x) [a] st
  | 1 => .one f.dst 1 (rv (a.n % 65536)) [a]
  | 2 => let (x, st) := fit (a.s 40) 32 f.sat; .pair f.dst 1 (BitVec.ofInt 32 x).toNat [a] st
  | 3 => .one f.dst 1 (rvI 16 (a.s 40 / 2 ^ 32)) [a]
  | _ => let (x, st) := fit (a.s 40) 16 f.sat; .one f.dst 1 (rvI 16 x) [a] st

/-- Defined encodings of EXT (R226). -/
def extOk (f : XR) : Bool :=
  f.fn.val < 5 && f.sa == 0 && f.sb == 0 && (f.fn.val % 2 == 0 || !f.sat) && (f.fn.val == 0 || !f.rm) &&
    (f.fn.val != 2 || f.dst.val % 2 == 0)

/-- The registers that a file code and number name (R228); none for the predicate word and for undefined numbers. -/
def fileReg (file r : Nat) : Option Nat :=
  match file with
  | 0 => some r
  | 1 => some (if r < 8 then rP r else rO (r - 8))
  | 2 => some (if r < 8 then rB r else rL (r - 8))
  | _ =>
    if r = 0 then some rSR
    else if r = 1 then some rSP
    else if r < 4 then none
    else if r < 8 then some (rLS (r - 4))
    else if r < 12 then some (rLE (r - 8))
    else some (rLC (r - 12))

/-- A register of a file read as operand `i` (R228): the predicate word joins its four predicates. -/
def View.file (v : View) (i file r : Nat) : RVal :=
  match fileReg file r with
  | some ref => v.reg i ref
  | none =>
    let p := fun k => v.reg (i + k) (rF k)
    (rv ((p 0).n + 2 * (p 1).n + 4 * (p 2).n + 8 * (p 3).n)).joins [p 0, p 1, p 2, p 3]

/-- The distance at which MOV and INS write a register: loop registers 4, SR the sticky-bit distance 3, the others 1
(R196, R215). -/
def fileDist (ref : Nat) : Nat := if 72 ≤ ref then 4 else if ref = rSR then 3 else 1

/-- A value written to a register of a file (R228); the predicate word lands at the predicate distance. SR's reserved
field stays zero (R17, R234). -/
def fileWrite (file r : Nat) (x : RVal) (ops : List RVal) : Eff :=
  match fileReg file r with
  | some ref => .one ref (fileDist ref) { x with v := x.v &&& (if ref = rSR then 0xF else 0xFFFF) } ops
  | none =>
    { wr := (List.range 4).map fun k => { ref := rF k, val := (rv (x.n / 2 ^ k % 2)).joins (x :: ops), dist := 2 }, ops := ops }

/-- MOV (R228). -/
def movEff (v : View) (f : XR) : Eff :=
  let a := v.file 0 (f.fn.val % 4) f.sa
  fileWrite (f.fn.val / 4) f.dst a [a]

/-- INS (R227). -/
def insEff (v : View) (f : XR) : Eff :=
  let old := v.file 0 (f.fn.val / 4) f.dst
  let a := v.d 4 f.sa
  let c := v.d 5 f.sb
  let mask := (2 ^ (c.n / 16 % 16 + 1) - 1) * 2 ^ (c.n % 16) % 65536
  let x := (old.n % 65536 &&& (65535 - mask)) ||| (a.n * 2 ^ (c.n % 16) % 65536 &&& mask)
  fileWrite (f.fn.val / 4) f.dst (rv x) [old, a, c]

/-- A destination that MOV and INS may name: not special register 3; in bundle mode no loop register and not SP (R193,
R228). -/
def fileDstOk (bg : Bool) (file r : Nat) : Bool :=
  file < 3 || (r != 3 && (bg || r == 0 || r == 2))

/-- Defined encodings of MOV (R228, R193). -/
def movOk (bg : Bool) (f : XR) : Bool :=
  f.sb == 0 && !f.sat && !f.rm && f.ax == 0 && (f.fn.val % 4 < 3 || f.sa != 3) && fileDstOk bg (f.fn.val / 4) f.dst

/-- Defined encodings of INS (R227, R193). -/
def insOk (bg : Bool) (f : XR) : Bool :=
  f.fn.val % 4 == 0 && !f.sat && !f.rm && f.ax == 0 && fileDstOk bg (f.fn.val / 4) f.dst

/-- LDX (R229). -/
def ldxEff (f : TI) : Eff := .one f.dst 1 (rv f.imm.toNat) []

/-! ### Add-compare-select and traceback (R230 to R232) -/

/-- ACS (R230). -/
def acsEff (v : View) (f : XR) : Eff :=
  let m0 := v.d 0 f.sa
  let m1 := v.d 1 (f.sa.val + 1)
  let bm := v.d 2 f.sb
  let dec := v.reg 3 (rA f.ax)
  let fn := f.fn.val
  let s := if fn % 2 = 1 then -(bm.s 16) else bm.s 16
  let a0 := m0.s 16 + s
  let b0 := m1.s 16 - s
  let a1 := m0.s 16 - s
  let b1 := m1.s 16 + s
  let better := fun x : Int => let d := (BitVec.ofInt 16 x).toInt; if fn / 2 % 2 = 1 then decide (d < 0) else decide (0 < d)
  let d0 := better (b0 - a0)
  let d1 := better (b1 - a1)
  let ops := [m0, m1, bm, dec]
  { wr := [{ ref := f.dst, val := (rvI 16 (if d0 then b0 else a0)).joins ops, dist := 1 },
           { ref := f.dst.val + 1, val := (rvI 16 (if d1 then b1 else a1)).joins ops, dist := 1 },
           { ref := rA f.ax, val := (rv ((dec.n * 4 + 2 * b2n d1 + b2n d0) % 2 ^ 40)).joins ops, dist := 1 },
           { ref := rF (fn / 4), val := (rv (b2n d0)).joins ops, dist := 2 }], ops := ops }

/-- Defined encodings of ACS (R209, R230). -/
def acsOk (f : XR) : Bool := f.sa.val % 2 == 0 && f.dst.val % 2 == 0 && !f.sat && !f.rm

/-- The circular step of a pointer (R190, R236). -/
def circ (p b l o : Nat) : Nat :=
  if l = 0 then (((p : Int) + s16 o) % 65536).toNat
  else (b + (((p : Int) - b + s16 o) % l).toNat) % 65536

/-- ACSTB (R231, R232): one step back through a 64-state trellis, over D15, D14 and P7. -/
def acstbEff (v : View) (l : List Ecc) : Eff :=
  let d15 := v.d 0 15
  let d14 := v.d 1 14
  let p7 := v.reg 2 (rP 7)
  let st := d15.n % 64
  let j := st % 32
  let hi := st / 32
  let (w, ecc) := v.read 0 ((p7.n + j / 8) % 65536) (found l 0)
  let dec := w.n / 2 ^ (2 * (7 - j % 8) + hi) % 2
  { wr := [{ ref := 14, val := (rv (d14.n / 2 + hi * 32768)).joins [d14, d15, w], dist := 2 },
           { ref := 15, val := (rv (2 * j + dec)).joins [d14, d15, w], dist := 2 },
           { ref := rP 7, val := rv (circ p7.n (v.reg 3 (rB 7)).n (v.reg 4 (rL 7)).n (v.reg 5 (rO 7)).n), dist := 1 }],
    ops := [d14, d15, w], ecc := ecc }

end Sys2Proof.Machine
end

