-- ==== Sys2Proof/Machine/MemOps.lean ====
section
/-! DEFINITION. MemOps.lean: what each T-slot and K-slot operation and each extension opcode does, and which encodings
of them are defined (R189 to R193, R204, R205, R235 to R256). -/

namespace Sys2Proof.Machine

/-! ### Loads, stores and pointers (R190, R235 to R240) -/

/-- The signed displacement or step of OFS (R190). -/
def tmStep (f : TM) : Int := f.ofs.toInt

/-- Index of O, B and L that OFS[2:0] names. -/
def tmIdx (f : TM) : Nat := f.ofs.toNat % 8

/-- The pointer of a TM operation. -/
def View.tmPtr (v : View) (f : TM) : Nat := (v.reg 8 (rP f.pr)).n

/-- The address of a TM access (R190, R235). -/
def View.tmAddr (v : View) (f : TM) : Nat :=
  let a := if f.am = 0 then (((v.tmPtr f : Int) + tmStep f) % 65536).toNat else v.tmPtr f
  if f.w then a / 2 * 2 else a

/-- The pointer after post-modification (R190, R236). -/
def View.tmPost (v : View) (f : TM) : Nat :=
  let p := v.tmPtr f
  let o := (v.reg 9 (rO (tmIdx f))).n
  match f.am with
  | 0 => p
  | 1 => (p + o) % 65536
  | 2 => (((p : Int) + tmStep f) % 65536).toNat
  | 3 => circ p (v.reg 10 (rB (tmIdx f))).n (v.reg 11 (rL (tmIdx f))).n o

/-- The pointer write of a TM operation: none with AM 0. -/
def View.tmWr (v : View) (f : TM) : List Wr := if f.am = 0 then [] else [{ ref := rP f.pr, val := rv (v.tmPost f), dist := 1 }]

/-- LD (R235, R238). -/
def ldEff (v : View) (f : TM) (l : List Ecc) : Eff :=
  let m := b2n f.ms
  let a := v.tmAddr f
  let (x, e1) := v.read m a (found l 0)
  if f.w then
    let (y, e2) := v.read m (a + 1) (found l 1)
    { wr := [{ ref := f.dr, val := x, dist := 2 }, { ref := f.dr.val + 1, val := y, dist := 2 }] ++ v.tmWr f, ops := [x, y], ecc := e1 ++ e2 }
  else { wr := { ref := f.dr, val := x, dist := 2 } :: v.tmWr f, ops := [x], ecc := e1 }

/-- ST (R235, R239): the pointer steps at issue. -/
def stEff (v : View) (f : TM) : Eff :=
  let m := b2n f.ms
  let a := v.tmAddr f
  let x := v.d 0 f.dr
  let wr := (v.tmWr f).map fun w => { w with free := true }
  if f.w then
    let y := v.d 1 (f.dr.val + 1)
    { wr := wr, st := [(m, a, x), (m, a + 1, y)], ops := [x, y] }
  else { wr := wr, st := [(m, a, x)], ops := [x] }

/-- MODP (R237). -/
def modpEff (v : View) (f : TM) : Eff := { wr := v.tmWr f }

/-- Defined encodings of a post-modification: OFS[8:3] is reserved with AM 1 and AM 3 (R190). -/
def tmOfsOk (f : TM) : Bool := (f.am != 1 && f.am != 3) || f.ofs.toNat < 8

/-- Defined encodings of LD and ST: DR even with W (R189, R235). -/
def tmOk (f : TM) : Bool := tmOfsOk f && (!f.w || f.dr.val % 2 == 0)

/-- Defined encodings of MODP (R237). -/
def modpOk (f : TM) : Bool := tmOfsOk f && f.am != 0 && f.dr == 0 && !f.ms && !f.w

/-- PUSH and POP use only DR (R250). -/
def stackOk (f : TM) : Bool := f.pr == 0 && !f.ms && !f.w && f.am == 0 && f.ofs == 0

/-- An immediate load into a register (R240). -/
def immEff (ref dist : Nat) (f : TI) : Eff := .one ref dist (rv f.imm.toNat) []

/-- LDI (R240). -/
def ldiEff (f : TI) : Eff := immEff f.dst 1 f
/-- LDIP (R240). -/
def ldipEff (f : TI) : Eff := immEff (rP (f.dst.val % 8)) 1 f
/-- LDIO (R240). -/
def ldioEff (f : TI) : Eff := immEff (rO (f.dst.val % 8)) 1 f
/-- LDIB (R240). -/
def ldibEff (f : TI) : Eff := immEff (rB (f.dst.val % 8)) 1 f
/-- LDIL (R240). -/
def ldilEff (f : TI) : Eff := immEff (rL (f.dst.val % 8)) 1 f
/-- LDIR (R191, R240): the level is DST[3:2], and DST[1:0] selects LS, LE or LC. -/
def ldirEff (f : TI) : Eff :=
  let v := f.dst.val / 4
  immEff (match f.dst.val % 4 with | 0 => rLS v | 1 => rLE v | _ => rLC v) 4 f

/-! ### Far fetch and far store (R241, R242) -/

/-- FLD and FST: AUX[0] adds N to the pointer, at issue. A void word of a store's source sets T (R213, R294). -/
def farEff (v : View) (f : TF) (store : Bool) (l : List Ecc) : Eff :=
  let fa := v.pair 0 f.fa
  let px := v.reg 8 (rP f.px)
  let n := f.nm1.toNat + 1
  let src := if store then (List.range n).map fun i => v.read 0 ((px.n + i) % 0x8000) (found l i) else []
  { far := some { store := store, far := fa.n % 2 ^ 24, x := px.n % 0x8000, n := n,
                  data := src.map fun p => BitVec.ofNat 16 p.1.n, bg := v.bg },
    wr := if f.aux.getLsbD 0 then [{ ref := rP f.px, val := rv ((px.n + n) % 65536), dist := 1, free := true }] else [],
    ops := [fa], met := src.map Prod.fst, ecc := (src.map Prod.snd).flatten }

/-- FLD (R241). -/
def fldEff (v : View) (f : TF) : Eff := farEff v f false []
/-- FST (R241). -/
def fstEff (v : View) (f : TF) (l : List Ecc) : Eff := farEff v f true l

/-- Defined encodings of FLD and FST: FA even, AUX[4:1] reserved (R241). -/
def tfOk (f : TF) : Bool := f.fa.val % 2 == 0 && f.aux.toNat < 2

/-! ### The stack, CALL and RET (R249, R250) -/

/-- SPLIM of the bank in view. -/
def View.splim (v : View) : Nat := v.h.reg (kSe v.n (if v.bg then 0x109 else 0x107))
/-- SPTOP of the bank in view. -/
def View.sptop (v : View) : Nat := v.h.reg (kSe v.n (if v.bg then 0x108 else 0x106))

/-- PUSH (R250). -/
def pushEff (v : View) (f : TM) : Eff :=
  let sp := (v.reg 8 rSP).n
  let x := v.d 0 f.dr
  if sp < v.splim then { fault := 1 }
  else { st := [(0, sp, x)], wr := [{ ref := rSP, val := rv ((sp + 65535) % 65536), dist := 1 }], ops := [x] }

/-- POP (R250). -/
def popEff (v : View) (f : TM) (l : List Ecc) : Eff :=
  let sp := (v.reg 8 rSP).n
  if v.sptop ≤ sp then { fault := 2 }
  else
    let (x, e) := v.read 0 (sp + 1) (found l 0)
    { wr := [{ ref := f.dr, val := x, dist := 2 }, { ref := rSP, val := rv (sp + 1), dist := 1 }], ops := [x], ecc := e }

/-- CALL (R249): pushes Dn of the mask ascending, the mask and the link word, and jumps. -/
def callEff (v : View) (tgt mask : Nat) : Eff :=
  let sp := (v.reg 8 rSP).n
  let rs := (List.range 16).filter fun i => bit mask i
  let k := rs.length
  let regs := rs.map fun i => v.d (i % 8) i
  let link := (v.last + (if v.bg then 2 else 1)) % 0x8000
  let words := regs ++ [rv mask, rv link]
  if sp + 1 < v.splim + k + 2 then { fault := 1 }
  else
    { st := words.zipIdx.map fun p => (0, sp - p.2, p.1), wr := [{ ref := rSP, val := rv ((sp + 65536 - (k + 2)) % 65536), dist := 1 }],
      ops := regs, ctl := .jump tgt }

/-- RET (R249): pops the link word, the mask and Dn of the mask descending, and jumps. -/
def retEff (v : View) (l : List Ecc) : Eff :=
  let sp := (v.reg 8 rSP).n
  let held := v.sptop - sp
  let (link, e1) := v.read 0 (sp + 1) (found l 0)
  let (mask, e2) := v.read 0 (sp + 2) (found l 1)
  let rs := ((List.range 16).filter fun i => bit mask.n i).reverse
  let k := rs.length
  if held < 2 ∨ held < k + 2 then { fault := 2 }
  else
    let rd := rs.zipIdx.map fun p => (p.1, v.read 0 (sp + 3 + p.2) (found l (2 + p.2)))
    { wr := rd.map (fun p => { ref := p.1, val := p.2.1, dist := 2 }) ++ [{ ref := rSP, val := rv ((sp + k + 2) % 65536), dist := 1 }],
      ops := [link, mask] ++ rd.map fun p => p.2.1,
      ecc := e1 ++ e2 ++ (rd.map fun p => p.2.2).flatten,
      ctl := .jump (link.n % 0x8000) }

/-! ### Repeats, branches and events (R243, R253) -/

/-- DO (R243). -/
def doEff (v : View) (cm1 ofs : Nat) : Eff :=
  let d := v.b.depth
  let a := v.last + 1
  if 4 ≤ d then { fault := 3 }
  else { wr := [{ ref := rLS d, val := rv (a % 0x8000), dist := 4 }, { ref := rLE d, val := rv ((a + ofs) % 0x8000), dist := 4 },
                { ref := rLC d, val := rv (cm1 + 1), dist := 4 }],
         ctl := .enter }

/-- DOR (R243): LE and LC stay as written. -/
def dorEff (v : View) : Eff :=
  if 4 ≤ v.b.depth then { fault := 3 } else { wr := [{ ref := rLS v.b.depth, val := rv ((v.last + 1) % 0x8000), dist := 4 }], ctl := .enter }

/-- BR (R203). -/
def brEff (tgt : Nat) : Eff := { ctl := .branch tgt }
/-- BRP (R191, R203): SA[2:0] names the pointer that holds the target. -/
def brpEff (v : View) (f : XR) : Eff := { ctl := .branch ((v.reg 8 (rP (f.sa.val % 8))).n % 0x8000) }
/-- BRP uses SA[2:0] only. -/
def brpOk (f : XR) : Bool := f.dst == 0 && f.sa.val < 8 && f.sb == 0 && !f.sat && !f.rm && f.fn == 0 && f.ax == 0

/-- The event number alone is used by WFE and SEV (R189). -/
def evOk (f : KW) : Bool := f.cr == 0 && f.dom == 0
/-- WTC: CR even, EV reserved. -/
def wtcOk (f : KW) : Bool := f.cr.val % 2 == 0 && f.ev == 0
/-- REP (R189, R191, R193): the count from CM1, or in compact mode from a register; REPN counts to 64 at most. -/
def repOk (bg : Bool) (f : KR) : Bool :=
  if f.rs then bg && f.cm1 == 0 else f.cr == 0 && (!f.n || f.cm1.toNat < 64)

/-- The repetitions that REP asks for (R247); a void register count is 0. -/
def View.repCount (v : View) (f : KR) : Nat :=
  if f.rs then
    let c := v.d 0 f.cr
    if c.void then 0 else min (c.n % 65536) (if f.n then 64 else 4096)
  else f.cm1.toNat + 1

/-! ### Extension opcodes (R204, R205) -/

/-- An extension opcode with its operand `x`. -/
def extOp (num : Nat) (args : List Nat) (dst : Nat) (x : RVal) : Eff := { ext := some (num, args, dst, x), ops := [x] }

/-- XE0 ASRC put. -/
def asrcPutEff (v : View) (f : XE) : Eff := extOp 0 [f.arg.toNat] f.dst (v.pair 0 f.sa)
/-- XE1 ASRC get. -/
def asrcGetEff (f : XE) : Eff := extOp 1 [f.arg.toNat] f.dst (rv 0)
/-- XE2 ASRC status. -/
def asrcStatusEff (f : XE) : Eff := extOp 2 [f.arg.toNat % 32, f.arg.toNat / 32] f.dst (rv 0)
/-- XE3 FFT submit: source and destination by pointers, [6] inverse. -/
def fftSubmitEff (v : View) (f : XE) : Eff :=
  extOp 3 [(v.reg 8 (rP (f.arg.toNat % 8))).n, (v.reg 9 (rP (f.arg.toNat / 8 % 8))).n, f.arg.toNat / 64] f.dst (rv 0)
/-- XE4 FFT poll. -/
def fftPollEff (v : View) (f : XE) : Eff := extOp 4 [] f.dst (v.d 0 f.sa)
/-- XE5 correlator submit: a six-word block in X memory. -/
def corSubmitEff (v : View) (f : XE) (l : List Ecc) : Eff :=
  let p := (v.reg 8 (rP (f.arg.toNat % 8))).n
  let w := (List.range 6).map fun i => v.read 0 ((p + i) % 65536) (found l i)
  { ext := some (5, w.map (fun x => x.1.n % 65536), f.dst, (rv 0).joins (w.map fun x => x.1)),
    ops := w.map fun x => x.1, ecc := (w.map fun x => x.2).flatten }
/-- XE6 correlator poll. -/
def corPollEff (v : View) (f : XE) : Eff := extOp 6 [] f.dst (v.d 0 f.sa)
/-- XE7 version query. -/
def versionEff (f : XE) : Eff := extOp 7 [f.arg.toNat] f.dst (rv 0)
/-- XE8 to XE15, to the XL header. -/
def xlEff (v : View) (op : Nat) (f : XE) : Eff := extOp (8 + op) [f.arg.toNat] f.dst (v.d 0 f.sa)

/-- Defined encodings of XE0 to XE7: unused fields are 0 (R205, R209). -/
def xeOk (num : Nat) (f : XE) : Bool :=
  match num with
  | 0 => f.sa.val % 2 == 0 && f.arg.toNat < 32
  | 1 => f.dst.val % 2 == 0 && f.sa == 0 && f.arg.toNat < 32
  | 2 => f.sa == 0 && f.arg.toNat < 64
  | 3 => f.sa == 0 && f.arg.toNat < 128
  | 4 => f.arg == 0
  | 5 => f.sa == 0 && f.arg.toNat < 8
  | 6 => f.arg == 0
  | _ => f.sa == 0 && f.arg.toNat < 4

end Sys2Proof.Machine
end

