-- ==== Sys2Proof/Machine/Bundle.lean ====
section
/-! DEFINITION. Bundle.lean: the operations by their slot class, the rules a bundle or a compact operation must meet, and
the effect of each operation (R182 to R193, R201 to R203). -/

namespace Sys2Proof.Machine

/-- The slot classes (R183). -/
inductive Cls where
  | m | x | t | k
deriving DecidableEq

/-- The rank of a class in a bundle (R185). -/
def Cls.rank : Cls → Nat
  | .m => 0 | .x => 1 | .t => 2 | .k => 3

/-- The slot of a command that is an engine operation: its head and class (R191); none for the other commands. -/
def opSlot : Instr → Option (Hdr × Cls)
  | .mpy _ _ hd _ | .mac _ _ hd _ | .msu _ _ hd _ | .mpyd _ _ hd _ | .macd _ _ hd _ | .msud _ _ hd _ | .aclr _ _ hd _
  | .ashf _ _ hd _ | .aadd _ _ hd _ | .asub _ _ hd _ => some (hd, .m)
  | .alu _ _ hd _ | .shf _ _ hd _ | .cmp _ _ hd _ | .opExt _ _ hd _ | .ins _ _ hd _ | .acs _ _ hd _ | .dalu _ _ hd _
  | .opMov _ _ hd _ | .ldx _ _ hd _ => some (hd, .x)
  | .asrcPut _ _ hd _ | .asrcGet _ _ hd _ | .asrcStatus _ _ hd _ | .fftSubmit _ _ hd _ | .fftPoll _ _ hd _
  | .correlatorSubmit _ _ hd _ | .correlatorPoll _ _ hd _ | .versionQuery _ _ hd _ | .xlOpcode _ _ hd _ _ => some (hd, .x)
  | .ld _ _ hd _ | .st _ _ hd _ | .modp _ _ hd _ | .ldi _ _ hd _ | .ldip _ _ hd _ | .ldio _ _ hd _ | .ldib _ _ hd _
  | .ldil _ _ hd _ | .ldir _ _ hd _ | .fld _ _ hd _ | .fst _ _ hd _ | .push _ _ hd _ | .pop _ _ hd _ => some (hd, .t)
  | .opNop _ _ hd | .opEnd _ _ hd _ | .opRep _ _ hd _ | .opDo _ _ hd _ _ | .dor _ _ hd | .call _ _ hd _ _ | .ret _ _ hd
  | .wfe _ _ hd _ | .sev _ _ hd _ | .wtc _ _ hd _ | .wfc _ _ hd | .acstb _ _ hd | .br _ _ hd _ | .brp _ _ hd _ => some (hd, .k)
  | _ => none

/-- Is every field that the operation marks reserved 0, and is the operation defined in its mode (R185, R191, R193,
R201). -/
def opLegal (bg : Bool) : Instr → Bool
  | .mpy _ _ _ f | .mac _ _ _ f | .msu _ _ _ f => mmOk16 f
  | .mpyd _ _ _ f | .macd _ _ _ f | .msud _ _ _ f => mmOk32 f
  | .aclr _ _ _ f => mmOkClr f
  | .ashf _ _ _ f => mmOkShf f
  | .aadd _ _ _ f | .asub _ _ _ f => mmOkAdd f
  | .alu _ _ _ f => aluOk f
  | .shf _ _ _ f => shfOk f
  | .cmp _ _ _ f => cmpOk f
  | .opExt _ _ _ f => extOk f
  | .ins _ _ _ f => insOk bg f
  | .acs _ _ _ f => acsOk f
  | .dalu _ _ _ f => daluOk f
  | .opMov _ _ _ f => movOk bg f
  | .asrcPut _ _ _ f => xeOk 0 f
  | .asrcGet _ _ _ f => xeOk 1 f
  | .asrcStatus _ _ _ f => xeOk 2 f
  | .fftSubmit _ _ _ f => xeOk 3 f
  | .fftPoll _ _ _ f => xeOk 4 f
  | .correlatorSubmit _ _ _ f => xeOk 5 f
  | .correlatorPoll _ _ _ f => xeOk 6 f
  | .versionQuery _ _ _ f => xeOk 7 f
  | .ld _ _ _ f | .st _ _ _ f => tmOk f
  | .modp _ _ _ f => modpOk f
  | .ldip _ _ _ f | .ldio _ _ _ f | .ldib _ _ _ f | .ldil _ _ _ f => f.dst.val < 8
  | .ldir _ _ _ f => f.dst.val % 4 != 3
  | .fld _ _ _ f | .fst _ _ _ f => tfOk f
  | .push _ _ _ f | .pop _ _ _ f => stackOk f
  | .opEnd .. => !bg
  | .opRep _ _ _ f => repOk bg f
  | .call _ _ hd _ lit => !hd.s && lit.toNat / 2 ^ 16 % 2 ^ 15 == 0
  | .wfe _ _ _ f | .sev _ _ _ f => evOk f
  | .wtc _ _ _ f => wtcOk f
  | .br .. => bg
  | .brp _ _ _ f => bg && brpOk f
  | _ => true

/-- The slot words of an operation: CALL takes its literal word with it (R184). -/
def opWords : Instr → Nat
  | .call _ _ hd _ _ => if hd.s then 1 else 2
  | _ => 1

/-- The X and Y accesses of an operation that count under R187 (R187, R232). -/
def opAccess : Instr → Nat × Nat
  | .ld _ _ _ f | .st _ _ _ f => if f.ms then (0, 1) else (1, 0)
  | .fld .. | .fst .. | .push .. | .pop .. | .acstb .. => (1, 0)
  | _ => (0, 0)

/-- PN and PF are 0 where PE is 0 (R182), and so are the operand bits that the form reserves (R185). -/
def hdOk (hd : Hdr) : Bool := (hd.pe || (!hd.pn && hd.pf == 0)) && hd.rsv == 0

/-- The class of an operation. -/
def opCls (i : Instr) : Cls := ((opSlot i).map Prod.snd).getD .k

/-- Does an operation end its bundle: its stop bit, or that of CALL's literal word (R184, R185). -/
def opStops (i : Instr) : Bool :=
  match i, opSlot i with
  | .call _ _ hd _ lit, _ => hd.s || lit.getLsbD 31
  | _, some (hd, _) => hd.s
  | _, none => true

/-- Slot words of a list of operations. -/
def words (is : List Instr) : Nat := (is.map opWords).sum

/-- May the slots stand together as a bundle (R183, R185, R187, R193, R250). -/
def bundleOk (is : List Instr) : Bool :=
  let cs := is.map opCls
  let cnt := fun c => (cs.filter fun d => d == c).length
  let acc := is.map opAccess
  let xs := (acc.map Prod.fst).sum
  let ys := (acc.map Prod.snd).sum
  let calls := is.any fun i => match i with | .call .. | .ret .. => true | _ => false
  let stack := is.any fun i => match i with | .push .. | .pop .. => true | _ => false
  is.all (fun i => opLegal false i && (match opSlot i with
      | some (hd, c) => hdOk hd && (c != .k || !hd.pe)
      | none => false)) &&
    decide ((cs.map Cls.rank).Pairwise (· ≤ ·)) &&
    cnt .m ≤ 2 && cnt .x ≤ 1 && cnt .t ≤ 2 && cnt .k ≤ 1 && words is ≤ 4 &&
    (is.getLast?.any opStops) && xs + ys ≤ 2 && ys ≤ 1 && !(calls && stack)

/-- The effect of an operation whose predicate lets it (R191). NOP and what has no effect of its own give
none; REP and WTC read a register. -/
def opEff (v : View) : Instr → Eff
  | .mpy _ _ _ f => mpyEff v f
  | .mac _ _ _ f => macEff v f
  | .msu _ _ _ f => msuEff v f
  | .mpyd _ _ _ f => mpydEff v f
  | .macd _ _ _ f => macdEff v f
  | .msud _ _ _ f => msudEff v f
  | .aclr _ _ _ f => aclrEff v f
  | .ashf _ _ _ f => ashfEff v f
  | .aadd _ _ _ f => aaddEff v f
  | .asub _ _ _ f => asubEff v f
  | .alu _ _ _ f => aluEff v f
  | .shf _ _ _ f => shfEff v f
  | .cmp _ _ _ f => cmpEff v f
  | .opExt _ _ _ f => extEff v f
  | .ins _ _ _ f => insEff v f
  | .acs _ _ _ f => acsEff v f
  | .dalu _ _ _ f => daluEff v f
  | .opMov _ _ _ f => movEff v f
  | .ldx _ _ _ f => ldxEff f
  | .asrcPut _ _ _ f => asrcPutEff v f
  | .asrcGet _ _ _ f => asrcGetEff f
  | .asrcStatus _ _ _ f => asrcStatusEff f
  | .fftSubmit _ _ _ f => fftSubmitEff v f
  | .fftPoll _ _ _ f => fftPollEff v f
  | .correlatorSubmit _ _ hd f => corSubmitEff v f hd.reads
  | .correlatorPoll _ _ _ f => corPollEff v f
  | .versionQuery _ _ _ f => versionEff f
  | .xlOpcode _ _ _ op f => xlEff v op f
  | .ld _ _ hd f => ldEff v f hd.reads
  | .st _ _ _ f => stEff v f
  | .modp _ _ _ f => modpEff v f
  | .ldi _ _ _ f => ldiEff f
  | .ldip _ _ _ f => ldipEff f
  | .ldio _ _ _ f => ldioEff f
  | .ldib _ _ _ f => ldibEff f
  | .ldil _ _ _ f => ldilEff f
  | .ldir _ _ _ f => ldirEff f
  | .fld _ _ _ f => fldEff v f
  | .fst _ _ hd f => fstEff v f hd.reads
  | .push _ _ _ f => pushEff v f
  | .pop _ _ hd f => popEff v f hd.reads
  | .opEnd .. => { ctl := .stop }
  | .opRep _ _ _ f => if f.rs then { ops := [v.d 0 f.cr] } else {}
  | .wtc _ _ _ f => { ops := [v.pair 0 f.cr] }
  | .opDo _ _ _ cm1 ofs => doEff v cm1.toNat ofs.toNat
  | .dor .. => dorEff v
  | .call _ _ _ tgt lit => callEff v tgt.toNat (lit.toNat % 65536)
  | .ret _ _ hd => retEff v hd.reads
  | .wfe _ _ _ f => { wfe := some f.ev }
  | .sev _ _ _ f => { sev := some f.ev }
  | .acstb _ _ hd => acstbEff v hd.reads
  | .br _ _ _ tgt => brEff tgt.toNat
  | .brp _ _ _ f => brpEff v f
  | _ => {}

/-- The guarding predicate of an operation and whether it lets the operation execute (R188). -/
def View.guard (v : View) (i : Instr) : RVal × Bool :=
  match opSlot i with
  | some (hd, _) => if hd.pe then (let p := v.reg 12 (rF hd.pf); (p, (p.n == 1) != hd.pn)) else (rv 0, true)
  | none => (rv 0, false)

/-- What slot `k` of a bundle reads from: each slot has free values of its own for its early reads (R197). -/
def View.slot (v : View) (k : Nat) : View := { v with base := v.base + 16 * k }

/-- The effects of a bundle's slots with their guards, all read from the state before the bundle (R186, R188). A
control operation with a void guard has no effect (R256). -/
def bundleEffs (v : View) (is : List Instr) : List (Eff × RVal) :=
  is.zipIdx.map fun p =>
    let v := v.slot p.2
    let g := v.guard p.1
    if !g.2 then ({}, rv 0)
    else if g.1.void && opCls p.1 == .k then ({}, rv 0)
    else (opEff v p.1, g.1)

end Sys2Proof.Machine
end

