-- ==== Sys2Proof/WellFormed.lean ====
section
/-! DEFINITION. WellFormed.lean: the bounds that the operands of a command keep and that its type does not say. -/

namespace Sys2Proof

/-- No two elements are equal. -/
def distinct (l : List Nat) : Bool := l.dedup == l

/-- Samples and clip marks name inputs that exist, each once (R19, R435). -/
def TickIn.wf (x : TickIn) : Bool :=
  (x.samples.map (·.1)).all (· < 10) && distinct (x.samples.map (·.1)) && x.clips.all (· < 8) && distinct x.clips

/-- A far request holds at most four 8-byte units (R286, R297). -/
def FarEcc.wf (x : FarEcc) : Bool := (x.units.map (·.1)).all (· < 4) && distinct (x.units.map (·.1))

/-- A page has 8 sectors, an object at most 4,096 pages (R533, R534). -/
def NandIn.wf (x : NandIn) : Bool := x.bad.all fun e => decide (e.1 < 4096) && decide (e.2 < 8)

/-- The recorder has 8 channels of 1,000 samples a page (R545). -/
def LogIn.wf (x : LogIn) : Bool := decide (x.samples.length ≤ 8) && x.samples.all (fun c => decide (c.length ≤ 1000)) && x.nand.wf

/-- Eight octave bands (R492). -/
def CalRes.wf (x : CalRes) : Bool := decide (x.mags.length ≤ 8)

/-- The operand bits that the form of an engine operation reserves, where no field of the command holds them (R189). -/
def rsvMask : Instr → Nat
  | .opRep .. => 0x30000
  | .call .. | .br .. => 0xF8000
  | .wfe .. | .sev .. | .wtc .. => 0x3FF0
  | .opNop .. | .opEnd .. | .dor .. | .ret .. | .wfc .. | .acstb .. => 0xFFFFF
  | _ => 0

/-- The reserved bits of an operation's head lie at places that its form reserves. -/
def Hdr.wf (i : Instr) (hd : Hdr) : Bool := hd.rsv.toNat &&& (0xFFFFF - rsvMask i) == 0

/-- The bounds of the operands of an engine operation; a CALL word with its stop bit set takes no literal (R184). -/
def Instr.wfOp : Instr → Bool
  | i@(.mpy _ _ hd _) | i@(.mac _ _ hd _) | i@(.msu _ _ hd _) | i@(.mpyd _ _ hd _) | i@(.macd _ _ hd _) | i@(.msud _ _ hd _)
  | i@(.aclr _ _ hd _) | i@(.ashf _ _ hd _) | i@(.aadd _ _ hd _) | i@(.asub _ _ hd _) => hd.wf i
  | i@(.alu _ _ hd _) | i@(.shf _ _ hd _) | i@(.cmp _ _ hd _) | i@(.opExt _ _ hd _) | i@(.ins _ _ hd _) | i@(.acs _ _ hd _)
  | i@(.dalu _ _ hd _) | i@(.opMov _ _ hd _) | i@(.ldx _ _ hd _) => hd.wf i
  | i@(.asrcPut _ _ hd _) | i@(.asrcGet _ _ hd _) | i@(.asrcStatus _ _ hd _) | i@(.fftSubmit _ _ hd _) | i@(.fftPoll _ _ hd _)
  | i@(.correlatorSubmit _ _ hd _) | i@(.correlatorPoll _ _ hd _) | i@(.versionQuery _ _ hd _) => hd.wf i
  | i@(.xlOpcode _ _ hd _ _) => hd.wf i
  | i@(.ld _ _ hd _) | i@(.st _ _ hd _) | i@(.modp _ _ hd _) | i@(.ldi _ _ hd _) | i@(.ldip _ _ hd _) | i@(.ldio _ _ hd _)
  | i@(.ldib _ _ hd _) | i@(.ldil _ _ hd _) | i@(.ldir _ _ hd _) | i@(.fld _ _ hd _) | i@(.fst _ _ hd _) | i@(.push _ _ hd _)
  | i@(.pop _ _ hd _) => hd.wf i
  | i@(.opNop _ _ hd) | i@(.opEnd _ _ hd _) | i@(.opRep _ _ hd _) | i@(.opDo _ _ hd _ _) | i@(.dor _ _ hd) | i@(.ret _ _ hd)
  | i@(.wfe _ _ hd _) | i@(.sev _ _ hd _) | i@(.wtc _ _ hd _) | i@(.wfc _ _ hd) | i@(.acstb _ _ hd) | i@(.br _ _ hd _)
  | i@(.brp _ _ hd _) => hd.wf i
  | i@(.call _ _ hd _ lit) => hd.wf i && (!hd.s || lit == 0)
  | _ => true

/-- The bounds of a command's operands. -/
def Instr.wf : Instr → Bool
  | .illegalBundle _ fetch => decide (fetch.length ≤ 4)
  | .domainTick _ x => x.wf
  | .coreLocked _ _ _ skips _ => decide (skips.length ≤ 4)
  | .hopDone _ _ _ _ skips _ => decide (skips.length ≤ 4)
  | .cpWr _ _ _ _ data _ => decide (data.length ≤ 128)
  | .cpWrf _ _ _ _ data _ => decide (data.length ≤ 128)
  | .cpInvalidOp _ words => decide (words.length ≤ 131)
  | .frameTimeout words => decide (words.length ≤ 131)
  | .frameShort words => decide (words.length ≤ 131)
  | .tunnelDatagram _ bytes => decide (bytes.length ≤ 2001)
  | .farLanding _ i e => decide (i < 512) && e.wf
  | .farStoreWritten _ i e => decide (i < 512) && e.wf
  | .frameArrival _ bytes => decide (bytes.length ≤ 2001)
  | .ptpSyncTx times => decide (times.length = 2)
  | .cdcRx _ bytes _ => decide (bytes.length ≤ 68)
  | .ampReenable _ senses => decide (senses.length ≤ 8)
  | .calPublish _ _ _ r => r.wf
  | .storeWrite x => x.wf
  | .storeRead x => x.wf
  | .storeFload x => x.wf
  | .logPage x => x.wf
  | .nandMount a b => a.wf && b.wf
  | .bootFload x => x.wf
  | i => i.wfOp

end Sys2Proof
end

