-- ==== Sys2Proof/Machine/Encode.lean ====
section
/-! DEFINITION. Encode.lean: the 32-bit slot words of program memory: their layout, the fields of each form, the opcodes,
and which operations stand at an address (R182, R184, R185, R189, R191, R201). -/

namespace Sys2Proof

/-! ### The forms, as [19:0] of a slot word (R189) -/

def MM.bits (f : MM) : Nat :=
  f.ad * 2 ^ 18 + f.sa * 2 ^ 14 + f.sb * 2 ^ 10 + Machine.b2n f.sat * 2 ^ 9 + Machine.b2n f.rm * 2 ^ 8 + f.sg * 2 ^ 6 + f.aux.toNat

def MM.of (w : Nat) : MM :=
  { ad := Fin.ofNat 4 (w / 2 ^ 18), sa := Fin.ofNat 16 (w / 2 ^ 14), sb := Fin.ofNat 16 (w / 2 ^ 10), sat := Machine.bit w 9, rm := Machine.bit w 8,
    sg := Fin.ofNat 4 (w / 2 ^ 6), aux := BitVec.ofNat 6 w }

def XR.bits (f : XR) : Nat :=
  f.dst * 2 ^ 16 + f.sa * 2 ^ 12 + f.sb * 2 ^ 8 + Machine.b2n f.sat * 2 ^ 7 + Machine.b2n f.rm * 2 ^ 6 + f.fn * 2 ^ 2 + f.ax

def XR.of (w : Nat) : XR :=
  { dst := Fin.ofNat 16 (w / 2 ^ 16), sa := Fin.ofNat 16 (w / 2 ^ 12), sb := Fin.ofNat 16 (w / 2 ^ 8), sat := Machine.bit w 7, rm := Machine.bit w 6,
    fn := Fin.ofNat 16 (w / 2 ^ 2), ax := Fin.ofNat 4 w }

def TI.bits (f : TI) : Nat := f.dst * 2 ^ 16 + f.imm.toNat

def TI.of (w : Nat) : TI := { dst := Fin.ofNat 16 (w / 2 ^ 16), imm := BitVec.ofNat 16 w }

def XE.bits (f : XE) : Nat := f.dst * 2 ^ 16 + f.sa * 2 ^ 12 + f.arg.toNat

def XE.of (w : Nat) : XE := { dst := Fin.ofNat 16 (w / 2 ^ 16), sa := Fin.ofNat 16 (w / 2 ^ 12), arg := BitVec.ofNat 12 w }

def TM.bits (f : TM) : Nat :=
  f.dr * 2 ^ 16 + f.pr * 2 ^ 13 + Machine.b2n f.ms * 2 ^ 12 + Machine.b2n f.w * 2 ^ 11 + f.am * 2 ^ 9 + f.ofs.toNat

def TM.of (w : Nat) : TM :=
  { dr := Fin.ofNat 16 (w / 2 ^ 16), pr := Fin.ofNat 8 (w / 2 ^ 13), ms := Machine.bit w 12, w := Machine.bit w 11, am := Fin.ofNat 4 (w / 2 ^ 9),
    ofs := BitVec.ofNat 9 w }

def TF.bits (f : TF) : Nat := f.fa * 2 ^ 16 + f.px * 2 ^ 13 + f.nm1.toNat * 2 ^ 5 + f.aux.toNat

def TF.of (w : Nat) : TF :=
  { fa := Fin.ofNat 16 (w / 2 ^ 16), px := Fin.ofNat 8 (w / 2 ^ 13), nm1 := BitVec.ofNat 8 (w / 2 ^ 5), aux := BitVec.ofNat 5 w }

def KR.bits (f : KR) : Nat := Machine.b2n f.n * 2 ^ 19 + Machine.b2n f.rs * 2 ^ 18 + f.cr * 2 ^ 12 + f.cm1.toNat

def KR.of (w : Nat) : KR := { n := Machine.bit w 19, rs := Machine.bit w 18, cr := Fin.ofNat 16 (w / 2 ^ 12), cm1 := BitVec.ofNat 12 w }

def KW.bits (f : KW) : Nat := f.cr * 2 ^ 16 + f.dom * 2 ^ 14 + f.ev

def KW.of (w : Nat) : KW := { cr := Fin.ofNat 16 (w / 2 ^ 16), dom := Fin.ofNat 4 (w / 2 ^ 14), ev := Fin.ofNat 16 w }

end Sys2Proof

namespace Sys2Proof.Machine

/-! ### The opcodes (R191) -/

/-- CL of a class (R182). -/
def Cls.code : Cls → Nat
  | .m => 0 | .x => 1 | .t => 2 | .k => 3

/-- Opcode within the class, and the fields of the form. -/
def opCode : Instr → Nat × Nat
  | .mpy _ _ _ f => (0x00, f.bits) | .mac _ _ _ f => (0x01, f.bits) | .msu _ _ _ f => (0x02, f.bits)
  | .mpyd _ _ _ f => (0x04, f.bits) | .macd _ _ _ f => (0x05, f.bits) | .msud _ _ _ f => (0x06, f.bits)
  | .aclr _ _ _ f => (0x08, f.bits) | .ashf _ _ _ f => (0x09, f.bits) | .aadd _ _ _ f => (0x0A, f.bits)
  | .asub _ _ _ f => (0x0B, f.bits)
  | .alu _ _ _ f => (0x00, f.bits) | .shf _ _ _ f => (0x01, f.bits) | .cmp _ _ _ f => (0x02, f.bits)
  | .opExt _ _ _ f => (0x03, f.bits) | .ins _ _ _ f => (0x04, f.bits) | .acs _ _ _ f => (0x05, f.bits)
  | .dalu _ _ _ f => (0x06, f.bits) | .opMov _ _ _ f => (0x07, f.bits) | .ldx _ _ _ f => (0x08, f.bits)
  | .asrcPut _ _ _ f => (0x10, f.bits) | .asrcGet _ _ _ f => (0x11, f.bits) | .asrcStatus _ _ _ f => (0x12, f.bits)
  | .fftSubmit _ _ _ f => (0x13, f.bits) | .fftPoll _ _ _ f => (0x14, f.bits) | .correlatorSubmit _ _ _ f => (0x15, f.bits)
  | .correlatorPoll _ _ _ f => (0x16, f.bits) | .versionQuery _ _ _ f => (0x17, f.bits)
  | .xlOpcode _ _ _ op f => (0x18 + op, f.bits)
  | .ld _ _ _ f => (0x00, f.bits) | .st _ _ _ f => (0x01, f.bits) | .modp _ _ _ f => (0x02, f.bits)
  | .ldi _ _ _ f => (0x03, f.bits) | .ldip _ _ _ f => (0x04, f.bits) | .ldio _ _ _ f => (0x05, f.bits)
  | .ldib _ _ _ f => (0x06, f.bits) | .ldil _ _ _ f => (0x07, f.bits) | .ldir _ _ _ f => (0x08, f.bits)
  | .fld _ _ _ f => (0x09, f.bits) | .fst _ _ _ f => (0x0A, f.bits) | .push _ _ _ f => (0x0B, f.bits)
  | .pop _ _ _ f => (0x0C, f.bits)
  | .opNop .. => (0x00, 0) | .opEnd .. => (0x01, 0) | .opRep _ _ _ f => (0x02, f.bits)
  | .opDo _ _ _ cm1 ofs => (0x03, cm1.toNat * 2 ^ 8 + ofs.toNat) | .dor .. => (0x04, 0) | .call _ _ _ t _ => (0x05, t.toNat)
  | .ret .. => (0x06, 0) | .wfe _ _ _ f => (0x07, f.bits) | .sev _ _ _ f => (0x08, f.bits) | .wtc _ _ _ f => (0x09, f.bits)
  | .wfc .. => (0x0A, 0) | .acstb .. => (0x0B, 0) | .br _ _ _ t => (0x10, t.toNat) | .brp _ _ _ f => (0x11, f.bits)
  | _ => (0, 0)

/-- The operation of a class and opcode, with operand word `w` and, for CALL, its literal; none for an opcode that is not
assigned. -/
def opOf (n : Fin 16) (bg : Bool) (hd : Hdr) (cl opc w : Nat) (lit : BitVec 32) : Option Instr :=
  match cl, opc with
  | 0, 0x00 => some (.mpy n bg hd (.of w)) | 0, 0x01 => some (.mac n bg hd (.of w)) | 0, 0x02 => some (.msu n bg hd (.of w))
  | 0, 0x04 => some (.mpyd n bg hd (.of w)) | 0, 0x05 => some (.macd n bg hd (.of w)) | 0, 0x06 => some (.msud n bg hd (.of w))
  | 0, 0x08 => some (.aclr n bg hd (.of w)) | 0, 0x09 => some (.ashf n bg hd (.of w)) | 0, 0x0A => some (.aadd n bg hd (.of w))
  | 0, 0x0B => some (.asub n bg hd (.of w))
  | 1, 0x00 => some (.alu n bg hd (.of w)) | 1, 0x01 => some (.shf n bg hd (.of w)) | 1, 0x02 => some (.cmp n bg hd (.of w))
  | 1, 0x03 => some (.opExt n bg hd (.of w)) | 1, 0x04 => some (.ins n bg hd (.of w)) | 1, 0x05 => some (.acs n bg hd (.of w))
  | 1, 0x06 => some (.dalu n bg hd (.of w)) | 1, 0x07 => some (.opMov n bg hd (.of w)) | 1, 0x08 => some (.ldx n bg hd (.of w))
  | 1, 0x10 => some (.asrcPut n bg hd (.of w)) | 1, 0x11 => some (.asrcGet n bg hd (.of w))
  | 1, 0x12 => some (.asrcStatus n bg hd (.of w)) | 1, 0x13 => some (.fftSubmit n bg hd (.of w))
  | 1, 0x14 => some (.fftPoll n bg hd (.of w)) | 1, 0x15 => some (.correlatorSubmit n bg hd (.of w))
  | 1, 0x16 => some (.correlatorPoll n bg hd (.of w)) | 1, 0x17 => some (.versionQuery n bg hd (.of w))
  | 1, 0x18 => some (.xlOpcode n bg hd 0 (.of w)) | 1, 0x19 => some (.xlOpcode n bg hd 1 (.of w))
  | 1, 0x1A => some (.xlOpcode n bg hd 2 (.of w)) | 1, 0x1B => some (.xlOpcode n bg hd 3 (.of w))
  | 1, 0x1C => some (.xlOpcode n bg hd 4 (.of w)) | 1, 0x1D => some (.xlOpcode n bg hd 5 (.of w))
  | 1, 0x1E => some (.xlOpcode n bg hd 6 (.of w)) | 1, 0x1F => some (.xlOpcode n bg hd 7 (.of w))
  | 2, 0x00 => some (.ld n bg hd (.of w)) | 2, 0x01 => some (.st n bg hd (.of w)) | 2, 0x02 => some (.modp n bg hd (.of w))
  | 2, 0x03 => some (.ldi n bg hd (.of w)) | 2, 0x04 => some (.ldip n bg hd (.of w)) | 2, 0x05 => some (.ldio n bg hd (.of w))
  | 2, 0x06 => some (.ldib n bg hd (.of w)) | 2, 0x07 => some (.ldil n bg hd (.of w)) | 2, 0x08 => some (.ldir n bg hd (.of w))
  | 2, 0x09 => some (.fld n bg hd (.of w)) | 2, 0x0A => some (.fst n bg hd (.of w)) | 2, 0x0B => some (.push n bg hd (.of w))
  | 2, 0x0C => some (.pop n bg hd (.of w))
  | 3, 0x00 => some (.opNop n bg hd) | 3, 0x01 => some (.opEnd n bg hd ⟨0, 0⟩) | 3, 0x02 => some (.opRep n bg hd (.of w))
  | 3, 0x03 => some (.opDo n bg hd (BitVec.ofNat 12 (w / 2 ^ 8)) (BitVec.ofNat 8 w)) | 3, 0x04 => some (.dor n bg hd)
  | 3, 0x05 => some (.call n bg hd (BitVec.ofNat 15 w) (if hd.s then 0 else lit)) | 3, 0x06 => some (.ret n bg hd)
  | 3, 0x07 => some (.wfe n bg hd (.of w)) | 3, 0x08 => some (.sev n bg hd (.of w)) | 3, 0x09 => some (.wtc n bg hd (.of w))
  | 3, 0x0A => some (.wfc n bg hd) | 3, 0x0B => some (.acstb n bg hd) | 3, 0x10 => some (.br n bg hd (BitVec.ofNat 15 w))
  | 3, 0x11 => some (.brp n bg hd (.of w))
  | _, _ => none

/-! ### Slot words (R182, R184) -/

/-- The slot words of an operation: none for a command that is no operation. -/
def slotWords (i : Instr) : List (BitVec 32) :=
  match opSlot i with
  | none => []
  | some (hd, c) =>
    let o := opCode i
    BitVec.ofNat 32 (b2n hd.s * 2 ^ 31 + c.code * 2 ^ 29 + b2n hd.pe * 2 ^ 28 + b2n hd.pn * 2 ^ 27 + hd.pf * 2 ^ 25 + o.1 * 2 ^ 20 +
        (o.2 + hd.rsv.toNat)) ::
      (match i with | .call _ _ hd _ lit => if hd.s then [] else [lit] | _ => [])

/-- The operation that the slot word `w` spells, with the word `lit` behind it (R182, R184, R191). -/
def decodeSlot (n : Fin 16) (bg : Bool) (w lit : BitVec 32) : Option Instr :=
  let w := w.toNat
  let hd : Hdr := { s := bit w 31, pe := bit w 28, pn := bit w 27, pf := Fin.ofNat 4 (w / 2 ^ 25) }
  let ops := w % 2 ^ 20
  match opOf n bg hd (bits w 30 29) (bits w 24 20) ops lit with
  | none => none
  | some i => opOf n bg { hd with rsv := BitVec.ofNat 20 (ops &&& rsvMask i) } (bits w 30 29) (bits w 24 20) ops lit

/-! ### What stands in program memory -/

/-- A slot word of program memory; fetch past 0x7FFF goes on at 0 (R185). -/
def Engine.progWord (e : Engine) (a : Nat) : BitVec 32 := tget (fun _ => (0 : BitVec 32)) e.prog (a % 0x8000)

/-- Where the next slot word of a bank comes from: behind the slots of the bundle being gathered. -/
def Bank.fetchAt (b : Bank) : Nat := b.pc + words b.bundle

/-- Do the words that a bank fetches next spell the operation (R185, R201). -/
def Engine.placed (e : Engine) (bg : Bool) (i : Instr) : Bool :=
  (slotWords i).zipIdx.all fun p => e.progWord ((e.bank bg).fetchAt + p.2) == p.1

/-- The words of the bundle at an address: to the first with its stop bit set, four at most (R185). -/
def Engine.bundleWords (e : Engine) (a : Nat) : Nat :=
  match firstBelow 4 fun i => (e.progWord (a + i)).getLsbD 31 with
  | some i => i + 1
  | none => 4

/-- The operations in the `k` words from `a` on; none where a word spells no operation. -/
def Engine.spelled (e : Engine) (n : Fin 16) (a k : Nat) : Nat → Option (List Instr)
  | 0 => some []
  | fuel + 1 =>
    if k = 0 then some []
    else match decodeSlot n false (e.progWord a) (e.progWord (a + 1)) with
      | none => none
      | some i => (Engine.spelled e n (a + opWords i) (k - opWords i) fuel).map (i :: ·)

/-- Is the bundle at PC of the sample program undefined (R166, R185). -/
def Engine.undefinedBundle (e : Engine) (n : Fin 16) : Bool :=
  match e.spelled n e.shadow.pc (e.bundleWords e.shadow.pc) 4 with
  | none => true
  | some is => !bundleOk is

end Sys2Proof.Machine
end

