-- ==== Sys2Proof/Machine/Engine.lean ====
section
/-! DEFINITION. Engine.lean: how a sample engine executes bundles and compact operations, parks and releases what is
Crema, starts and ends programs, takes commits, and fails (R47 to R52, R157 to R176, R192 to R204, R210 to R215, R239 to
R257, R260 to R280, R394 to R399). -/

namespace Sys2Proof.Machine

/-! ### Errors, halts and faults -/

/-- A flag of engine `n` set. -/
def Hub.seFlag (h : Hub) (n off : Nat) : Hub := h.setFlag (kSe n off)

/-- An ECC error of an engine memory (0 program, 1 X, 2 Y, 3 stage pages) counted and reported (R167, R176). -/
def Hub.engEcc (h : Hub) (n mem a : Nat) (c : Ecc) (sample : Bool) : Hub :=
  match c with
  | .ok => h
  | .corrected s => ((h.addSat (kSe n 0x114) 2 1).seFlag n 0x110).issueLimited 0 n 0x205 mem a s.toNat
  | .uncorrectable =>
    let h := h.modEng n fun e => if e.ue.contains (mem, a) then e else { e with ue := e.ue ++ [(mem, a)] }
    ((h.addSat (kSe n 0x116) 2 1).seFlag n 0x110).issueLimited (65536 * mem + a) n 0x206 mem a (b2n sample)

/-- Background code halts (R165). -/
def Hub.bgHalt (h : Hub) (n cause : Nat) : Hub :=
  let pc := (h.engine n).fore.pc
  let h := h.modEng n fun e =>
    ({ e with halt := cause, fore := { e.fore with held := [], wait := 0, rep := none, hold := false } } : Engine).flush
  (h.seFlag n 0x111).issue n 0x204 cause pc 0

/-- A stack fault: the sample program goes on with void outputs, background code halts (R251). -/
def Hub.stackFault (h : Hub) (n : Nat) (f : FaultWait) : Hub :=
  if f.bg then h.bgHalt n 3
  else
    let h := if f.ended then h else h.modRun n fun r => { r with outVoid := true }
    ((h.addSat (kSe n 0x146) 2 1).seFlag n 0x144).issueLimited 0 n 0x301 f.cause f.pc f.sp

/-- A stack fault whose predicate is Crema waits for its confirmation; one whose predicate is void is dropped (R137). -/
def Hub.faultMet (h : Hub) (n : Nat) (bg : Bool) (cause : Nat) (g : RVal) : Hub :=
  let b := h.bank n bg
  let f : FaultWait := { bg := bg, cause := cause, pc := b.pc, sp := (b.get rSP).n, val := g }
  if g.void then h
  else if g.crema then h.modEng n fun e => { e with faults := e.faults ++ [f] }
  else h.stackFault n f

/-! ### Landing (R195 to R200, R212) -/

/-- Older register writes of a bank that are still parked are superseded (R212). -/
def Engine.supersede (e : Engine) (bg : Bool) (ref born : Nat) : Engine :=
  { e with park := e.park.map fun p => if p.kind == .reg ref && p.bg == bg && decide (p.born < born) then { p with dead := true } else p }

/-- A result lands in its register; it supersedes an older write of the same bank that is still parked (R212). -/
def Engine.landFlight (e : Engine) (bg : Bool) (f : Flight) : Engine :=
  let e := e.modBank bg fun b => b.put f.ref (f.onto (b.get f.ref))
  if f.orIn || taintable f.ref then e else e.supersede bg f.ref f.born

/-- The results that are due land, the sticky sets after the writes they meet (R198, R215). -/
def Engine.land (e : Engine) (bg : Bool) : Engine :=
  let b := e.bank bg
  let due := b.flights.filter fun f => f.due ≤ b.pos
  let e := e.modBank bg fun b => { b with flights := b.flights.filter fun f => !(f.due ≤ b.pos) }
  (due.filter fun f => f.orIn).foldl (fun e f => e.landFlight bg f)
    ((due.filter fun f => !f.orIn).foldl (fun e f => e.landFlight bg f) e)

/-- Every result lands, in the order of the landing points (R200). -/
def Engine.landAll (e : Engine) (bg : Bool) : Engine :=
  iter 5 (fun _ e => (e.land bg).modBank bg fun b => { b with pos := b.pos + 1 }) e

/-- A result takes its way to its register: at once in compact mode, where reads wait for it (R202), else at its
distance. `born` is the slot that issued it, in order of issue. -/
def Engine.send (e : Engine) (bg : Bool) (born ref : Nat) (val : RVal) (dist : Nat) (mac orIn : Bool := false) : Engine :=
  let b := e.bank bg
  let f : Flight := { ref := ref, val := val, due := b.pos + dist, born := born, mac := mac, orIn := orIn }
  if bg then e.landFlight bg f else e.modBank bg fun b => { b with flights := b.flights ++ [f] }

/-- Sticky bits on their way to SR, at distance 3 (R196). -/
def Engine.sendSticky (e : Engine) (bg : Bool) (born bits : Nat) : Engine :=
  if bits = 0 then e else e.send bg born rSR (rv bits) 3 false true

/-- Sticky bits set at once, when a resolution reaches the engine (R214). -/
def Bank.setSticky (b : Bank) (bits : Nat) : Bank := if bits = 0 then b else b.put rSR (rv ((b.get rSR).n ||| bits))

/-- An entry enters the park buffer (R397). -/
def Engine.parkIt (e : Engine) (bg : Bool) (born : Nat) (k : ParkKind) (val : RVal) : Engine :=
  { e with park := e.park ++ [{ kind := k, bg := bg, val := val, born := born }] }

/-! ### Applying effects -/

/-- Has a wait for room in the park buffer been ended by a disable or failure (R239, R257). -/
def Engine.full (e : Engine) (forced : Bool) : Bool := forced && decide (64 ≤ e.park.length)

/-- A Crema value that finds no room after all counts as void (R239, R257). -/
def RVal.cut (r : RVal) (full : Bool) : RVal := if full && r.crema then { r with void := true, tags := 0 } else r

/-- One register result (R210, R212). -/
def Engine.applyWr (e : Engine) (bg : Bool) (born : Nat) (forced : Bool) (g : RVal) (w : Wr) : Engine :=
  let val := if w.free then w.val else w.val.join g
  if taintable w.ref then e.send bg born w.ref val w.dist w.mac
  else
    let val := val.cut (e.full forced)
    if val.crema then e.parkIt bg born (.reg w.ref) val
    else if val.void then (e.send bg born w.ref (rv 0) w.dist).sendSticky bg born bT
    else e.send bg born w.ref val w.dist

/-- One stored word (R150, R156, R239): it parks while it is Crema or a store to its word is parked; where the buffer stays
full it writes zero at once and sets T. -/
def Engine.applySt (e : Engine) (bg : Bool) (born : Nat) (forced : Bool) (g : RVal) (p : Nat × Nat × RVal) : Engine :=
  let (mem, a, x) := p
  let val := x.join g
  if mem = 0 ∧ 0x8040 ≤ a ∧ a < 0x8080 then e.pokeOut a val
  else if ¬ inMem mem a then e
  else if val.crema || (e.parkedStore mem a).isSome then
    if e.full forced then (e.poke mem a 0).sendSticky bg born bT else e.parkIt bg born (.store mem a) val
  else e.poke mem a (if val.void then 0 else val.n)

/-- The join of everything an operation reads. -/
def Eff.state (x : Eff) (g : RVal) : RVal := (rv 0).joins (g :: x.ops)

/-- Sticky bits of an operation: T where an operand is void; V, G and S at once, or pending while its result is Crema
(R213, R214). -/
def Engine.applySticky (e : Engine) (bg : Bool) (born : Nat) (x : Eff) (g : RVal) : Engine :=
  let s := x.state g
  if s.void || x.met.any (fun r => r.void) then e.sendSticky bg born (x.stick ||| bT)
  else if s.crema && x.stick != 0 then e.modBank bg fun b => { b with pendSt := b.pendSt ++ [(x.stick, s.tags)] }
  else e.sendSticky bg born x.stick

/-- Was a park-buffer entry issued before the bundle of `born` of a bank: entries of the other bank in the list were. -/
def ParkEntry.before (p : ParkEntry) (bg : Bool) (born : Nat) : Bool := p.bg != bg || decide (p.born / 8 < born / 8)

/-- Is an older far operation parked, or a store of an earlier bundle parked to a word of a far store's source (R241,
R242). -/
def Engine.farBlocked (older : List ParkEntry) (born : Nat) (o : FarOp) : Bool :=
  older.any fun p => match p.kind with
    | .far _ => true
    | .store m a => o.store && m == 0 && decide ((a + 0x8000 - o.x) % 0x8000 < o.n) && p.before o.bg born
    | _ => false

/-- Does a far operation park: its data is Crema, or an older entry is in its way (R242). -/
def Engine.farParks (e : Engine) (born : Nat) (o : FarOp) (s : RVal) : Bool := s.crema || Engine.farBlocked e.park born o

/-- A far operation whose deciding data is void: a fetch delivers void zero, a store is dropped (R242). -/
def Engine.farVoid (e : Engine) (o : FarOp) : Engine := if o.store then e else e.voidZeros o.x o.n

/-- The engine after an operation's register results, stores and sticky bits, with its far operation and extension opcode
parked where they must be (R174, R242, R397). -/
def Engine.applyLocal (e : Engine) (bg : Bool) (born : Nat) (forced : Bool) (x : Eff) (g : RVal) : Engine :=
  let e := x.wr.foldl (Engine.applyWr · bg born forced g) e
  let e := x.st.foldl (Engine.applySt · bg born forced g) e
  let e := e.applySticky bg born x g
  let e := match x.far with
    | some o => if e.farParks born o (x.state g) && !e.full forced then e.parkIt bg born (.far o) (x.state g) else e
    | none => e
  match x.ext with
  | some (num, args, dst, y) => if (y.join g).crema && !e.full forced then e.parkIt bg born (.ext num args dst) (y.join g) else e
  | none => e

/-- A far operation of an operation that does not park leaves the engine, or is void (R242); `e` is the engine before the
operation. -/
def Hub.applyFar (h : Hub) (n : Nat) (e : Engine) (born : Nat) (forced : Bool) (o : FarOp) (s : RVal) : Hub :=
  if e.farParks born o s then (if e.full forced then h.modEng n fun e => e.farVoid o else h)
  else if s.void then h.modEng n fun e => e.farVoid o
  else h.farIssue n o (e.bank o.bg).pc

/-- The result registers of an extension opcode: XE1 gives a pair (R205). -/
def Engine.extResult (e : Engine) (bg : Bool) (born num dst : Nat) (r : RVal) : Engine :=
  if num = 1 then
    (e.send bg born dst { r with v := BitVec.ofNat 40 (r.n % 65536) } 1).send bg born (dst + 1) { r with v := BitVec.ofNat 40 (r.n / 65536) } 1
  else e.send bg born dst r 1

/-- The arguments of an extension opcode whose operand is void: XE5's block words are its operand, and zero (R174). -/
def voidArgs (num : Nat) (args : List Nat) : List Nat := if num = 5 then args.map fun _ => 0 else args

/-- An extension opcode leaves the engine (R171, R174, R175, R204): a cluster opcode answers at once; an XL opcode has taken
the module's answer, or takes void zero where no module is present or the wait was ended. A void operand is issued as
zero. DESIGN CHOICE where it is void at issue: log entry 134. -/
def Hub.applyExt (h : Hub) (n : Nat) (bg : Bool) (born num : Nat) (args : List Nat) (dst : Nat) (x s : RVal) : Hub :=
  let x := if s.void then voidZero else x
  let args := if s.void then voidArgs num args else args
  if num < 8 then
    let (h, r) := h.cluOp n num args x
    h.modEng n fun e => e.extResult bg born num dst (r.join s)
  else
    let b := h.bank n bg
    let h := if h.xlPresent then h else h.xlAbsent n num b.pc
    let r := (b.answer.getD voidZero).join s
    h.modEng n fun e => (e.modBank bg fun b => { b with answer := none }).extResult bg born num dst r

/-- Event lines set in both banks of every engine (R253). -/
def Hub.setLines (h : Hub) (mask : Nat) : Hub :=
  iter 16 (fun n h => h.modEng n fun e =>
    (e.modBank false fun b => { b with latch := b.latch ||| BitVec.ofNat 16 mask }).modBank true fun b =>
      { b with latch := b.latch ||| BitVec.ofNat 16 mask }) h

/-- Everything the operation in slot `k` of its bundle does. -/
def Hub.applyEff (h : Hub) (n : Nat) (bg forced : Bool) (k : Nat) (xg : Eff × RVal) : Hub :=
  let (x, g) := xg
  let h := x.ecc.foldl (fun h p => h.engEcc n p.1 p.2.1 p.2.2 !bg) h
  if x.fault ≠ 0 then h.faultMet n bg x.fault g
  else
    let e := h.engine n
    let born := (e.bank bg).pos * 8 + k
    let h := h.setEng n (e.applyLocal bg born forced x g)
    let h := match x.far with
      | some o => h.applyFar n e born forced o (x.state g)
      | none => h
    let h := match x.ext with
      | some (num, args, dst, y) =>
        let s := (y.join g).cut (e.full forced)
        if s.crema then h else h.applyExt n bg born num args dst y s
      | none => h
    let h := match x.wfe with
      | some k => h.modBank n bg fun b => { b with latch := b.latch &&& ~~~(BitVec.ofNat 16 (2 ^ k)) }
      | none => h
    match x.sev with
    | some k => h.setLines (2 ^ k)
    | none => h

/-! ### Waits (R36, R253 to R257) -/

/-- Is Crema data outstanding for a bank: a register, a park-buffer entry it has issued that is not resolved, or a tag, all of
which are of the sample program's bank (R255, R395, R401). -/
def Engine.cremaOut (e : Engine) (bg : Bool) : Bool :=
  ((e.bank bg).regs.any fun p => p.2.crema) || ((e.bank bg).flights.any fun f => f.val.crema) ||
    (e.park.any fun p => p.bg == bg && p.val.crema) || (!bg && (List.range 4).any fun t => (e.tags.get {} t).pending)

/-- Has a domain's counter reached a target (R254). -/
def Hub.reached (h : Hub) (d target : Nat) : Bool :=
  decide (0 ≤ ((h.dom d).tick - BitVec.ofNat 32 target).toInt)

/-- Why an operation waits (SE_WAITSTAT codes of R259), 0 for no wait. -/
def View.waits (v : View) (i : Instr) : Nat :=
  let g := v.guard i
  if v.bg && opCls i == .k && g.1.crema then 6
  else if !g.2 || (opCls i == .k && g.1.void) then 0
  else match i with
    | .wfe _ _ _ f => if v.b.latch.getLsbD f.ev then 0 else 1
    | .wtc _ _ _ f =>
      let t := v.pair 0 f.cr
      if t.crema then (if v.bg then 6 else 3)
      else if t.void then 0
      else if v.h.reached f.dom t.n then 0 else 2
    | .wfc .. => if v.e.cremaOut v.bg then 3 else 0
    | .xlOpcode _ _ _ _ f =>
      if !v.h.xlPresent || ((v.d 0 f.sa).join g.1).crema || v.b.answer.isSome then 0 else 5
    | .opRep _ _ _ f => if f.rs && (v.d 0 f.cr).crema then 6 else 0
    | _ => 0

/-- Why a bundle waits: one of its operations waits, or the park buffer has no room (R36, R397). -/
def View.bundleWaits (v : View) (is : List Instr) : Nat :=
  match (is.zipIdx.map fun p => (v.slot p.2).waits p.1).find? fun c => c != 0 with
  | some c => c
  | none =>
    let e := (bundleEffs v is).zipIdx.foldl (fun e p => e.applyLocal v.bg (v.b.pos * 8 + p.2) false p.1.1 p.1.2) v.e
    if 64 < e.park.length then 4 else 0

/-- The transfer to the header that slot `k` of a bundle waits for (R175, R204): a void operand goes as zero. -/
def View.xlReq (v : View) (p : Instr × Nat) : Option XlReq :=
  match p.1 with
  | .xlOpcode _ _ _ op f =>
    let x := ((v.slot p.2).d 0 f.sa).join ((v.slot p.2).guard p.1).1
    if (v.slot p.2).waits p.1 = 5 then
      some { eng := v.n, bg := v.bg, op := op, arg := f.arg.toNat, sa := if x.void then 0 else x.n % 65536 }
    else none
  | _ => none

/-- Does a transfer of a bank that a bundle waits for stand at the header. -/
def Hub.xlAsked (h : Hub) (n : Nat) (bg : Bool) : Bool := h.clu.xl.any fun q => q.eng == n && q.bg == bg && q.dst.isNone

/-- The transfers that a bundle of a bank waits for are withdrawn. -/
def Hub.xlDrop (h : Hub) (n : Nat) (bg : Bool) : Hub :=
  { h with clu := { h.clu with xl := h.clu.xl.filter fun q => !(q.eng == n && q.bg == bg && q.dst.isNone) } }

/-- A bundle waits: PARKWAIT rises as it begins to wait for room in the park buffer, and its XL opcode goes to the header
once (R204, R397). -/
def Hub.beginWait (h : Hub) (v : View) (is : List Instr) (code : Nat) : Hub :=
  let old := v.b.wait
  let h := h.modBank v.n v.bg fun b => { b with held := is, wait := code }
  if code = 4 ∧ old ≠ 4 then h.addSat (spc 0x0B (0x10006 + 0x10 * v.n)) 2 1
  else if code = 5 ∧ ¬ h.xlAsked v.n v.bg then
    { h with clu := { h.clu with xl := h.clu.xl ++ is.zipIdx.filterMap v.xlReq } }
  else h

/-! ### Repeats and the program counter (R243 to R247) -/

/-- The operands of the loop test are read like any other. -/
def Hub.viewOf (h : Hub) (n : Nat) (bg : Bool) (last : Nat) : View := { h := h, n := n, bg := bg, base := h.free, last := last }

/-- The test after a bundle whose last word is at `a`: the next address where a level repeats (R244). -/
def Hub.loopTest (h : Hub) (n : Nat) (bg : Bool) (a : Nat) : Nat → Hub × Option Nat
  | 0 => (h, none)
  | fuel + 1 =>
    let b := h.bank n bg
    let d := b.depth - 1
    let v := h.viewOf n bg a
    if b.depth = 0 ∨ (v.reg 0 (rLE d)).n ≠ a then (h, none)
    else
      let lc := (v.reg 1 (rLC d)).n
      let ls := (v.reg 2 (rLS d)).n % 0x8000
      if 1 < lc then ({ h with free := h.free + 3 }.modBank n bg fun b => b.put (rLC d) (rv (lc - 1)), some ls)
      else Hub.loopTest ({ h with free := h.free + 3 }.modBank n bg fun b => { b.put (rLC d) (rv 0) with depth := d }) n bg a fuel

/-- A taken branch ends the levels whose body does not hold its target (R246). -/
def Hub.leaveLoops (h : Hub) (n tgt : Nat) : Nat → Hub
  | 0 => h
  | fuel + 1 =>
    let b := (h.engine n).fore
    let d := b.depth - 1
    if b.depth = 0 ∨ ((b.get (rLS d)).n ≤ tgt ∧ tgt ≤ (b.get (rLE d)).n) then h
    else Hub.leaveLoops (h.modBank n true fun b => { b with depth := d }) n tgt fuel

/-- The next bundle starts at `a`. -/
def Hub.goto (h : Hub) (n : Nat) (bg : Bool) (a : Nat) : Hub := h.modBank n bg fun b => b.setPc a

/-- On to the next bundle after the one that ended at `last`, or back to the start of a repeat (R244). -/
def Hub.advance (h : Hub) (n : Nat) (bg : Bool) (last : Nat) : Hub :=
  let (h, t) := h.loopTest n bg last 5
  h.goto n bg (t.getD (last + 1))

/-- What follows a bundle of the sample program, but for END: the repeat test, then a jump of CALL or RET (R244, R249). -/
def Hub.nextBundle (h : Hub) (n last : Nat) : Ctl → Hub
  | .jump t => (h.advance n false last).goto n false t
  | _ => h.advance n false last

/-- What follows a compact operation: the repeat test, then the delay slot of a branch (`slot`), the target after a delay
slot, or the next word (R203, R244). A taken branch ends the levels it leaves (R246); one that is not taken has its delay
slot all the same, marked by no address, 0x8000. -/
def Hub.nextCompact (h : Hub) (n last : Nat) (slot : Bool) (delay : Option Nat) (c : Ctl) : Hub :=
  let h := h.advance n true last
  match c with
  | .jump t => (h.goto n true (last + 1)).modBank n true fun b => { b with branch := some t }
  | .branch t => ((h.leaveLoops n t 5).goto n true (last + 1)).modBank n true fun b => { b with branch := some t }
  | _ =>
    match delay with
    | some t => (if t = 0x8000 then h else h.goto n true t).modBank n true fun b => { b with branch := none }
    | none => if slot then (h.goto n true (last + 1)).modBank n true fun b => { b with branch := some 0x8000 } else h

/-! ### Programs (R157 to R161, R192, R194, R200, R252, R265 to R274) -/

/-- Word `w` of glide `g` (R280). -/
def kGlide (n g w : Nat) : Nat := eng n (0x51040 + 8 * g + w)

/-- Glide `g` of an engine. -/
def Engine.glide (e : Engine) (g : Nat) : Glide := tget (fun _ => {}) e.glides g

/-- Glide `g` of engine `n` changed. -/
def Hub.modGlide (h : Hub) (n g : Nat) (f : Glide → Glide) : Hub :=
  h.modEng n fun e => { e with glides := tput (fun _ => {}) e.glides g (f (e.glide g)) }

/-- A glide writes its Y word, rounded convergently (R273, R274). -/
def Hub.glideOut (h : Hub) (n g : Nat) : Hub :=
  let ctl := h.reg (kGlide n g 0)
  let c := ((h.engine n).glide g).c
  let h := h.setReg (kGlide n g 4) (c.toNat / 65536)
  if bit ctl 15 then h.modEng n fun e => e.poke 1 (ctl % 2 ^ 14) (BitVec.ofInt 16 (shrRound c.toInt 16 false)).toNat else h

/-- A glide at a program start (R273). -/
def Hub.glideStep (h : Hub) (n g : Nat) : Hub :=
  let gl := (h.engine n).glide g
  let tgt : Int := s16 (h.eff (kGlide n g 1)) * 65536
  let mode := bit (h.reg (kGlide n g 0)) 14
  let ramp := h.reg (kGlide n g 2)
  let (gl, left) :=
    if gl.taken then ({ gl with taken := false, step := Int.tdiv (tgt - gl.c.toInt) ramp }, ramp)
    else (gl, h.reg (kGlide n g 5))
  let (gl, left) :=
    if ¬ mode ∧ 0 < left then
      let left := left - 1
      ({ gl with c := if left = 0 then BitVec.ofInt 32 tgt else BitVec.ofInt 32 (gl.c.toInt + gl.step) }, left)
    else if mode then
      let d := tgt - gl.c.toInt
      let c := if -65536 < d ∧ d < 65536 then BitVec.ofInt 32 tgt
        else BitVec.ofInt 32 (gl.c.toInt + d / 2 ^ h.reg (kGlide n g 3))
      ({ gl with c := c }, b2n (c != BitVec.ofInt 32 tgt))
    else (gl, left)
  ((h.modGlide n g fun _ => gl).setReg (kGlide n g 5) left).glideOut n g

/-- A glide whose engine is not enabled takes its target at once (R275). -/
def Hub.glideSet (h : Hub) (n g target : Nat) : Hub :=
  let h := h.setEff (kGlide n g 1) target
  let h := (h.modGlide n g fun gl => { gl with c := BitVec.ofNat 32 (target * 65536), fresh := false, taken := false }).setReg (kGlide n g 5) 0
  h.glideOut n g

/-- Key of a word of a stage page (R280). -/
def kStage (n s i : Nat) : Nat := eng n (0x50000 + 256 * s + i)

/-- Words of page `p` of Y memory and of stage page `s` that are in error stay so as the pages are exchanged. -/
def Engine.swapMarks (e : Engine) (s p : Nat) : Engine :=
  { e with ue := e.ue.map fun m =>
      if m.1 = 2 ∧ m.2 / 256 = p then (3, 256 * s + m.2 % 256)
      else if m.1 = 3 ∧ m.2 / 256 = s then (2, 256 * p + m.2 % 256) else m }

/-- A copy of page `p` of Y memory in stage page `s`: a word of the copy is in error where its source is. -/
def Engine.primeMarks (e : Engine) (s p : Nat) : Engine :=
  { e with ue := (e.ue.filter fun m => !(m.1 == 3 && m.2 / 256 == s)) ++
      (e.ue.filter fun m => m.1 == 2 && m.2 / 256 == p).map fun m => (3, 256 * s + m.2 % 256) }

/-- Stage page `s` and its target page are exchanged (R269). -/
def Hub.exchange (h : Hub) (n s : Nat) : Hub :=
  let p := h.fld (eng n (0x51000 + s)) 5 0
  iter 256 (fun i h =>
    let a := 256 * p + i
    let old := (tget (fun _ => (0 : Word)) (h.engine n).y a).toNat
    let new := h.reg (kStage n s i)
    let h := h.modEng n fun e =>
      { e with y := tput (fun _ => 0) e.y a (BitVec.ofNat 16 new),
               image := { e.image with y := tput (fun _ => 0) e.image.y a (BitVec.ofNat 16 new) } }
    h.setReg (kStage n s i) old) (h.modEng n fun e => e.swapMarks s p)

/-- What a register word of a restore image holds that nothing has written. -/
def imageReset (off : Nat) : Word := resetWord (eng 0 off)

/-- A register word copied into the restore image (R265). -/
def Hub.imageReg (h : Hub) (n off : Nat) : Hub :=
  h.modEng n fun e => { e with image := { e.image with regs := tput imageReset e.image.regs off (tget resetWord h.regs (eng n off)), bad := e.image.bad.erase (2, off) } }

/-- A commit takes effect (R269): pages are exchanged, the program switch is applied. The glides follow. -/
def Hub.commitDone (h : Hub) (n : Nat) (w : Word) (tick : Nat) : Hub :=
  let mask := w.toNat % 16
  let prog := w.getLsbD 4
  let h := iter 4 (fun s h => if bit mask s then h.exchange n s else h) h
  let h := if prog then
      let h := h.setEff (kSe n 0x101) (h.reg (eng n 0x51010))
      let h := h.setReg (kSe n 0x001) (h.reg (eng n 0x51011))
      let h := (h.setReg (eng n 0x51014) (h.reg (eng n 0x51012))).setReg (eng n 0x51015) (h.reg (eng n 0x51013))
      (((h.imageReg n 0x40101).imageReg n 0x40001).imageReg n 0x51014).imageReg n 0x51015
    else h
  let h := (h.modEng n fun e => { e with commit := none, bound := false }).addWrap (eng n 0x51007) 1 1
  h.issue n 0x401 (flagAt prog 4 + mask) tick (h.reg (kSe n 0x001))

/-- COMMIT_REFUSED (R267). -/
def Hub.refuseCommit (h : Hub) (n cause : Nat) (w : Word) : Hub :=
  (h.modEng n fun e => { e with commit := none, bound := false }).issue n 0x402 cause w.toNat
    (if cause = 1 then h.reg (eng n 0x51011) else 0)

/-- The budget of the domain of engine `n` (R33). -/
def Hub.budget (h : Hub) (n : Nat) : Nat := tickBudget (h.dom (h.domOf n)).rate

/-- Is a program length refused: zero, or above the budget (R37). -/
def Hub.lenBad (h : Hub) (n len : Nat) : Bool := len == 0 || decide (h.budget n < len)

/-- The commit of engine `n` is judged again and takes effect, or is refused (R267, R268). -/
def Hub.takeCommit (h : Hub) (n tick : Nat) : Hub :=
  match (h.engine n).commit with
  | none => h
  | some w => if w.getLsbD 4 && h.lenBad n (h.reg (eng n 0x51011)) then h.refuseCommit n 1 w else h.commitDone n w tick

/-- The commit of engine `n` where no program starts with it: the glides are written at once (R269, R274). -/
def Hub.commitNow (h : Hub) (n tick : Nat) : Hub := iter 16 (fun g h => h.glideOut n g) (h.takeCommit n tick)

/-- The input window of a starting program, with tag `t` for what is still Crema (R155, R395). -/
def windowOf (inp : Tbl Sample) (t : Nat) : Tbl RVal :=
  inp.map fun p =>
    (p.1, { v := BitVec.ofNat 40 p.2.v.toNat, void := p.2.void,
            tags := if p.2.crema.isSome && !p.2.void then BitVec.ofNat 4 (2 ^ t) else 0 })

/-- A sample program starts (R161 steps 2 and 3): a REPN of background code holds no longer, a commit bound to its tick takes
effect, the glides advance, the window is presented, and the first bundle is at SE_SPENTRY. -/
def Hub.startProgram (h : Hub) (n : Nat) (late : Bool) : Hub :=
  let tick := if late then (h.engine n).run.pendTick else h.tickLo (h.domOf n)
  let h := h.modEng n fun e => { e.dropHold true with faults := e.faults.map fun f => if f.bg then f else { f with ended := true } }
  let h := if (h.engine n).bound then h.takeCommit n tick else h
  let h := iter 16 (fun g h => h.glideStep n g) h
  let inp := (h.engine n).inPend
  let frames := (inp.filterMap fun p => if p.2.void then none else p.2.crema).dedup
  let t := (firstBelow 4 fun i => !(((h.engine n).tags.get {} i)).pending).getD 0
  let plen := h.reg (kSe n 0x001)
  let entry := h.eff (kSe n 0x101)
  h.modEng n fun e =>
    { e with inRun := windowOf inp t,
             tags := if frames.isEmpty then e.tags else e.tags.mod t fun _ => { pending := true, frames := frames },
             shadow := { e.shadow.setPc entry with bundle := [], held := [], wait := 0, branch := none, rep := none, hold := false, answer := none },
             run := { e.run with inprog := true, recent := !late || e.run.pendRecent, pend := false, done := false, discard := false,
                                 outVoid := false, late := late, eccFail := false, count := 0, plen := plen, farUsed := 0 } }

/-! ### Failing (R170, R257, R609, R610) -/

/-- Is a spare available in entry `k` of SE_SPARE: enabled, not used, and its engine has a physical engine (R169, R170, R620). -/
def Hub.spareThere (h : Hub) (k : Nat) : Bool :=
  bit (h.reg 0x23) (8 * k + 7) && !bit (h.reg 0x23) (8 * k + 6) && h.hasPe (h.fld 0x23 (8 * k + 3) (8 * k)) &&
    (h.engine (h.fld 0x23 (8 * k + 3) (8 * k))).st == .normal

/-- The entry that the next substitution takes: entry 0 before entry 1 (R170). -/
def Hub.spareEntry (h : Hub) : Option Nat := firstBelow 2 h.spareThere

/-! ### Executing -/

/-- One execution of a bundle's slots: results that are due land, every slot reads, then every slot writes, and DO and DOR
add a level; the bundle counts as executed (R186, R194, R195, R243). -/
def Hub.once (h : Hub) (n : Nat) (bg forced : Bool) (is : List Instr) (last : Nat) : Hub × Ctl :=
  let h := h.modEng n fun e => e.land bg
  let effs := bundleEffs (h.viewOf n bg last) is
  let h := { h with free := h.free + 16 * is.length }
  let h := effs.zipIdx.foldl (fun h x => h.applyEff n bg forced x.2 x.1) h
  let h := h.modBank n bg fun b => { b with pos := b.pos + 1 }
  let h := if bg then h else h.modRun n fun r => { r with count := r.count + 1 }
  let c := (effs.map fun x => x.1.ctl).getLastD .go
  let h := match c with | .enter => h.modBank n bg fun b => { b with depth := b.depth + 1 } | _ => h
  (h, c)

/-- The slots that REP repeats: the others of its bundle (R247). -/
def withoutRep (is : List Instr) : List Instr := is.filter fun i => match i with | .opRep .. => false | _ => true

/-- How often a bundle of the sample program executes. -/
def View.bundleCount (v : View) (is : List Instr) : Nat :=
  match is.findSome? fun i => match i with | .opRep _ _ _ f => some f | _ => none with
  | some f => v.repCount f
  | none => 1

/-- Is a bundle repeated under REPN (R247). -/
def repn (is : List Instr) : Bool := is.any fun i => match i with | .opRep _ _ _ f => f.n | _ => false

/-- The last word of a bundle that starts at `pc`. -/
def lastWord (pc : Nat) (is : List Instr) : Nat := (pc + words is - 1) % 0x8000

/-- A held bundle is done with. -/
def Bank.unhold (b : Bank) : Bank := { b with held := [], wait := 0, bundle := [] }

/-- A repetition is done and `k` are left: under REPN writes from outside wait until the last (R247, R248). -/
def Bank.again (b : Bank) (k : Nat) (n : Bool) : Bank := { b.unhold with rep := some (k, n), hold := n }

/-- The last repetition is done, or there is no repeat: a hold ends (R248). -/
def Engine.repDone (e : Engine) (bg : Bool) : Engine := (e.modBank bg fun b => { b.unhold with rep := none, hold := false }).flush

/-- Has an operation a delay slot (R203). -/
def hasDelay (i : Instr) : Bool := match i with | .br .. | .brp .. | .call .. | .ret .. => true | _ => false

/-- A compact operation executes, or waits (R201 to R203, R247): one repetition at a time, at whose end a tick switch or a
write from outside may fall (R162, R248). -/
def Hub.runCompact (h : Hub) (n : Nat) (i : Instr) : Hub :=
  let b := (h.engine n).fore
  let last := lastWord b.pc [i]
  let v := h.viewOf n true last
  match v.bundleWaits [i] with
  | 0 =>
    let (h, c) := h.once n true false [i] last
    if (h.engine n).halt ≠ 0 then h.modBank n true Bank.unhold
    else match i, b.rep with
      | .opRep _ _ _ f, _ =>
        let g := v.guard i
        let k := if g.2 && !g.1.void then v.repCount f else 1
        ((h.modEng n fun e => e.repDone true).advance n true last).modBank n true fun b => { b with rep := some (k, f.n) }
      | _, some (k + 2, f) => h.modBank n true fun b => b.again (k + 1) f
      | _, _ => (h.modEng n fun e => e.repDone true).nextCompact n last (hasDelay i) b.branch c
  | code => h.beginWait v [i] code

/-- May an operation follow a REP prefix, and may it stand in a delay slot (R203). -/
def afterRep (i : Instr) : Bool := match i with | .br .. | .brp .. | .call .. | .ret .. | .opRep .. => false | _ => true
def inDelay (i : Instr) : Bool := match i with | .opDo .. | .dor .. => false | _ => afterRep i

/-- Is a word not defined where compact mode meets it (R201, R203). -/
def Bank.undefinedOp (b : Bank) (i : Instr) : Bool :=
  let hdGood := match opSlot i with | some (hd, _) => hdOk hd && opStops i | none => false
  !(opLegal true i && hdGood) || (b.rep.isSome && !afterRep i) || (b.branch.isSome && !inDelay i)

/-- What ECC finds in the slot words of an operation at `a`: a word in error stays in error (R167). -/
def Engine.fetchFound (e : Engine) (a : Nat) (i : Instr) : List (Nat × Ecc) :=
  let l := match opSlot i with
    | some (hd, _) => hd.fetch :: (match i with | .call _ _ hd _ _ => if hd.s then [] else [found hd.reads 0] | _ => [])
    | none => []
  l.zipIdx.map fun p => let x := (a + p.2) % 0x8000; (x, if e.ue.contains (0, x) then .uncorrectable else p.1)

/-- What ECC finds in the `k` words from PC of the sample program on. -/
def Engine.wordsFound (e : Engine) (k : Nat) (l : List Ecc) : List (Nat × Ecc) :=
  (List.range k).map fun i =>
    let x := (e.shadow.pc + i) % 0x8000
    (x, if e.ue.contains (0, x) then .uncorrectable else found l i)

/-- Findings in program memory counted and reported, and whether a word cannot be corrected (R167). -/
def Hub.fetched (h : Hub) (n : Nat) (l : List (Nat × Ecc)) (sample : Bool) : Hub × Bool :=
  (l.foldl (fun h p => h.engEcc n 0 p.1 p.2 sample) h, l.any fun p => p.2 == .uncorrectable)

/-- A compact operation issues (R201): a word that cannot be corrected, or that compact mode does not define, halts background
code. -/
def Hub.compact (h : Hub) (n : Nat) (i : Instr) : Hub :=
  let b := (h.engine n).fore
  let (h, bad) := h.fetched n ((h.engine n).fetchFound b.pc i) false
  if bad then h.bgHalt n 2
  else if b.undefinedOp i then h.bgHalt n 1
  else match b.rep with
    | some (0, _) => (h.goto n true (lastWord b.pc [i] + 1)).modBank n true fun b => { b with rep := none }
    | _ => h.runCompact n i

/-- Does background code run: BGEN, not halted, no sample program running or pending, a physical engine in service (R50,
R164). -/
def Hub.bgRuns (h : Hub) (n : Nat) : Bool :=
  let e := h.engine n
  e.bgen && e.halt == 0 && !e.run.inprog && !e.run.pend && h.hasPe n && !(e.st == .failed || e.st == .substituting)

/-- Does background code run on engine `n`: its own, or calibration's in the time its sample program leaves (R483). -/
def Hub.bgBusy (h : Hub) (n : Nat) : Bool :=
  let e := h.engine n
  h.bgRuns n || (h.calHolds n && !e.run.inprog && !e.run.pend && h.hasPe n && !(e.st == .failed || e.st == .substituting))

/-- A held background operation is tried again. -/
def Hub.kickBg (h : Hub) (n : Nat) : Hub :=
  let b := (h.engine n).fore
  match b.held with
  | i :: _ => if h.bgRuns n then h.runCompact n i else h
  | [] => h

/-- A parked write of SP writes nothing once the stack has been reset (R252). -/
def Engine.killSp (e : Engine) (bg : Bool) : Engine :=
  { e with park := e.park.map fun p => if p.kind == .reg rSP && p.bg == bg then { p with dead := true } else p }

/-- The answer of END's output stage and counters (R37, R39, R40, R50, R161 step 5, R200, R252). -/
def Hub.account (h : Hub) (n : Nat) (x : EndIn) : Hub :=
  let r := (h.engine n).run
  let h := if r.count = r.plen then h
    else (h.seFlag n 0x004).issueLimited 0 n 0x102 r.plen r.count 0
  let slack := if r.recent then max 1 x.slack.toNat else 0
  let h := (h.setReg (kSe n 0x006) slack).setReg (kSe n 0x007) (min slack (h.reg (kSe n 0x007)))
  let h := (h.setReg (kSe n 0x008) (r.count % 2 ^ 14)).setReg (kSe n 0x009) x.wait.toNat
  let a := h.asc
  let a := if r.spen && (!a.any || decide (slack < a.slack)) then { a with slack := slack, eng := n, any := true } else a
  let sptop := h.reg (kSe n 0x106)
  let h := { h with asc := a }
  h.modEng n fun e =>
    let e := ((e.landAll false).killSp false).repDone false
    { e with handed := e.outWin,
             shadow := { e.shadow.put rSP (rv sptop) with depth := 0, branch := none },
             run := { e.run with inprog := false, done := r.recent && !r.discard, everOn := e.run.everOn } }

/-- An engine is declared failing (R170, R267 cause 5). Its program's waits end with `endWaits`. -/
def Hub.declare (h : Hub) (n cause : Nat) : Hub :=
  let e := h.engine n
  if e.st ≠ .normal then h
  else
    let h := h.modEng n fun e => { e with st := .failing, run := { e.run with failCause := cause, discard := true } }
    let h := h.issue n 0x207 cause (h.tickLo (h.domOf n)) (b2n h.spareEntry.isSome)
    let h := match e.commit with | some w => h.refuseCommit n 5 w | none => h
    ({ h with sub := { h.sub with waiting := h.sub.waiting ++ [n] } }).calLost n

/-- END: the program hands off its outputs, an uncorrectable program error declares the engine failing, and a pending
program starts, or background code resumes (R50, R161 steps 5 and 6, R167). -/
def Hub.programEnd (h : Hub) (n : Nat) (x : EndIn) : Hub :=
  let r := (h.engine n).run
  let h := h.account n x
  let h := if r.eccFail && bit (h.reg (kSe n 0x100)) 0 then h.declare n 2 else h
  if (h.engine n).run.pend && (h.engine n).st == .normal then h.startProgram n true else h.kickBg n

/-- A bundle of the sample program executes once, or waits, and control goes on from it: under REP it stays at the bundle
while repetitions are left (R247). -/
def Hub.runSample (h : Hub) (n : Nat) (forced : Bool) (is : List Instr) : Hub :=
  let b := (h.engine n).shadow
  let last := lastWord b.pc is
  let v := (h.modEng n fun e => e.land false).viewOf n false last
  match if forced then 0 else v.bundleWaits (withoutRep is) with
  | 0 =>
    let (h, c) := h.once n false forced (withoutRep is) last
    match b.rep.getD (v.bundleCount is, repn is) with
    | (k + 2, f) => h.modBank n false fun b => b.again (k + 1) f
    | _ =>
      let h := h.modEng n fun e => e.repDone false
      match is.getLast? with
      | some (.opEnd _ _ _ x) => (h.loopTest n false last 5).1.programEnd n x
      | _ => h.nextBundle n last c
  | code => (h.beginWait v (withoutRep is) code).modBank n false fun b => { b with held := is }

/-- A bundle that executes with no effect: it counts, and every output of the tick is void (R166, R167). -/
def Hub.voidBundle (h : Hub) (n w : Nat) : Hub :=
  let h := h.modEng n fun e =>
    let e := e.land false
    { e.repDone false with shadow := { (e.repDone false).shadow with pos := e.shadow.pos + 1 }, run := { e.run with outVoid := true, count := e.run.count + 1 } }
  h.advance n false (((h.engine n).shadow.pc + w - 1) % 0x8000)

/-- An undefined bundle of `w` words (R166, R185). -/
def Hub.illegal (h : Hub) (n w : Nat) : Hub := (h.issueLimited 0 n 0x20A (h.engine n).shadow.pc 0 0).voidBundle n w

/-- What ECC finds in the words of a bundle. -/
def Engine.bundleFound (e : Engine) (is : List Instr) : List (Nat × Ecc) :=
  (is.foldl (fun (p : Nat × List (Nat × Ecc)) i => (p.1 + opWords i, p.2 ++ e.fetchFound p.1 i)) (e.shadow.pc, [])).2

/-- A bundle with a word that ECC cannot correct executes with no effect; with ECCFAIL the engine is declared failing at END
(R167). -/
def Hub.badBundle (h : Hub) (n w : Nat) : Hub := (h.modRun n fun r => { r with eccFail := true }).voidBundle n w

/-- A complete bundle of the sample program is executed. -/
def Hub.bundle (h : Hub) (n : Nat) (is : List Instr) : Hub :=
  let (h, bad) := h.fetched n ((h.engine n).bundleFound is) true
  if bad then h.badBundle n (min 4 (words is))
  else if !bundleOk is then h.illegal n (min 4 (words is))
  else h.runSample n (h.engine n).run.discard is

/-- Does the sample program of engine `n` issue: it runs, does not wait, and has not reached the limit of R194. -/
def Hub.issues (h : Hub) (n : Nat) : Bool :=
  let e := h.engine n
  e.run.inprog && e.shadow.wait == 0 && decide (e.run.count < 8192) && h.hasPe n

/-- A held bundle of the sample program is tried again, or ended where `forced` (R257). -/
def Hub.kickSample (h : Hub) (n : Nat) (forced : Bool) : Hub :=
  let e := h.engine n
  if e.shadow.held.isEmpty || !e.run.inprog then h
  else
    (if forced then h.xlDrop n false else h).runSample n forced e.shadow.held

/-- An engine is declared failing, and the waits of its program end (R170, R257). -/
def Hub.fail (h : Hub) (n cause : Nat) : Hub := (h.declare n cause).kickSample n true

/-- What waits in an engine is tried again. -/
def Hub.kick (h : Hub) (n : Nat) : Hub := (h.kickSample n false).kickBg n

/-- What waits in every engine is tried again. -/
def Hub.kickAll (h : Hub) : Hub := iter 16 (fun n h => h.kick n) h

/-- One operation of engine code (R185, R201). Nothing happens unless the words that the engine fetches spell it. A sample
program gathers its bundle and runs it at the stop bit, background code runs each operation. -/
def Hub.slot (h : Hub) (n : Nat) (bg : Bool) (i : Instr) : Hub :=
  if !(h.engine n).placed bg i then h
  else if bg then (if h.bgRuns n && (h.engine n).fore.held.isEmpty then (h.compact n i).kickAll else h)
  else if !h.issues n then h
  else
    let is := (h.engine n).shadow.bundle ++ [i]
    if opStops i || 4 ≤ words is then ((h.modBank n false fun b => { b with bundle := [] }).bundle n is).kickAll
    else h.modBank n false fun b => { b with bundle := is }

/-! ### Resolution (R214, R395 to R401) -/

/-- A value after tag `t` has resolved (R396). -/
def RVal.resolve (r : RVal) (t : Nat) (void : Bool) : RVal :=
  if r.tags.getLsbD t then (if void then { r with void := true, tags := 0 } else { r with tags := r.tags &&& ~~~(BitVec.ofNat 4 (2 ^ t)) })
  else r

/-- A bank after tag `t` has resolved: registers and results in flight, and the pending sticky bits that stay pending
(R396). -/
def Bank.resolve (b : Bank) (t : Nat) (void : Bool) : Bank :=
  { b with regs := b.regs.map fun p => (p.1, p.2.resolve t void),
           flights := b.flights.map fun f => { f with val := f.val.resolve t void },
           pendSt := (b.pendSt.map fun p => (p.1, if p.2.getLsbD t then (if void then 0 else p.2 &&& ~~~(BitVec.ofNat 4 (2 ^ t))) else p.2)).filter
             fun p => p.2 != 0 }

/-- The sticky bits that enter SR of a bank as tag `t` resolves (R213, R214): pending bits whose data is confirmed; T where
a register, a result, a pending bit or a parked register write becomes void. -/
def Engine.stickyOf (e : Engine) (bg : Bool) (t : Nat) (void : Bool) : Nat :=
  let b := e.bank bg
  if void then
    (if (b.regs.any fun p => p.2.tags.getLsbD t) || (b.flights.any fun f => f.val.tags.getLsbD t) ||
        (b.pendSt.any fun p => p.2.getLsbD t) ||
        (e.park.any fun p => p.bg == bg && p.val.tags.getLsbD t && (match p.kind with | .reg _ => true | _ => false)) then bT else 0)
  else (b.pendSt.filter fun p => p.2 == BitVec.ofNat 4 (2 ^ t)).foldl (fun n p => n ||| p.1) 0

/-- Is a park-buffer entry released, given the older entries that stay (R396). -/
def ParkEntry.ready (p : ParkEntry) (older : List ParkEntry) : Bool :=
  !p.val.crema && match p.kind with
    | .store m a => !older.any fun q => q.kind == .store m a
    | .reg _ => true
    | .far o => !Engine.farBlocked older p.born o
    | .ext .. => !older.any fun q => match q.kind with | .ext .. => true | _ => false

/-- The word `w` of a released store `s`, as a far store that was issued after it takes it (R242). -/
def ParkEntry.feed (s : ParkEntry) (m a w : Nat) (p : ParkEntry) : ParkEntry :=
  match p.kind with
  | .far o =>
    let i := (a + 0x8000 - o.x) % 0x8000
    if o.store ∧ m = 0 ∧ i < o.n ∧ s.before p.bg p.born then { p with kind := .far { o with data := o.data.set i (BitVec.ofNat 16 w) } } else p
  | _ => p

/-- What the release of an entry does (R212, R242, R396). -/
def Hub.releaseOne (h : Hub) (n : Nat) (p : ParkEntry) : Hub :=
  match p.kind with
  | .store m a => h.modEng n fun e => e.poke m a (if p.val.void then 0 else p.val.n)
  | .reg ref =>
    h.modEng n fun e => if p.dead then e else e.modBank p.bg fun b => b.put ref (rv (if p.val.void then 0 else p.val.n))
  | .far o => if p.val.void then h.modEng n fun e => e.farVoid o else h.farIssue n o ((h.bank n p.bg).pc)
  | .ext num args dst =>
    let x := if p.val.void then voidZero else p.val
    if num < 8 then
      let (h, r) := h.cluOp n num (if p.val.void then voidArgs num args else args) x
      h.modEng n fun e => e.extResult p.bg p.born num dst (r.join x)
    else if h.xlPresent then
      { h with clu := { h.clu with xl := h.clu.xl ++ [{ eng := n, bg := p.bg, op := num - 8, arg := lget 0 args 0, sa := x.n % 65536, dst := some dst, born := p.born }] } }
    else (h.xlAbsent n num ((h.bank n p.bg).pc)).modEng n fun e => e.extResult p.bg p.born num dst voidZero

/-- The park buffer is gone through from its oldest entry: entries that are ready are released, the others stay; a register
write that is released supersedes older ones that stay (R212). -/
def Hub.releaseAll (h : Hub) (n : Nat) (stay : List ParkEntry) : List ParkEntry → Nat → Hub
  | _, 0 => h.modEng n fun e => { e with park := stay }
  | [], _ => h.modEng n fun e => { e with park := stay }
  | p :: ps, fuel + 1 =>
    if p.ready stay then
      let ps := match p.kind with | .store m a => ps.map (p.feed m a (if p.val.void then 0 else p.val.n % 65536)) | _ => ps
      let stay := match p.kind with
        | .reg ref => if p.dead then stay else stay.map fun q => if q.kind == .reg ref && q.bg == p.bg then { q with dead := true } else q
        | _ => stay
      Hub.releaseAll (h.releaseOne n p) n stay ps fuel
    else Hub.releaseAll h n (stay ++ [p]) ps fuel

/-- Stack faults that waited for tag `t`: raised on confirmation, dropped where void (R137). -/
def Hub.faultsDue (h : Hub) (n : Nat) : Hub :=
  let l := (h.engine n).faults
  (l.filter fun f => f.val.conf).foldl (fun h f => h.stackFault n f)
    (h.modEng n fun e => { e with faults := l.filter fun f => f.val.crema })

/-- Tag `t` of engine `n` resolves at the engine (R396): void as soon as a frame it stands for is rejected, confirmed
when every frame is confirmed. A tag that is still open does not resolve. The sticky bits enter SR after the parked
writes that are released with them (R214, R215). -/
def Hub.tagResolve (h : Hub) (n t : Nat) : Hub :=
  let e := h.engine n
  let tag := e.tags.get {} t
  if !tag.pending || !(tag.void || tag.frames.isEmpty) then h
  else
    let f := fun r : RVal => r.resolve t tag.void
    let res := fun l : Tbl RVal => l.map fun p => (p.1, f p.2)
    let h := h.setEng n { e with
      tags := e.tags.mod t fun _ => {},
      shadow := e.shadow.resolve t tag.void, fore := e.fore.resolve t tag.void,
      inRun := res e.inRun, outWin := res e.outWin, handed := res e.handed,
      park := e.park.map fun p => { p with val := f p.val }, faults := e.faults.map fun p => { p with val := f p.val } }
    let h := (h.releaseAll n [] (h.engine n).park 65).modEng n fun x =>
      { x with shadow := x.shadow.setSticky (e.stickyOf false t tag.void), fore := x.fore.setSticky (e.stickyOf true t tag.void) }
    (h.faultsDue n).kick n

/-- A frame of a context is confirmed or rejected: the tags that stand for it, and the samples of pending windows
(R395, R396). -/
def Engine.frameDone (e : Engine) (f : Nat × Nat) (ok : Bool) : Engine :=
  { e with tags := e.tags.map (fun t => if t.frames.contains f then (if ok then { t with frames := t.frames.erase f } else { t with void := true }) else t),
           inPend := tmapv (fun _ => {}) (fun p => if p.crema = some f then { p with crema := none, void := !ok } else p) e.inPend }

/-! ### The XL header (R204, R636) -/

/-- The module answers the transfer at the head (R204). -/
def Hub.xlAnswer (h : Hub) (r : RVal) : Hub :=
  match h.clu.xl with
  | [] => h
  | q :: qs =>
    let h := { h with clu := { h.clu with xl := qs } }
    match q.dst with
    | some d => h.modEng q.eng fun e => e.extResult q.bg q.born (8 + q.op) d r
    | none => (h.modBank q.eng q.bg fun b => { b with answer := some r }).kick q.eng

end Sys2Proof.Machine
end

