-- ==== Sys2Proof/Machine/Slots.lean ====
section
/-! DEFINITION. Slots.lean: the allocation of the Sample Bus's global slots (R465, R466). -/

namespace Sys2Proof.Machine

/-- Word `w` of the allocation of slot `s`. -/
def kSlot (s w : Nat) : Nat := spc 0x20 (2 * s + w)

/-- Is a slot allocated; the two words are one field, in force when the second is written (R466). -/
def Hub.slotV (h : Hub) (s : Nat) : Bool := bit (h.eff (kSlot s 0)) 15
/-- Domain of a slot. -/
def Hub.slotDom (h : Hub) (s : Nat) : Nat := bits (h.eff (kSlot s 0)) 13 12
/-- TYPE of a slot. -/
def Hub.slotType (h : Hub) (s : Nat) : Nat := bits (h.eff (kSlot s 0)) 3 0
/-- UNIT of a slot. -/
def Hub.slotUnit (h : Hub) (s : Nat) : Nat := h.eff (kSlot s 1)

/-- Is slot `s` allocated to the name (type, unit). -/
def Hub.slotIs (h : Hub) (s ty u : Nat) : Bool := h.slotV s && h.slotType s == ty && h.slotUnit s == u

/-- The slot that a name is allocated to (R465). -/
def Hub.slotOf (h : Hub) (ty u : Nat) : Option Nat := firstBelow 512 fun s => h.slotIs s ty u

/-- Names of sources have TYPE 0 to 4, names of sinks 5 to 9 (R465). -/
def isSource (ty : Nat) : Bool := decide (ty < 5)

end Sys2Proof.Machine
end

