-- ==== Sys2Proof/Machine/EngineCtl.lean ====
section
/-! DEFINITION. EngineCtl.lean: the engines as the host sees them: enabling, memories, stage pages, commits, glides,
checks, spares, adaptive supply control (R37 to R46, R157 to R170, R260 to R280). -/

namespace Sys2Proof.Machine

/-! ### Adaptive supply control (R41 to R46) -/

/-- The ceiling code in force. -/
def Hub.ascCeil (h : Hub) : Nat := h.fld 0x6F 13 8

/-- The core code moves, never above CEIL; each one-code change counts (R42, R43). -/
def Hub.setCode (h : Hub) (c : Nat) : Hub :=
  let old := h.reg 0x6E
  let c := min c h.ascCeil
  (h.setReg 0x6E c).addWrap (spc 0x3F 0x104) 2 ((c - old) + (old - c))

/-- A speed monitor publishes its reading (R41). -/
def Hub.speedReading (h : Hub) (m rate : Nat) : Hub :=
  let h := h.setReg (spc 0x3F (0x108 + m)) rate
  if rate < 480 then
    let code := h.reg 0x6E
    let h := { h with asc := { h.asc with breach := true, good := tput (fun _ => 0) h.asc.good m 0 } }
    ((h.setFlag (spc 0x3F 0x110)).issueLimited m 225 1 m rate code).setCode h.ascCeil
  else
    let g := tput (fun _ => 0) h.asc.good m (satN 1000 (tget (fun _ => 0) h.asc.good m + 1))
    let all := (List.range 8).all fun i => decide (1000 ≤ tget (fun _ => 0) g i)
    { h with asc := { h.asc with good := g, breach := h.asc.breach && !all } }

/-- A raise of the core code by `k`, limited to CEIL (R43, R44). -/
def Hub.ascRaise (h : Hub) (k : Nat) : Hub :=
  let a := h.asc
  let slack := if a.any then a.slack else 0xFFFF
  let code := h.reg 0x6E
  let ceil := h.ascCeil
  let h := if code = ceil then (h.setFlag (spc 0x3F 0x106)).issueLimited 0 224 1 code slack a.eng else h
  h.setCode (code + k)

/-- The 1 ms evaluation, from DOM0's first tick on (R43 to R46); SE_HUBSLACK takes the interval's least slack (R40). A code that
a lowered CEIL leaves above it comes down to it (R42). DESIGN CHOICE: the count of consecutive intervals at or above HIGH
starts again at 0 after an interval with a miss or a raise, during a floor breach and in modes 1 and 2 (log entry 126). -/
def Hub.ascEvaluate (h : Hub) : Hub :=
  if ¬ h.clk.started then h
  else
    let a := h.asc
    let slack := if a.any then a.slack else 0xFFFF
    let h := h.setReg 0x2F (4096 * a.eng + slack / 16)
    let mode := h.fld 0x6F 1 0
    let dwell := if h.reg (spc 0x3F 0x101) ≤ slack then a.dwell + 1 else 0
    let code := h.reg 0x6E
    let (h, dwell) :=
      if a.breach ∨ mode = 2 then (h.setCode h.ascCeil, 0)
      else if mode = 1 then (h.setCode (h.fld 0x6F 7 2), 0)
      else if a.missed then (h.ascRaise 8, 0)
      else if slack < h.reg (spc 0x3F 0x100) then (h.ascRaise 2, 0)
      else if h.reg (spc 0x3F 0x102) ≤ dwell then (h.setCode (code - 1), 0)
      else (h.setCode code, dwell)
    { h with asc := { h.asc with slack := 0xFFFF, eng := 0, any := false, missed := false, dwell := dwell } }

/-- A write into the space of a logical engine, which a reserved engine ignores (R169). -/
def Hub.seWrite (h : Hub) (n : Nat) (f : Hub → Hub) : Hub := if h.reserved n then h else f h

/-! ### Deadline registers (R37, R40) -/

/-- SE_PLEN written: while SPEN is 1 in force a value out of range fails (R37). -/
def Hub.plenWrite (h : Hub) (n len : Nat) : Hub :=
  if (h.engine n).run.spen && h.lenBad n (len % 2 ^ 14) then h.failWin 3 0x40001
  else (h.setReg (kSe n 1) (len % 2 ^ 14)).imageReg n 0x40001

/-- SE_SLACK_MIN written with any value (R40). -/
def Hub.slackMinReset (h : Hub) (n : Nat) : Hub := h.setReg (kSe n 7) 0xFFFF

/-! ### SE_CTL (R157, R164) -/

/-- Why a map entry fails in domain `d`: inputs are entries 0 to 31, outputs 32 to 63 (R157 causes 5 and 6). -/
def Hub.mapCause (h : Hub) (n d i w : Nat) : Option Nat :=
  let s := bits w 8 0
  if ¬ bit w 15 then none
  else if i < 32 then (if h.slotV s && h.slotDom s == d then none else some 5)
  else if h.slotIs s 0 (32 * n + (i - 32)) then none else some 6

/-- The map entry of engine `n` by its number in the events. -/
def kMap (n i : Nat) : Nat := kSe n (0x200 + i)

/-- Why a change of SPEN or DOM is refused, with the map entry of causes 5 and 6 (R157); a reserved engine refuses it under
cause 2 (R169). -/
def Hub.enableCause (h : Hub) (n spen dom : Nat) : Option (Nat × Nat) :=
  let rate := (h.dom dom).rate
  let len := h.reg (kSe n 1)
  let e := h.engine n
  if h.reserved n then some (2, 0)
  else if spen = 1 ∧ (len = 0 ∨ tickBudget rate < len) then some (1, 0)
  else if e.st ≠ .normal ∨ ¬ h.hasPe n then some (2, 0)
  else if spen = 1 ∧ ¬ (h.dom dom).en then some (3, 0)
  else if dom ≠ h.domOf n ∧ e.run.spen then some (4, 0)
  else match firstBelow 64 fun i => (h.mapCause n dom i (h.eff (kMap n i))).isSome with
    | some i => some (if i < 32 then 5 else 6, i)
    | none => none

/-- SE_CTL written (R157, R158, R164): a change of SPEN or DOM is judged; the other fields take effect. BGEN = 0 stops a wait of
background code at once, and with BGEN = 1 its operation waits again (R257). -/
def Hub.ctlWrite (h : Hub) (n w : Nat) : Hub :=
  let old := h.reg (kSe n 0x100)
  let sd := fun x => (bits x 15 15, bits x 9 8)
  let (h, keep) :=
    if sd w = sd old then (h, old)
    else match h.enableCause n (bits w 15 15) (bits w 9 8) with
      | none => (h, w)
      | some (c, i) => (h.issue n 0x202 c i w, old)
  if h.reserved n then h
  else
    let new := flagAt (bit keep 15) 15 + flagAt (bit w 14) 14 + 256 * bits keep 9 8 + bits w 0 0
    let h := (h.setReg (kSe n 0x100) new).imageReg n 0x40100
    let h := h.modEng n fun e =>
      if bit w 14 then { e with bgen := true } else { e.dropHold true with bgen := false, fore := { (e.dropHold true).fore with wait := 0 } }
    h.kickBg n

/-- A restart of background code at SE_BGENTRY: its saved state is cleared, with the XL transfer that it waited for, and SP
returns to the stack top (R164, R252). -/
def Hub.bgStart (h : Hub) (n : Nat) : Hub :=
  (h.xlDrop n true).modEng n fun e =>
    let e := (e.killSp true).repDone true
    { e with halt := 0,
             fore := { (e.fore.setPc (h.reg (kSe n 0x102))).put rSP (rv (h.reg (kSe n 0x108))) with
                         depth := 0, branch := none, answer := none } }

/-- SE_BGCMD written: accepted while background code is idle or halted (R164, R165). -/
def Hub.bgCmd (h : Hub) (n w : Nat) : Hub :=
  let e := h.engine n
  if w = 1 ∧ (¬ e.bgen ∨ e.halt ≠ 0) then h.bgStart n else h

/-- Is engine `n` stopped: nothing runs, and no tag of its banks is pending (R180, R398). -/
def Hub.stopped (h : Hub) (n : Nat) : Bool :=
  let e := h.engine n
  !e.run.spen && !e.bgen && !e.run.inprog && !e.tags.any Tag.pending

/-! ### Memories (R260 to R264) -/

/-- Is slot word `a` protected against window writes (R262). -/
def Hub.progLocked (h : Hub) (n a : Nat) : Bool :=
  let inRange := fun lo hi => decide (h.reg (eng n lo) ≤ a) && decide (a ≤ h.reg (eng n hi))
  (h.engine n).run.spen &&
    (inRange 0x51014 0x51015 || ((h.engine n).commit.any (fun w => w.getLsbD 4) && inRange 0x51012 0x51013))

/-- A slot word written by the host; it enters the restore image (R261, R265). -/
def Engine.setSlotWord (e : Engine) (a v : Nat) : Engine :=
  { e with prog := tput (fun _ => 0) e.prog a (BitVec.ofNat 32 v), ue := e.ue.filter fun p => p != (0, a),
           image := { e.image with prog := tput (fun _ => 0) e.image.prog a (BitVec.ofNat 32 v), bad := e.image.bad.erase (0, a) } }

/-- A host write to program memory: the low half is held until the high half is written (R261, R262). -/
def Hub.progWrite (h : Hub) (n off w : Nat) : Hub :=
  let a := off / 2
  if h.progLocked n a then h.failWin 3 off
  else if off % 2 = 0 then h.hold (eng n off) w
  else
    let lo := match h.staged (eng n (off - 1)) with
      | some x => x.toNat
      | none => ((h.engine n).progWord a).toNat % 65536
    (h.unstage (eng n (off - 1))).modEng n fun e => e.setSlotWord a (lo + 65536 * w)

/-- A host write of a word of X (0) or Y (1) memory. -/
def hostWrite (mem a w : Nat) : HeldWrite := { mem := mem, addr := a, val := BitVec.ofNat 16 w, mark := 0 }

/-- A host write to X memory; a REPN holds it to its end (R248, R263). -/
def Hub.xWrite (h : Hub) (n a w : Nat) : Hub := h.modEng n fun e => e.outside (hostWrite 0 a w)

/-- A host write to Y memory; a REPN holds it to its end, and it enters the restore image (R248, R263, R265). -/
def Hub.yWrite (h : Hub) (n a w : Nat) : Hub :=
  h.modEng n fun e =>
    { e.outside (hostWrite 1 a w) with image := { e.image with y := tput (fun _ => 0) e.image.y a (BitVec.ofNat 16 w), bad := e.image.bad.erase (1, a) } }

/-- A host read of a memory word (0 program, 1 X, 2 Y, 3 stage pages): zero, and a failed access, where the word is in error (R264). -/
def Hub.memRead (h : Hub) (n mem a off : Nat) (c : Ecc) : Hub × Nat :=
  let e := h.engine n
  let c := if e.ue.contains (mem, a) then .uncorrectable else c
  let h := h.engEcc n mem a c false
  if c = .uncorrectable then (h.failWin 3 off, 0)
  else
    let v := match mem with
      | 0 => (e.progWord a).toNat / 65536 ^ (off % 2) % 65536
      | 1 => (tget (fun _ => (0 : Word)) e.x a).toNat
      | 2 => (tget (fun _ => (0 : Word)) e.y a).toNat
      | _ => h.reg (eng n off)
    (h, v)

/-! ### The bank view (R180) -/

/-- The register that offset `o` of the bank view shows, with the part of it: none for an accumulator's middle words. -/
def bankReg (o : Nat) : Option (Nat × Nat) :=
  if o < 0x10 then some (o, 0)
  else if o < 0x1C then some (rA ((o - 0x10) / 3), (o - 0x10) % 3)
  else if 0x20 ≤ o ∧ o < 0x28 then some (rP (o - 0x20), 0)
  else if 0x28 ≤ o ∧ o < 0x30 then some (rO (o - 0x28), 0)
  else if 0x30 ≤ o ∧ o < 0x38 then some (rL (o - 0x30), 0)
  else if 0x38 ≤ o ∧ o < 0x40 then some (rB (o - 0x38), 0)
  else if 0x40 ≤ o ∧ o < 0x44 then some (rF (o - 0x40), 0)
  else if o = 0x44 then some (rSR, 0)
  else if 0x48 ≤ o ∧ o < 0x54 then
    let v := (o - 0x48) / 3
    some ((match (o - 0x48) % 3 with | 0 => rLS v | 1 => rLE v | _ => rLC v), 0)
  else if o = 0x54 then some (rSP, 0)
  else if o = 0x55 then some (rPC, 0)
  else none

/-- A word of the bank view read: a register's value, or the void marks as taint. -/
def Bank.viewRead (b : Bank) (o : Nat) : Nat :=
  let void := fun r => (b.get r).void
  if o = 0x56 then ((List.range 16).map fun i => flagAt (void i) i).sum
  else if o = 0x57 then ((List.range 4).map fun i => flagAt (void (rA i)) i + flagAt (void (rF i)) (i + 4)).sum
  else match bankReg o with
    | some (r, p) =>
      let n := (b.get r).n
      if p = 2 then (BitVec.ofInt 16 (sgn 8 (n / 2 ^ 32))).toNat else n / 65536 ^ p % 65536
    | none => 0

/-- A word of the bank view written: a confirmed value; a taint word ignores it. -/
def Bank.viewWrite (b : Bank) (o w : Nat) : Bank :=
  match bankReg o with
  | some (r, p) =>
    let old := (b.get r).n
    let v := if 16 ≤ r ∧ r < 20 then
        (if p = 0 then putBits old 15 0 w else if p = 1 then putBits old 31 16 w else putBits old 39 32 w)
      else if 64 ≤ r ∧ r < 68 then w % 2
      else if r = rPC then w % 0x8000
      else if r = rSR then w % 16
      else w
    b.put r (rv v)
  | none => b

/-! ### Stage pages and commits (R266 to R268) -/

/-- Is stage page `s` busy or part of a pending commit (R266). -/
def Hub.stageHeld (h : Hub) (n s : Nat) : Bool :=
  bit (h.reg (eng n (0x51000 + s))) 15 || (h.engine n).commit.any fun w => w.getLsbD s

/-- SE_YPRIME written: the copies of the pages named begin (R266). -/
def Hub.primeRequest (h : Hub) (n mask : Nat) : Hub :=
  iter 4 (fun s h => if bit mask s && !h.stageHeld n s then h.setFld (eng n (0x51000 + s)) 15 15 1 else h) h

/-- The copy of stage page `s` completes (R266). -/
def Hub.primeDone (h : Hub) (n s : Nat) : Hub :=
  let k := eng n (0x51000 + s)
  if ¬ bit (h.reg k) 15 then h
  else
    let p := h.fld k 5 0
    let h := iter 256 (fun i h => h.setReg (kStage n s i) (tget (fun _ => (0 : Word)) (h.engine n).y (256 * p + i)).toNat) h
    (h.modEng n fun e => e.primeMarks s p).setFld k 15 15 0

/-- Why a commit request is refused at its frame (R267). -/
def Hub.commitCause (h : Hub) (n w : Nat) : Option Nat :=
  let prog := bit w 4
  let nx := fun o => h.reg (eng n o)
  let pages := (List.range 4).filter fun s => bit w s
  if prog && h.lenBad n (nx 0x51011) then some 1
  else if prog && (decide (nx 0x51013 < nx 0x51012) || decide (nx 0x51010 < nx 0x51012) || decide (nx 0x51013 < nx 0x51010)) then some 2
  else if (pages.any fun s => bit (h.reg (eng n (0x51000 + s))) 15) || !decide (pages.map fun s => h.fld (eng n (0x51000 + s)) 5 0).Nodup then some 3
  else if (h.engine n).commit.isSome then some 4
  else if (h.engine n).st ≠ .normal then some 5
  else none

/-- SE_COMMIT written (R267, R268). -/
def Hub.commitRequest (h : Hub) (n w : Nat) : Hub :=
  if bits w 15 12 ≠ 0xC ∨ (¬ bit w 4 ∧ w % 16 = 0) then h
  else match h.commitCause n w with
    | some c => h.issue n 0x402 c w (if c = 1 then h.reg (eng n 0x51011) else 0)
    | none =>
      if (h.engine n).run.spen then h.modEng n fun e => { e with commit := some (BitVec.ofNat 16 w), bound := false }
      else (h.modEng n fun e => { e with commit := some (BitVec.ofNat 16 w), bound := false }).commitNow n 0

/-- A glide target written: at once while SPEN is 0 in force, else at the next tick (R273, R275). -/
def Hub.glideWrite (h : Hub) (n g target : Nat) : Hub :=
  let h := if (h.engine n).run.spen then (h.setReg (kGlide n g 1) target).modGlide n g fun gl => { gl with fresh := true }
    else h.glideSet n g target
  h.imageReg n (0x51040 + 8 * g + 1)

/-! ### SE_VCHK (R278) -/

/-- One byte into a CRC-16/CCITT register (R96). -/
def crcByte (crc b : Nat) : Nat :=
  iter 8 (fun _ c => if bit c 15 then (2 * c % 65536) ^^^ 0x1021 else 2 * c % 65536) (crc ^^^ (256 * b))

/-- CRC-16/CCITT over words, high byte first (R96). -/
def crcWords (ws : List Nat) : Nat := ws.foldl (fun c w => crcByte (crcByte c (w / 256)) (w % 256)) 0xFFFF

/-- The words that a check reads: those in error read as zero, and are counted (R278). -/
def Hub.vchkWords (h : Hub) (n mem start count : Nat) : List Nat × Nat :=
  let e := h.engine n
  let size := [32768, 32768, 16384, 1024].getD mem 1
  let as := (List.range count).map fun i => (start + i) % size
  let bad := fun a => e.ue.contains (mem, a)
  let ws := as.map fun a =>
    if bad a then (if mem = 0 then [0, 0] else [0])
    else match mem with
      | 0 => [(e.progWord a).toNat / 65536, (e.progWord a).toNat % 65536]
      | 1 => [(tget (fun _ => (0 : Word)) e.x a).toNat]
      | 2 => [(tget (fun _ => (0 : Word)) e.y a).toNat]
      | _ => [h.reg (kStage n (a / 256) (a % 256))]
  (ws.flatten, (as.filter bad).length)

/-- SE_VCHK_CMD written (R278). -/
def Hub.vchkStart (h : Hub) (n w : Nat) : Hub :=
  if w ≠ 1 ∨ bit (h.reg (eng n 0x51104)) 15 ∨ h.reg (eng n 0x51102) = 0 then h
  else h.setReg (eng n 0x51104) 0x8000

/-- The check completes (R278). -/
def Hub.vchkDone (h : Hub) (n : Nat) : Hub :=
  if ¬ bit (h.reg (eng n 0x51104)) 15 then h
  else
    let mem := h.reg (eng n 0x51100) % 4
    let (ws, bad) := h.vchkWords n mem (h.reg (eng n 0x51101)) (h.reg (eng n 0x51102))
    let bad := satN 0xFFFF bad
    let h := ((h.setReg (eng n 0x51104) 0x4000).setReg (eng n 0x51105) (crcWords ws)).setReg (eng n 0x51106) bad
    h.issue n 0x403 (crcWords ws) bad mem

/-! ### Spares (R168, R169) -/

/-- The word of physical engine `p` in the map of R181. -/
def kPe (p : Nat) : Nat := spc 0x3F (0x210 + p)
/-- The word of logical engine `n` in the map of R181. -/
def kMapSe (n : Nat) : Nat := spc 0x3F (0x200 + n)

/-- The physical engine that serves logical engine `n`. -/
def Hub.peOf (h : Hub) (n : Nat) : Nat := h.fld (kMapSe n) 3 0

/-- SPARE of every physical engine: it serves a reserved logical engine (R169). -/
def Hub.markSpares (h : Hub) : Hub :=
  iter 16 (fun p h => h.setFld (kPe p) 14 14 (b2n (bit (h.reg (kPe p)) 13 && h.reserved (h.fld (kPe p) 3 0)))) h

/-- Is a write of SE_SPARE refused (R169): a substitution is in progress from its declaration on (R609). -/
def Hub.spareRefused (h : Hub) (w : Nat) : Bool :=
  let old := h.reg 0x23
  let en := fun x k => bit x (8 * k + 7)
  let l := fun x k => bits x (8 * k + 3) (8 * k)
  let entry := fun k =>
    let newly := en w k && !h.reserved (l w k) && (bit (h.reg (kSe (l w k) 0x100)) 15 || (h.engine (l w k)).run.spen || (h.engine (l w k)).bgen)
    let release := en old k && bit old (8 * k + 6) && !(en w k && l w k == l old k)
    newly || release
  entry 0 || entry 1 || h.sub.active.isSome || !h.sub.waiting.isEmpty || (en w 0 && en w 1 && l w 0 == l w 1)

/-- SE_SPARE written (R169). SPARE_REFUSED comes from the lowest engine that the write would reserve (R176); DESIGN CHOICE where
it reserves none: the lower of the two SE fields (log entry 135). -/
def Hub.spareWrite (h : Hub) (w : Nat) : Hub :=
  if h.spareRefused w then
    let named := ((List.range 2).filter fun k => bit w (8 * k + 7)).map fun k => bits w (8 * k + 3) (8 * k)
    let src := if named.isEmpty then min (bits w 3 0) (bits w 11 8) else named.foldl min 15
    h.issue src 0x20B w 0 0
  else
    let old := h.reg 0x23
    let keep := flagAt (bit old 6 && bit w 7) 6 + flagAt (bit old 14 && bit w 15) 14
    (h.setReg 0x23 ((w &&& 0x8F8F) + keep)).markSpares

end Sys2Proof.Machine
end

