-- ==== Sys2Proof/Machine/Parse.lean ====
section
/-! DEFINITION. Parse.lean: the parse graph of the classifier, the field catalogue, and the port classes (R334 to R339,
R356). -/

namespace Sys2Proof.Machine

/-- Byte `i` of a frame. -/
def byteAt (b : List Byte) (i : Nat) : Nat := ((b[i]?).getD 0).toNat

/-- `k` bytes from `i` on as one number, most significant byte first. -/
def beAt (b : List Byte) (i : Nat) : Nat → Nat
  | 0 => 0
  | k + 1 => byteAt b i * 256 ^ k + beAt b (i + 1) k

/-- A number as `k` bytes, most significant first. -/
def beBytes (k n : Nat) : List Byte := (List.range k).map fun i => BitVec.ofNat 8 (n / 256 ^ (k - 1 - i))

/-- Internet checksum: the ones' complement sum of 16-bit words, a last odd byte padded with zero. -/
def inetSum (b : List Byte) : Nat :=
  let s := ((List.range ((b.length + 1) / 2)).map fun i => 256 * byteAt b (2 * i) + byteAt b (2 * i + 1)).sum
  iter 8 (fun _ s => s % 65536 + s / 65536) s

/-- A malformed frame with its cause. -/
def Parsed.fail (p : Parsed) (c : Nat) : Parsed := { p with bad := some c }

/-- A header of `k` bytes at `o` is parsed where it is complete. -/
def Parsed.head (p : Parsed) (b : List Byte) (o k : Nat) (f : Parsed → Parsed) : Parsed :=
  if b.length < o + k then p.fail 1 else f { p with last := o + k }

/-- Is an IPv4 source address one that no frame may carry (cause 11). -/
def badSrc4 (a : Nat) : Bool := a / 2 ^ 28 == 0xE || a / 2 ^ 24 == 127 || a == 0xFFFFFFFF
/-- Is an IPv6 source address one that no frame may carry (cause 11). -/
def badSrc6 (a : Nat) : Bool := a / 2 ^ 120 == 0xFF || a == 1

/-- The class of a UDP or TCP frame: the first valid entry that matches (R336). -/
def Hub.portClass (h : Hub) (tcp : Bool) (sport dport : Nat) : Nat :=
  let k := fun i w => h.eff (spc 0x09 (0xC0 + 4 * i + w))
  match firstBelow 16 fun i =>
      let c := k i 2
      let p := if bit c 14 then sport else dport
      bit c 15 && (bit c 13 == tcp) && decide (k i 0 ≤ p) && decide (p ≤ k i 1) with
  | some i => k i 2 % 256
  | none => 0

/-- The RTP header (R337). -/
def Parsed.rtpHead (p : Parsed) (b : List Byte) : Parsed :=
  let o := p.pay
  p.head b o 12 fun p =>
    let b0 := byteAt b o
    let cc := b0 % 16
    p.head b o (12 + 4 * cc) fun p =>
      let x := bit b0 4
      let fin := fun (p : Parsed) (e : Nat) =>
        if b0 / 64 ≠ 2 ∨ p.pay + p.payLen < e then p.fail 9
        else { p with rtp := true, ssrc := beAt b (o + 8) 4, rtppt := byteAt b (o + 1), seq := beAt b (o + 2) 2, ts := beAt b (o + 4) 4,
                      pad := bit b0 5, rtpPay := e }
      if x then p.head b o (16 + 4 * cc) fun p =>
        let e := o + 16 + 4 * cc + 4 * beAt b (o + 14 + 4 * cc) 2
        fin { p with last := e } e
      else fin p (o + 12 + 4 * cc)

/-- The transport header at `o` in an IP payload of `n` bytes (R334). -/
def Parsed.l4Head (p : Parsed) (h : Hub) (b : List Byte) (o n short : Nat) : Parsed :=
  match p.proto with
  | 17 =>
    if n < 8 then p.fail short
    else p.head b o 8 fun p =>
      let len := beAt b (o + 4) 2
      if len < 8 ∨ (¬ p.frag ∧ n < len) then p.fail 8
      else
        let p := { p with l4 := 17, l4At := o, sport := beAt b o 2, dport := beAt b (o + 2) 2, pay := o + 8, payLen := min len n - 8 }
        let p := { p with pclass := h.portClass false p.sport p.dport }
        if p.pclass = 1 then p.rtpHead b else p
  | 6 =>
    if n < 20 then p.fail short
    else p.head b o 20 fun p =>
      let off := byteAt b (o + 12) / 16
      if off < 5 then p.fail 8
      else { p with l4 := 6, l4At := o, sport := beAt b o 2, dport := beAt b (o + 2) 2, pay := o + 4 * off, payLen := n - 4 * off,
                    pclass := h.portClass true (beAt b o 2) (beAt b (o + 2) 2) }
  | 2 => if p.kind = 2 then (if n < 1 then p.fail short else p.head b o 1 fun p => { p with igmp := true }) else p
  | 58 =>
    if p.kind ≠ 3 then p
    else if n < 2 then p.fail short
    else p.head b o 2 fun p =>
      let ty := byteAt b o
      let p := { p with icmp := some ty }
      if ty = 135 ∨ ty = 136 then (if n < 24 then p.fail short else p.head b o 24 fun p => { p with target := beAt b (o + 8) 16 }) else p
  | _ => p

/-- What makes a fragment malformed by itself (cause 7). -/
def Parsed.fragCheck (p : Parsed) : Parsed :=
  if (p.more ∧ p.fragLen % 8 ≠ 0) ∨ 65535 < 8 * p.fragOff + p.fragLen then p.fail 7 else p

/-- The IPv4 header at `o` (R334, R356). -/
def Parsed.ip4 (p : Parsed) (h : Hub) (b : List Byte) (o : Nat) : Parsed :=
  p.head b o 20 fun p =>
    let ihl := byteAt b o % 16
    if byteAt b o / 16 ≠ 4 ∨ ihl < 5 then p.fail 2
    else p.head b o (4 * ihl) fun p =>
      let tl := beAt b (o + 2) 2
      let fr := beAt b (o + 6) 2
      let p := { p with kind := 2, l3 := o, proto := byteAt b (o + 9), tclass := byteAt b (o + 1), sip := beAt b (o + 12) 4,
                        dip := beAt b (o + 16) 4, options := decide (5 < ihl), more := bit fr 13, fragOff := fr % 8192,
                        frag := bit fr 13 || fr % 8192 != 0, ident := beAt b (o + 4) 2, fragLen := tl - 4 * ihl,
                        declared := some (o + tl + 4) }
      if tl < 4 * ihl then p.fail 2
      else if inetSum ((b.drop o).take (4 * ihl)) ≠ 0xFFFF then p.fail 3
      else if byteAt b (o + 8) = 0 then p.fail 13
      else if badSrc4 p.sip then p.fail 11
      else
        let p := if p.frag then p.fragCheck else p
        if p.bad.isSome ∨ p.fragOff ≠ 0 then p
        else p.l4Head h b (o + 4 * ihl) (tl - 4 * ihl) (if p.frag then 7 else 2)

/-- The IPv6 extension chain (R335): `k` headers may still follow; `n` bytes have been parsed, `pl` is the payload
length; `fragged` after a Fragment header. -/
def Parsed.chain (p : Parsed) (h : Hub) (b : List Byte) (o nh n pl : Nat) (first fragged : Bool) : Nat → Parsed
  | 0 => if nh = 0 ∨ nh = 43 ∨ nh = 44 ∨ nh = 60 ∨ nh = 51 then p.fail 5 else finish { p with proto := nh }
  | k + 1 =>
    if nh = 0 ∨ nh = 43 ∨ nh = 44 ∨ nh = 60 ∨ nh = 51 then
      if (nh = 0 ∧ ¬ first) ∨ (nh = 44 ∧ fragged) then p.fail 6
      else p.head b o 8 fun p =>
        let len := if nh = 44 then 8 else if nh = 51 then 4 * (byteAt b (o + 1) + 2) else 8 * (byteAt b (o + 1) + 1)
        if 128 < n + len then p.fail 5
        else if pl < n + len then p.fail 4
        else p.head b o len fun p =>
          let p := { p with ext := true }
          let nxt := byteAt b o
          if nh = 44 then
            let w := beAt b (o + 2) 2
            let p := { p with frag := bit w 0 || w / 8 != 0, more := bit w 0, fragOff := w / 8, ident := beAt b (o + 4) 4,
                              fragLen := pl - (n + len), proto := nxt }
            let p := if p.frag then p.fragCheck else p
            if p.bad.isSome ∨ p.fragOff ≠ 0 then p
            else Parsed.chain p h b (o + len) nxt (n + len) pl false true k
          else Parsed.chain p h b (o + len) nxt (n + len) pl false fragged k
    else finish { p with proto := nh }
where
  finish (p : Parsed) : Parsed := p.l4Head h b o (pl - n) (if p.frag then 7 else 4)

/-- The IPv6 header at `o` (R334, R356). -/
def Parsed.ip6 (p : Parsed) (h : Hub) (b : List Byte) (o : Nat) : Parsed :=
  p.head b o 40 fun p =>
    if byteAt b o / 16 ≠ 6 then p.fail 4
    else
      let pl := beAt b (o + 4) 2
      let p := { p with kind := 3, l3 := o, tclass := beAt b o 2 / 16 % 256, sip := beAt b (o + 8) 16, dip := beAt b (o + 24) 16,
                        declared := some (o + 40 + pl + 4) }
      if byteAt b (o + 7) = 0 then p.fail 13
      else if badSrc6 p.sip then p.fail 11
      else p.chain h b (o + 40) (byteAt b (o + 6)) 0 pl true false 4

/-- The ARP header at `o`: a request's target address. -/
def Parsed.arp (p : Parsed) (b : List Byte) (o : Nat) : Parsed :=
  p.head b o 28 fun p => { p with kind := 1, l3 := o, arpReq := beAt b (o + 6) 2 == 1, sip := beAt b (o + 14) 4, target := beAt b (o + 24) 4 }

/-- The EtherType at `o` and what it leads to. -/
def Parsed.network (p : Parsed) (h : Hub) (b : List Byte) (o : Nat) : Parsed :=
  p.head b o 2 fun p =>
    let ty := beAt b o 2
    let p := { p with etype := ty }
    if ty = 0x0806 then p.arp b (o + 2)
    else if ty = 0x0800 then p.ip4 h b (o + 2)
    else if ty = 0x86DD then p.ip6 h b (o + 2)
    else p

/-- The tags after the source address (R334). -/
def Parsed.tags (p : Parsed) (h : Hub) (b : List Byte) : Parsed :=
  let isTag := fun o => beAt b o 2 == 0x8100 || beAt b o 2 == 0x88A8
  p.head b 12 2 fun p =>
    if ! isTag 12 then p.network h b 12
    else p.head b 12 6 fun p =>
      let p := { p with tagged := true, ovid := beAt b 14 2 }
      if beAt b 16 2 = 0x88A8 then p.fail 0
      else if beAt b 16 2 ≠ 0x8100 then p.network h b 16
      else p.head b 16 6 fun p =>
        let p := { p with double := true, ivid := beAt b 18 2 }
        if isTag 20 then p.fail 0 else p.network h b 20

/-- A frame parsed; its last header must end within 256 bytes (R338). -/
def Hub.parse (h : Hub) (b : List Byte) : Parsed :=
  let p : Parsed := {}
  let p := p.head b 0 12 fun p =>
    let p := { p with dmac := beAt b 0 6, smac := beAt b 6 6 }
    if bit (byteAt b 6) 0 then p.fail 15 else p.tags h b
  if p.bad.isNone ∧ 256 < p.last then p.fail 14 else p

/-! ### Own addresses (R313, R314) -/

/-- Is `a` one of the unit's enabled IPv4 addresses. -/
def Hub.own4 (h : Hub) (a : Nat) : Bool :=
  (List.range 4).any fun i => bit (h.reg (spc 0x3F 0x540)) i && h.effN (spc 0x3F (0x510 + 2 * i)) 2 == a
/-- Is `a` one of the unit's enabled IPv6 addresses. -/
def Hub.own6 (h : Hub) (a : Nat) : Bool :=
  (List.range 4).any fun i => bit (h.reg (spc 0x3F 0x540)) (i + 4) && h.effN (spc 0x3F (0x520 + 8 * i)) 8 == a
/-- NET_MAC as a number, most significant byte first (R313). -/
def Hub.netMac (h : Hub) : Nat := h.regN (spc 0x3F 0x500) 3
/-- Is the IP destination an enabled own address. -/
def Hub.toOwn (h : Hub) (p : Parsed) : Bool := (p.kind == 2 && h.own4 p.dip) || (p.kind == 3 && h.own6 p.dip)

/-! ### The field catalogue (R339) -/

/-- FLAGS (R339). -/
def Hub.keyFlags (h : Hub) (p : Parsed) : Nat :=
  flagAt p.tagged 0 + flagAt p.double 1 + flagAt p.frag 2 + flagAt (p.frag && p.fragOff == 0) 3 + flagAt (bit (p.dmac / 2 ^ 40) 0) 4 +
    flagAt (p.dmac == 2 ^ 48 - 1) 5 + flagAt p.options 6 + flagAt p.ext 7 + flagAt (h.toOwn p) 8 + flagAt (p.dmac == h.netMac) 9

/-- Width and value of a key field; none for an undefined field ID. -/
def Hub.field (h : Hub) (p : Parsed) (port phit pass tag : Nat) (id : Nat) : Option (Nat × Nat) :=
  match id with
  | 1 => some (8, port)
  | 2 => some (48, p.dmac)
  | 3 => some (48, p.smac)
  | 4 => some (16, p.ovid)
  | 5 => some (16, p.ivid)
  | 6 => some (16, p.etype)
  | 7 => some (8, p.kind)
  | 8 => some (8, p.proto)
  | 9 => some (8, p.tclass)
  | 10 => some (32, if p.kind = 2 then p.sip else 0)
  | 11 => some (32, if p.kind = 2 then p.dip else 0)
  | 12 => some (128, if p.kind = 3 then p.sip else 0)
  | 13 => some (128, if p.kind = 3 then p.dip else 0)
  | 14 => some (16, p.sport)
  | 15 => some (16, p.dport)
  | 16 => some (8, p.pclass)
  | 17 => some (32, p.ssrc)
  | 18 => some (8, p.rtppt)
  | 19 => some (8, phit)
  | 20 => some (8, pass)
  | 21 => some (16, tag)
  | 22 => some (16, h.keyFlags p)
  | _ => none

/-! ### PTP messages (R315, R324) -/

/-- Where the PTP message of a frame begins, its type and its key for the transparent clock; none where the frame holds
no PTP message over UDP. -/
structure PtpView where
  o : Nat
  kind : Nat
  twoStep : Bool
  dom : Byte
  ident : BitVec 80
  seq : Word
deriving DecidableEq, Repr

/-- The PTP message of a frame. -/
def ptpView (b : List Byte) (f : Parsed) : Option PtpView :=
  if f.bad.isNone ∧ f.l4 = 17 ∧ (f.dport = 319 ∨ f.dport = 320) ∧ 34 ≤ f.payLen then
    let o := f.pay
    some { o := o, kind := byteAt b o % 16, twoStep := bit (byteAt b (o + 6)) 1, dom := BitVec.ofNat 8 (byteAt b (o + 4)),
           ident := BitVec.ofNat 80 (beAt b (o + 20) 10), seq := BitVec.ofNat 16 (beAt b (o + 30) 2) }
  else none

/-- A one-step Sync or a Delay_Req, whose correctionField takes the residence itself. -/
def PtpView.oneStep (v : PtpView) (f : Parsed) : Bool := f.dport == 319 && ((v.kind == 0 && !v.twoStep) || v.kind == 1)
/-- A two-step Sync. -/
def PtpView.sync2 (v : PtpView) (f : Parsed) : Bool := f.dport == 319 && v.kind == 0 && v.twoStep
/-- A Follow_Up. -/
def PtpView.followUp (v : PtpView) (f : Parsed) : Bool := f.dport == 320 && v.kind == 8

/-- The sender of a frame, with the frame's tags. -/
def peerOf (b : List Byte) (f : Parsed) : NetPeer :=
  { v6 := f.kind == 3, addr := f.sip, mac := BitVec.ofNat 48 f.smac, tags := (b.drop 12).take (4 * (b2n f.tagged + b2n f.double)) }

end Sys2Proof.Machine
end

