-- ==== Sys2Proof/Machine/Crypto.lean ====
section
/-! DEFINITION. Crypto.lean: the transforms that the spec names by their standards: AES-CM-128 and HMAC-SHA1 of SRTP
(R378, R383, RFC 3711), and SHA-256 and Ed25519 of the boot images (R597, FIPS 180-4, RFC 8032). The standards' own
definitions are PRESUMED (log 139). -/

namespace Sys2Proof.Machine

/-! ### AES-128 (FIPS 197) -/

/-- The product by x in GF(2^8). -/
def gfDouble (a : Byte) : Byte := (a <<< 1) ^^^ (if a.getLsbD 7 then 0x1B else 0)

/-- The product in GF(2^8). -/
def gfMul (a b : Byte) : Byte :=
  (iter 8 (fun i (s : Byte × Byte) => (if b.getLsbD i then s.1 ^^^ s.2 else s.1, gfDouble s.2)) ((0 : Byte), a)).1

/-- The inverse a^254; 0 for 0. -/
def gfInv (a : Byte) : Byte :=
  (iter 7 (fun _ (s : Byte × Byte) => let q := gfMul s.2 s.2; (gfMul s.1 q, q)) ((1 : Byte), a)).1

/-- The substitution of a byte. -/
def aesSub (a : Byte) : Byte :=
  let b := gfInv a
  b ^^^ b.rotateLeft 1 ^^^ b.rotateLeft 2 ^^^ b.rotateLeft 3 ^^^ b.rotateLeft 4 ^^^ 0x63

/-- Two lists of bytes combined. -/
def xorBytes (a b : List Byte) : List Byte := List.zipWith (fun x y => x ^^^ y) a b

/-- The next round key of 16 bytes, with the round constant. -/
def aesNextKey (k : List Byte) (rc : Byte) : List Byte :=
  let g := match (k.drop 12).map aesSub with
    | [a, b, c, d] => [b ^^^ rc, c, d, a]
    | l => l
  let w0 := xorBytes (k.take 4) g
  let w1 := xorBytes ((k.drop 4).take 4) w0
  let w2 := xorBytes ((k.drop 8).take 4) w1
  w0 ++ w1 ++ w2 ++ xorBytes (k.drop 12) w2

/-- The rows of the state shifted; the state stands column by column. -/
def aesShift (s : List Byte) : List Byte := (List.range 16).map fun i => lget 0 s ((i + 4 * (i % 4)) % 16)

/-- The columns of the state mixed. -/
def aesMix (s : List Byte) : List Byte :=
  (List.range 16).map fun i =>
    let at_ := fun j => lget 0 s (4 * (i / 4) + (i + j) % 4)
    gfDouble (at_ 0) ^^^ (gfDouble (at_ 1) ^^^ at_ 1) ^^^ at_ 2 ^^^ at_ 3

/-- A block of 16 bytes under a key of 16 bytes. -/
def aesBlock (key b : List Byte) : List Byte :=
  let r := iter 10 (fun i (s : List Byte × List Byte × Byte) =>
    let k := aesNextKey s.2.1 s.2.2
    let x := aesShift (s.1.map aesSub)
    (xorBytes (if i = 9 then x else aesMix x) k, k, gfDouble s.2.2)) (xorBytes b key, key, (1 : Byte))
  r.1

/-- `n` words from word `i` of a key set, the last the most significant (R113, R405), as bytes. -/
def keyBytes (keys : List Word) (i n : Nat) : List Byte := ((keys.drop i).take n).reverse.flatMap fun w => beBytes 2 w.toNat

/-- `n` bytes of the AES-CM-128 keystream of a key set, an SSRC and a packet index (RFC 3711, section 4.1.1). -/
def keystream (keys : List Word) (ssrc index n : Nat) : List Byte :=
  let iv := (beAt (keyBytes keys 8 7) 0 14 * 2 ^ 16) ^^^ (ssrc * 2 ^ 64) ^^^ (index * 2 ^ 16)
  ((List.range ((n + 15) / 16)).flatMap fun j => aesBlock (keyBytes keys 0 8) (beBytes 16 ((iv + j) % 2 ^ 128))).take n

/-! ### The secure hashes (FIPS 180-4) -/

/-- A message padded to blocks of `n` bytes with its length in `n / 8` bytes. -/
def shaPad (n : Nat) (m : List Byte) : List Byte :=
  let z := (2 * n - 1 - n / 8 - m.length % n) % n
  m ++ [0x80] ++ List.replicate z 0 ++ beBytes (n / 8) (8 * m.length)

/-- The blocks of `n` bytes of a message. -/
def blocks (n : Nat) (m : List Byte) : List (List Byte) := (List.range (m.length / n)).map fun i => (m.drop (n * i)).take n

/-- The schedule of a block of SHA-1. -/
def sha1Words (b : List Byte) : List (BitVec 32) :=
  iter 64 (fun i w =>
    let g := fun j => lget 0 w (i + 16 - j)
    w ++ [(g 3 ^^^ g 8 ^^^ g 14 ^^^ g 16).rotateLeft 1]) ((List.range 16).map fun i => BitVec.ofNat 32 (beAt b (4 * i) 4))

/-- A block taken into the five words of SHA-1. -/
def sha1Block (h : List (BitVec 32)) (b : List Byte) : List (BitVec 32) :=
  let w := sha1Words b
  let s := iter 80 (fun t s => match s with
    | [a, b, c, d, e] =>
      let f := if t < 20 then (b &&& c) ^^^ (~~~b &&& d) else if t < 40 ∨ 60 ≤ t then b ^^^ c ^^^ d else (b &&& c) ^^^ (b &&& d) ^^^ (c &&& d)
      let k : BitVec 32 := if t < 20 then 0x5A827999 else if t < 40 then 0x6ED9EBA1 else if t < 60 then 0x8F1BBCDC else 0xCA62C1D6
      [a.rotateLeft 5 + f + e + k + lget 0 w t, a, b.rotateLeft 30, c, d]
    | s => s) h
  List.zipWith (· + ·) h s

/-- SHA-1. -/
def sha1 (m : List Byte) : List Byte :=
  ((blocks 64 (shaPad 64 m)).foldl sha1Block [0x67452301, 0xEFCDAB89, 0x98BADCFE, 0x10325476, 0xC3D2E1F0]).flatMap fun w => beBytes 4 w.toNat

/-- HMAC-SHA1 (RFC 2104) under a key of at most 64 bytes. -/
def hmacSha1 (key m : List Byte) : List Byte :=
  let k := key ++ List.replicate (64 - key.length) 0
  sha1 (k.map (· ^^^ 0x5C) ++ sha1 (k.map (· ^^^ 0x36) ++ m))

/-- The tag of an authenticated portion and a ROC under a key set, as its first `n` bytes (RFC 3711, section 4.2). -/
def authTag (keys : List Word) (m : List Byte) (roc n : Nat) : List Byte := (hmacSha1 (keyBytes keys 15 10) (m ++ beBytes 4 roc)).take n

/-- The first 80 primes. -/
def primes : List Nat := (List.range 410).filter fun n => decide (2 ≤ n) && (List.range n).all fun d => decide (d < 2) || n % d != 0

/-- The whole part of the `k`th root of `n`, below 2^72. -/
def iroot (k n : Nat) : Nat := iter 72 (fun i r => if (r + 2 ^ (71 - i)) ^ k ≤ n then r + 2 ^ (71 - i) else r) 0

/-- The first `w` bits of the fraction of the `k`th root of the prime number `i`. -/
def shaConst (k w i : Nat) : Nat := iroot k (lget 0 primes i * 2 ^ (k * w)) % 2 ^ w

/-- The rotations and shifts of the SHA-2 functions: big sigma 0 and 1, small sigma 0 and 1. -/
def shaRot (w : Nat) : List Nat := if w = 32 then [2, 13, 22, 6, 11, 25, 7, 18, 3, 17, 19, 10] else [28, 34, 39, 14, 18, 41, 1, 8, 7, 19, 61, 6]

/-- SHA-2 with words of `w` bits and `n` rounds: SHA-256 with 32 and 64, SHA-512 with 64 and 80. -/
def sha2 (w n : Nat) (m : List Byte) : List Byte :=
  let r := fun i => lget 0 (shaRot w) i
  let big := fun i (x : BitVec w) => x.rotateRight (r i) ^^^ x.rotateRight (r (i + 1)) ^^^ x.rotateRight (r (i + 2))
  let small := fun i (x : BitVec w) => x.rotateRight (r i) ^^^ x.rotateRight (r (i + 1)) ^^^ (x >>> r (i + 2))
  let ks := (List.range n).map fun i => BitVec.ofNat w (shaConst 3 w i)
  let one := fun (h : List (BitVec w)) (b : List Byte) =>
    let sched := iter (n - 16) (fun i l =>
      let g := fun j => lget 0 l (i + 16 - j)
      l ++ [small 9 (g 2) + g 7 + small 6 (g 15) + g 16]) ((List.range 16).map fun i => BitVec.ofNat w (beAt b (w / 8 * i) (w / 8)))
    let s := iter n (fun t s => match s with
      | [a, b, c, d, e, f, g, h] =>
        let t1 := h + big 3 e + ((e &&& f) ^^^ (~~~e &&& g)) + lget 0 ks t + lget 0 sched t
        [t1 + big 0 a + ((a &&& b) ^^^ (a &&& c) ^^^ (b &&& c)), a, b, c, d + t1, e, f, g]
      | s => s) h
    List.zipWith (· + ·) h s
  ((blocks (2 * w) (shaPad (2 * w) m)).foldl one ((List.range 8).map fun i => BitVec.ofNat w (shaConst 2 w i))).flatMap fun x => beBytes (w / 8) x.toNat

/-- SHA-256. -/
def sha256 (m : List Byte) : List Byte := sha2 32 64 m

/-! ### Ed25519 (RFC 8032) -/

/-- The field's prime and the order of the base point. -/
def edP : Nat := 2 ^ 255 - 19
def edL : Nat := 2 ^ 252 + 27742317777372353535851937790883648493

/-- b^e in the field, for e below 2^256. -/
def edPow (b e : Nat) : Nat := iter 256 (fun i r => if bit e (255 - i) then r * r % edP * b % edP else r * r % edP) 1

/-- The curve's constant d = -121665/121666, and a square root of -1. -/
def edD : Nat := (edP - 121665) * edPow 121666 (edP - 2) % edP
def edI : Nat := edPow 2 ((edP - 1) / 4)

/-- A point as X, Y, Z and T with x = X/Z, y = Y/Z and xy = T/Z. -/
structure EdPoint where
  x : Nat
  y : Nat
  z : Nat
  t : Nat
deriving DecidableEq, Repr

/-- The sum of two points. -/
def EdPoint.add (p q : EdPoint) : EdPoint :=
  let a := (p.y + edP - p.x) * (q.y + edP - q.x) % edP
  let b := (p.y + p.x) * (q.y + q.x) % edP
  let c := p.t * 2 * edD % edP * q.t % edP
  let d := p.z * 2 * q.z % edP
  let e := b + edP - a
  let f := d + edP - c
  let g := d + c
  let h := b + a
  { x := e * f % edP, y := g * h % edP, z := f * g % edP, t := e * h % edP }

/-- n times a point, for n below 2^512. -/
def EdPoint.mul (p : EdPoint) (n : Nat) : EdPoint :=
  iter 512 (fun i r => if bit n (511 - i) then (r.add r).add p else r.add r) { x := 0, y := 1, z := 1, t := 0 }

/-- Do two points agree. -/
def EdPoint.same (p q : EdPoint) : Bool := p.x * q.z % edP == q.x * p.z % edP && p.y * q.z % edP == q.y * p.z % edP

/-- A number as 32 bytes holds it, least significant first. -/
def leAt (b : List Byte) : Nat := beAt b.reverse 0 b.length

/-- The point of 32 bytes, if they spell one. -/
def edDecode (b : List Byte) : Option EdPoint :=
  let n := leAt b
  let y := n % 2 ^ 255
  let u := (y * y + edP - 1) % edP
  let v := (edD * (y * y) + 1) % edP
  let x := u * edPow v 3 % edP * edPow (u * edPow v 7 % edP) ((edP - 5) / 8) % edP
  let w := v * (x * x) % edP
  let root := if w = u then some x else if w = (edP - u) % edP then some (x * edI % edP) else none
  if edP ≤ y then none
  else match root with
    | none => none
    | some x =>
      let odd := bit n 255
      if x = 0 ∧ odd then none
      else
        let x := if bit x 0 = odd then x else edP - x
        some { x := x, y := y, z := 1, t := x * y % edP }

/-- The base point: y = 4/5 and x even. -/
def edBase : Option EdPoint := edDecode (beBytes 32 (4 * edPow 5 (edP - 2) % edP)).reverse

/-- Does a signature of 64 bytes verify by a public key of 32 bytes over a message. -/
def ed25519 (key sig m : List Byte) : Bool :=
  match edBase, edDecode key, edDecode (sig.take 32) with
  | some b, some a, some r =>
    let s := leAt (sig.drop 32)
    let k := leAt (sha2 64 80 (sig.take 32 ++ key ++ m)) % edL
    sig.length == 64 && key.length == 32 && decide (s < edL) && ((b.mul s).mul 8).same ((r.add (a.mul k)).mul 8)
  | _, _, _ => false

end Sys2Proof.Machine
end

