-- ==== Sys2Proof/Machine/Queue.lean ====
section
/-! DEFINITION. Queue.lean: queue bindings, cells, admission to a queue, spreading over host rings, host rings and host
transmit rings (R366 to R377). -/

namespace Sys2Proof.Machine

/-- A word of the queue space. -/
def kQue (o : Nat) : Nat := spc 0x0A o

/-! ### Bindings (R367, R371) -/

/-- KIND of a queue's binding: 0 unbound, 1 port transmit, 2 host receive ring, 3 receive context, 4 recirculation. -/
def Hub.qKind (h : Hub) (q : Nat) : Nat := h.fld (kQue (4 * q)) 15 12
/-- TARGET of a queue's binding. -/
def Hub.qTarget (h : Hub) (q : Nat) : Nat := h.fld (kQue (4 * q)) 7 0
/-- PRIO of a queue (R370). -/
def Hub.qPrio (h : Hub) (q : Nat) : Nat := h.fld (kQue (4 * q + 1)) 15 13
/-- The default transmit queue of a port (R371). -/
def Hub.defTx (h : Hub) (p : Nat) : Nat := h.fld (kQue (0x3282 + p)) 9 0

/-- The frames that wait in a queue. -/
def Hub.queue (h : Hub) (q : Nat) : List QFrame := tget (fun _ => []) h.net.queues q

/-- A queue's frames changed. -/
def Hub.modQueue (h : Hub) (q : Nat) (f : List QFrame → List QFrame) : Hub :=
  { h with net := { h.net with queues := tput (fun _ => []) h.net.queues q (f (h.queue q)) } }

/-- The queues that the copies and the primary of a frame in flight have reserved cells in, besides a stored frame's. -/
def Fly.reserved (f : Fly) : List Nat :=
  (match f.primary with
    | .cut q _ _ => [q]
    | .host q => [q]
    | _ => []) ++ f.copies.map (·.1) ++ (if f.recirc = 0 then [] else [f.recirc])

/-- Cells a queue uses (R369). -/
def Hub.cellsOf (h : Hub) (q : Nat) : Nat :=
  ((h.queue q).map (·.cells)).sum + (h.net.fly.map fun f => (f.reserved.filter (· == q)).length * f.cells).sum

/-- Frames a queue holds. -/
def Hub.framesOf (h : Hub) (q : Nat) : Nat :=
  (h.queue q).length + (h.net.fly.map fun f => (f.reserved.filter (· == q)).length).sum

/-- Frame-pool cells in use (R366): frames in queues and in flight, and standby frames of contexts (R385). -/
def Hub.poolUsed (h : Hub) : Nat :=
  (h.net.queues.map fun e => (e.2.map (·.cells)).sum).sum + (h.net.fly.map fun f => f.reserved.length * f.cells).sum +
    (h.net.ctx.map fun e => (e.2.frames.map fun r => if r.standby then r.cells else 0).sum).sum

/-- Cells of a frame of `n` bytes with its FCS. -/
def cellsFor (n : Nat) : Nat := ceilDiv n 256

/-- Why a queue drops a frame: 1 a limit of the queue, 2 the pool (R369). -/
def Hub.dropCause (h : Hub) (q cells : Nat) : Option Nat :=
  if h.fld (kQue (4 * q + 1)) 12 0 < h.cellsOf q + cells ∨ h.fld (kQue (4 * q + 2)) 9 0 ≤ h.framesOf q then some 1
  else if 8192 < h.poolUsed + cells then some 2
  else none

/-- A queue drops a frame. -/
def Hub.queueDrop (h : Hub) (q cause : Nat) : Hub :=
  ((h.addSat (kQue (0x1003 + 8 * q)) 2 1).setFlag (kQue 0x32E1)).issueLimited q 84 1 q cause 0

/-- A frame offered to a queue: admitted and counted, or dropped. -/
def Hub.offer (h : Hub) (q cells : Nat) : Hub × Bool :=
  match h.dropCause q cells with
  | some c => (h.queueDrop q c, false)
  | none => (h.addWrap (kQue (0x1000 + 8 * q)) 3 1, true)

/-- A frame that the hub originates offered to a queue; one shorter than 60 bytes is padded with zeros. DESIGN CHOICE (log 140):
a queue that no longer is bound to a port transmitter takes none, since R367 gives it no frames to hold. -/
def Hub.sendFrom (h : Hub) (q port : Nat) (b : List Byte) : Hub :=
  let b := b ++ List.replicate (60 - b.length) 0
  let n := cellsFor (b.length + 4)
  if h.qKind q ≠ 1 then h
  else match h.offer q n with
    | (h, false) => h
    | (h, true) => h.modQueue q fun l => l ++ [{ bytes := b, port := port, stamp := h.stamp, cells := n }]

/-- A frame from a host transmit ring, a stream context, telemetry, the responder or the tunnel. -/
def Hub.sendFrame (h : Hub) (q : Nat) (b : List Byte) : Hub := h.sendFrom q 2 b

/-- Does a queue hold frames (R367). -/
def Hub.holdsFrames (h : Hub) (q : Nat) : Bool := h.framesOf q != 0

/-- A write of a binding (R367); a KIND or TARGET that R367 does not list is ignored (R617). -/
def Hub.bindQueue (h : Hub) (q w : Nat) : Hub :=
  let w := bits w 15 12 * 4096 + bits w 7 0
  let old := h.reg (kQue (4 * q))
  let k := bits w 15 12
  if w = old then h
  else if 1020 ≤ q ∨ k = 4 ∨ h.holdsFrames q ∨ q = h.defTx 0 ∨ q = h.defTx 1 then h.failWin 3 (4 * q)
  else if 4 < k ∨ (k = 1 ∧ 1 < bits w 7 0) ∨ (k = 2 ∧ 15 < bits w 7 0) then h
  else h.setReg (kQue (4 * q)) w

/-- A write of QUE_DEFTXp (R371). -/
def Hub.setDefTx (h : Hub) (p q : Nat) : Hub :=
  if h.qKind q = 1 ∧ h.qTarget q = p then h.setReg (kQue (0x3282 + p)) q else h.failWin 3 (0x3282 + p)

/-! ### Spreading to host rings (R374) -/

/-- The bytes that a group's hash covers. -/
def hashBytes (p : Parsed) (port hsel : Nat) : List Byte :=
  (if bit hsel 0 then beBytes 1 port else []) ++ (if bit hsel 1 then beBytes 16 p.sip else []) ++
    (if bit hsel 2 then beBytes 16 p.dip else []) ++ (if bit hsel 3 then beBytes 1 p.proto else []) ++
    (if bit hsel 4 then beBytes 2 p.sport else []) ++ (if bit hsel 5 then beBytes 2 p.dport else []) ++
    (if bit hsel 6 then beBytes 4 p.ssrc else [])

/-- The addresses that a hash sees: only those of IP headers. -/
def Parsed.ipOnly (p : Parsed) : Parsed := if p.kind = 2 ∨ p.kind = 3 then p else { p with sip := 0, dip := 0 }

/-- The queue of group `g` that a frame goes to; none where the entry is invalid or its member is no host queue. -/
def Hub.spread (h : Hub) (g port : Nat) (p : Parsed) : Option Nat :=
  let gw := h.reg (kQue (0x3200 + 2 * g))
  let hash := crcBytes 32 0x1EDC6F41 (h.effN (kQue 0x3280) 2) (hashBytes p.ipOnly port (h.fld (kQue (0x3201 + 2 * g)) 6 0))
  let i := h.reg (kQue (0x3000 + (bits gw 8 0 + hash % 2 ^ bits gw 12 9) % 512))
  let q := 16 * g + bits i 3 0
  if bit i 15 ∧ h.qKind q = 2 then some q else none

/-- The host queue that a queue or group number names. -/
def Hub.hostQueue (h : Hub) (grp : Bool) (q port : Nat) (p : Parsed) : Option Nat :=
  if grp then h.spread (q % 64) port p else if h.qKind q = 2 then some q else none

/-- The queue that one of CLS_MIRQ, CLS_SYSQ, CLS_MALQ, CLS_FRAGQ names: one that holds frames; none where its EN is 0
or where it names no such queue (R352). -/
def Hub.fixQueue (h : Hub) (i port : Nat) (p : Parsed) : Option Nat :=
  let w := h.reg (spc 0x09 (0x110 + i))
  if ! bit w 15 then none
  else if bit w 14 then h.spread (bits w 5 0) port p
  else if h.qKind (bits w 9 0) = 2 ∨ h.qKind (bits w 9 0) = 1 then some (bits w 9 0)
  else none

/-! ### Host rings (R376) -/

/-- The queues of a kind and target that satisfy a test, lowest number first. -/
def Hub.boundQueues (h : Hub) (kind target : Nat) (p : Nat → Bool) : List Nat :=
  (h.net.queues.map (·.1)).filter fun q => h.qKind q == kind && h.qTarget q == target && p q

/-- The next of the queues `qs` of a server by strict priority; queues of equal priority take turns (R370). Servers 0 and 1 are
the port transmitters, 2 + r host receive ring r. -/
def Hub.nextQueue (h : Hub) (qs : List Nat) (server : Nat) : Option Nat :=
  let top := (qs.map h.qPrio).foldl max 0
  let l := qs.filter fun q => h.qPrio q == top
  (l.find? fun q => decide (tget (fun _ => 0) h.net.turn (8 * server + top) < q)).orElse fun _ => l.head?

/-- A server has served queue `q`: the turn of its priority. -/
def Hub.served (h : Hub) (server q : Nat) : Hub :=
  { h with net := { h.net with turn := tput (fun _ => 0) h.net.turn (8 * server + h.qPrio q) q } }

/-- Frames that wait in a host receive ring. -/
def Hub.ringFill (h : Hub) (r : Nat) : Nat := ((h.boundQueues 2 r fun _ => true).map fun q => (h.queue q).length).sum

/-- The ring takes its head frame, if it has none and one waits. -/
def Hub.ringHead (h : Hub) (r : Nat) : Hub :=
  match tget (fun _ => none) h.net.heads r with
  | some _ => h
  | none =>
    match h.nextQueue (h.boundQueues 2 r fun q => !(h.queue q).isEmpty) (2 + r) with
    | none => h
    | some q =>
      let h := h.served (2 + r) q
      { h with net := { h.net with heads := tput (fun _ => none) h.net.heads r (some q) } }

/-- The head frame of a ring with its queue. -/
def Hub.ringFrame (h : Hub) (r : Nat) : Option (Nat × QFrame) :=
  match tget (fun _ => none) h.net.heads r with
  | none => none
  | some q => (h.queue q).head?.map fun f => (q, f)

/-- A frame enters a host queue: it waits in its ring, and RING_READY is raised (R402). -/
def Hub.hostCopy (h : Hub) (q : Nat) (f : QFrame) : Hub :=
  let h := h.modQueue q fun l => l ++ [f]
  if h.qKind q = 2 then
    let r := h.qTarget q
    let h := h.ringHead r
    h.issueLimited r (64 + r) 1 (h.ringFill r) ((tget (fun _ => none) h.net.heads r).getD 0) 0
  else h

/-- RXREL: 1 releases the head frame (R376). -/
def Hub.rxRelease (h : Hub) (r w : Nat) : Hub :=
  if w ≠ 1 then h
  else match tget (fun _ => none) h.net.heads r with
    | none => h
    | some q =>
      let h := h.modQueue q List.tail
      ({ h with net := { h.net with heads := tput (fun _ => none) h.net.heads r none } }).ringHead r

/-- Word `i` of the presentation of a ring's head frame, bytes 2i and 2i + 1 (R404). -/
def Hub.ringWord (h : Hub) (r o : Nat) : Nat :=
  if o = 0 then h.ringFill r
  else match h.ringFrame r with
    | none => 0
    | some (q, f) =>
      match o with
      | 1 => f.bytes.length
      | 2 => f.kind * 4096 + q
      | 3 => if f.port = 1 then 1 else 0
      | 4 => f.stamp.toNat % 65536
      | 5 => f.stamp.toNat / 65536
      | _ => if 0x10 ≤ o then 256 * byteAt f.bytes (2 * (o - 0x10)) + byteAt f.bytes (2 * (o - 0x10) + 1) else 0

/-! ### Host transmit rings (R377) -/

/-- A word of host transmit ring `t`. -/
def kTx (t o : Nat) : Nat := kQue (0xC000 + 0x400 * t + o)

/-- What a busy transmit ring sends. -/
def Hub.txBusy (h : Hub) (t : Nat) : Option (Nat × List Byte) := tget (fun _ => none) h.net.txBusy t

/-- Bytes 0 to n - 1 of a sequence of words, the high byte of each first. -/
def wordsBytes (w : Nat → Nat) (n : Nat) : List Byte := (List.range n).map fun i => BitVec.ofNat 8 (if i % 2 = 0 then w (i / 2) / 256 else w (i / 2))

/-- Bytes 0 to n - 1 of the register words at `k`. -/
def Hub.wordBytes (h : Hub) (k n : Nat) : List Byte := wordsBytes (fun i => h.reg (k + i)) n

/-- A write of TXSEND: the staged frame is sent, or the send is refused (R377). -/
def Hub.txSend (h : Hub) (t len : Nat) : Hub :=
  let q := h.fld (kTx t 1) 9 0
  if (h.txBusy t).isSome then h.failWin 3 (0xC002 + 0x400 * t)
  else if len = 0 ∨ 1996 < len then h.issue 87 1 t 1 q
  else if h.qKind q ≠ 1 then h.issue 87 1 t 2 q
  else { h with net := { h.net with txBusy := tput (fun _ => none) h.net.txBusy t (some (q, h.wordBytes (kTx t 0x10) len)) } }

/-- The padded frame is offered to TXDEST, and BUSY clears (R377). -/
def Hub.txSendDone (h : Hub) (t : Nat) : Hub :=
  match h.txBusy t with
  | none => h
  | some (q, b) => ({ h with net := { h.net with txBusy := tput (fun _ => none) h.net.txBusy t none } }).sendFrame q b

end Sys2Proof.Machine
end

