-- ==== Sys2Proof/Machine/Stream.lean ====
section
/-! DEFINITION. Stream.lean: stream contexts, integrity lanes, speculative admission, confirmation and rejection,
playout and transmit (R378 to R393). -/

namespace Sys2Proof.Machine

/-- Word `o` of stream context `c` (R405). -/
def str (c o : Nat) : Nat := spc 0x0B (0x100 * c + o)

/-- Context `c`. -/
def Hub.ctxOf (h : Hub) (c : Nat) : Ctx := tget (fun _ => {}) h.net.ctx c

/-- Context `c` changed. -/
def Hub.modCtx (h : Hub) (c : Nat) (f : Ctx → Ctx) : Hub :=
  { h with net := { h.net with ctx := tput (fun _ => {}) h.net.ctx c (f (h.ctxOf c)) } }

/-- Counter `j` of context `c`. -/
def Hub.strCnt (h : Hub) (c j n : Nat) : Hub := h.addSat (str c (0x80 + 2 * j)) 2 n

/-- The settings of word 0x00 in force: those with which the context started (R384). -/
def Hub.strCtl (h : Hub) (c : Nat) : Nat := h.eff (str c 0)

/-- Channels, bytes per sample, tag length, buffer length and SPP by the settings `w` of word 0x00. -/
def Hub.strChans (_ : Hub) (w : Nat) : Nat := bits w 2 0 + 1
def strBytes (w : Nat) : Nat := if bit w 9 then 3 else 2
def strTag (w : Nat) : Nat := if bit w 11 then (if bit w 10 then 4 else 10) else 0

/-- A field of word `o` of the settings in force: those with which the context started (R384). -/
def Hub.strSet (h : Hub) (c o hi lo : Nat) : Nat := bits (h.eff (str c o)) hi lo
def Hub.strBuf (h : Hub) (c : Nat) : Nat := 256 * 2 ^ h.strSet c 7 2 0
def Hub.strSpp (h : Hub) (c : Nat) : Nat := h.strSet c 2 7 0

/-- The tick counter of the context's domain. -/
def Hub.strCounter (h : Hub) (c : Nat) : BitVec 32 := (h.dom (bits (h.strCtl c) 13 12)).tick

/-- Is context `c` enabled for receive. -/
def Hub.strReceives (h : Hub) (c : Nat) : Bool := (h.ctxOf c).run && !bit (h.strCtl c) 14

/-- TYPE of a context's slots (R465). -/
def strType (tx : Bool) : Nat := if tx then 8 else 4

/-! ### Enable and disable (R384) -/

/-- First and last byte of a buffer in the stream pool, by words 0x00, 0x06 and 0x07. -/
def Hub.spanOf (h : Hub) (w base len : Nat) : Nat × Nat :=
  let a := 4096 * bits base 8 0
  (a, a + 256 * 2 ^ bits len 2 0 * h.strChans w * 4)

/-- The buffer of a context as it is written. -/
def Hub.strSpan (h : Hub) (c : Nat) : Nat × Nat := h.spanOf (h.reg (str c 0)) (h.reg (str c 6)) (h.reg (str c 7))

/-- Does another receive context hold a part of the pool from `a` to `b`: one whose EN is written, or one that runs until the
next tick of its domain. -/
def Hub.poolTaken (h : Hub) (c a b : Nat) : Bool :=
  (List.range 256).any fun x =>
    let meets := fun (s : Nat × Nat) => decide (a < s.2) && decide (s.1 < b)
    x != c && ((bit (h.reg (str x 0)) 15 && !bit (h.reg (str x 0)) 14 && meets (h.strSpan x)) ||
      (h.strReceives x && meets (h.spanOf (h.strCtl x) (h.eff (str x 6)) (h.eff (str x 7)))))

/-- Why an enable is refused. -/
def Hub.strCause (h : Hub) (c w : Nat) : Option Nat :=
  let tx := bit w 14
  let n := h.strChans w
  let (a, b) := h.strSpan c
  let d := bits w 13 12
  let slotOk := fun i =>
    let s := h.fld (str c 1) 8 0 + i
    decide (s < 512) && h.slotIs s (strType tx) (c * 8 + i) && h.slotDom s == d
  let q := h.fld (str c 13) 9 0
  let spp := h.fld (str c 2) 7 0
  if 1800 < n * spp * strBytes w then some 1
  else if ¬ tx ∧ (2 ^ 21 < b ∨ h.poolTaken c a b) then some 2
  else if ¬ tx ∧ 256 * 2 ^ h.fld (str c 7) 2 0 < h.fld (str c 8) 12 0 + spp then some 3
  else if ¬ (List.range n).all slotOk ∨ ¬ (h.dom d).en then some 4
  else if tx ∧ h.qKind q ≠ 1 then some 5
  else if bit w 11 ∧ ¬ (h.ctxOf c).keyv then some 6
  else none

/-- The value of word 0x00 that a write stores: CONC 3 leaves CONC. -/
def Hub.strWord (h : Hub) (c w : Nat) : Nat := if bits w 7 6 = 3 then putBits (putBits w 4 3 0) 7 6 (bits (h.reg (str c 0)) 7 6) else putBits w 4 3 0

/-- A write of word 0x00 with EN = 1. -/
def Hub.strEnable (h : Hub) (c w : Nat) : Hub :=
  let old := h.reg (str c 0)
  let w := h.strWord c w
  let h := h.setReg (str c 0) w
  match h.strCause c w with
  | some x => (h.setReg (str c 0) old).issue 85 4 c x 0
  | none => h.modCtx c fun x => { x with starting := true, stopping := false }

/-- A write of word 0x00 with EN = 0: it stops the context at the next tick of its domain. A disable asks for new keys. -/
def Hub.strDisable (h : Hub) (c w : Nat) : Hub :=
  let on := bit (h.reg (str c 0)) 15
  let h := h.setReg (str c 0) (h.strWord c w)
  h.modCtx c fun x => { x with starting := false, stopping := x.run, keyv := x.keyv && !on }

/-- A write of the last key-set word: the whole set takes effect (R383). -/
def Hub.keySet (h : Hub) (c w : Nat) : Hub :=
  let h := h.setReg (str c 0x58) w
  (iter 25 (fun i h => h.enforce (str c (0x40 + i))) h).modCtx c fun x => { x with keyv := true }

/-- The key set in force. -/
def Hub.keys (h : Hub) (c : Nat) : List Word := (List.range 25).map fun i => tget resetWord h.force (str c (0x40 + i))

/-! ### Integrity lanes (R378 to R381) -/

/-- Lane `l`. -/
def Hub.lane (h : Hub) (l : Nat) : Lane := h.net.lanes.get {} l

/-- Lane `l` changed. -/
def Hub.modLane (h : Hub) (l : Nat) (f : Lane → Lane) : Hub := { h with net := { h.net with lanes := h.net.lanes.mod l f } }

/-- The lane that the next frame goes to: the next working one with room (R379). -/
def Hub.pickLane (h : Hub) : Option Nat :=
  ((List.range 4).map fun i => (h.net.nextLane + i) % 4).find? fun l => !(h.lane l).failed && decide ((h.lane l).held.length < 16)

/-- A frame goes to a lane. -/
def Hub.giveLane (h : Hub) (l c id : Nat) : Hub :=
  let h := h.modLane l fun x => { x with held := x.held ++ [(c, id)] }
  { h with net := { h.net with nextLane := (l + 1) % 4 } }

/-- A new frame number. -/
def Hub.newId (h : Hub) : Hub := { h with net := { h.net with nextId := h.net.nextId + 1 } }

/-! ### Placement (R386, R387) -/

/-- The playout tick of sample `j` of a packet with timestamp `ts`. -/
def Hub.playTick (h : Hub) (c ts j : Nat) : BitVec 32 := BitVec.ofNat 32 (ts + h.effN (str c 9) 2 + j)

/-- A sample of every channel written at its playout tick; `f` is the frame while it is unconfirmed. -/
def Hub.place (h : Hub) (c : Nat) (p : BitVec 32) (v : List (BitVec 24)) (f : Option Nat) : Hub :=
  let d := (p - h.strCounter c).toInt
  let bl := h.strBuf c
  let x := h.ctxOf c
  let n := v.length
  if d ≤ 0 then h.strCnt c 6 n
  else if (bl : Int) ≤ d then h.strCnt c 7 n
  else
    let i := p.toNat % bl
    match tget (fun _ => none) x.buf i with
    | some b => if b.tick = p then h.strCnt c 8 n
                else h.modCtx c fun x => { x with buf := tput (fun _ => none) x.buf i (some ⟨p, v, f⟩) }
    | none => h.modCtx c fun x => { x with buf := tput (fun _ => none) x.buf i (some ⟨p, v, f⟩) }

/-- All samples of a frame placed. -/
def Hub.placeAll (h : Hub) (c : Nat) (r : RxFrame) (f : Option Nat) : Hub :=
  iter r.samples.length (fun j h => h.place c (h.playTick c r.ts j) (lget [] r.samples j) f) h

/-! ### Resolution (R390, R392, R401) -/

/-- Frame `id` of a context. -/
def Ctx.frame (x : Ctx) (id : Nat) : Option RxFrame := x.frames.find? fun r => r.id == id

/-- Frame `id` changed. -/
def Ctx.modFrame (x : Ctx) (id : Nat) (f : RxFrame → RxFrame) : Ctx := { x with frames := x.frames.map fun r => if r.id = id then f r else r }

/-- A run of `n` concealed ticks has ended (R389). -/
def Hub.concealRun (h : Hub) (c n : Nat) : Hub := h.issueLimited c 85 3 c (satN 65535 n) (bits (h.strCtl c) 7 6)

/-- The result of frame `id` of context `c` reaches everything that holds its samples: engines, slots and what has been
played; runs of concealed ticks that its samples ended are reported once it is confirmed (R137). -/
def Hub.tellAll (h : Hub) (c id : Nat) (ok : Bool) : Hub :=
  let g := fun (s : Sample) => if s.crema = some (c, id) then { s with crema := none, void := !ok } else s
  let h := { h with engs := tmapv (fun _ => {}) (fun e => e.frameDone (c, id) ok) h.engs, bus := tmapv (fun _ => {}) g h.bus }
  let runs := (h.ctxOf c).ended.filter fun e => e.1 == id
  let h := h.modCtx c fun x => { x with played := x.played.map fun l => l.map g, ended := x.ended.filter fun e => e.1 != id }
  if ok then runs.foldl (fun h e => h.concealRun c e.2) h else h

/-- The first confirmed frame teaches TSOFS and the SSRC (R385, R386). -/
def Hub.learn (h : Hub) (c : Nat) (r : RxFrame) : Hub :=
  let w := h.strCtl c
  let x := h.ctxOf c
  let h := if bit w 5 && !x.tsKnown then
      (h.setEffN (str c 9) 2 ((r.counter.toNat + h.strSet c 8 12 0 + (2 ^ 32 - r.ts)) % 2 ^ 32)).modCtx c fun x => { x with tsKnown := true }
    else h
  if bit w 8 && !x.ssrcKnown then
    ((h.setEffN (str c 4) 2 r.ssrc).modCtx c fun x => { x with ssrcKnown := true }).issue 85 2 c (r.ssrc % 65536) (r.ssrc / 65536)
  else h

/-- A result of lane `l` is released, which counts (R380). -/
def Hub.laneFrame (h : Hub) (l : Nat) : Hub := h.addWrap (kQue (0x32A0 + 8 * l)) 3 1

/-- Is a highest confirmed index known: INDEX is not 0, or a frame has been confirmed since the enable. DEDUCED (log 141). -/
def Hub.indexKnown (h : Hub) (c : Nat) : Bool := h.effN (str c 0x60) 3 != 0 || !(h.ctxOf c).seen.isEmpty

/-- How far a 48-bit index lies below INDEX; from 2^47 on it lies above. -/
def Hub.below (h : Hub) (c i : Nat) : Nat := (h.effN (str c 0x60) 3 + 2 ^ 48 - i) % 2 ^ 48

/-- What the release of a result does: replay window and counters (R380, R392). -/
def Hub.releaseRx (h : Hub) (c : Nat) (r : RxFrame) : Hub :=
  let h := h.modCtx c fun x => { x with frames := x.frames.filter fun q => q.id != r.id }
  let h := match r.lane with
    | some l => h.laneFrame l
    | none => h
  if r.res = some true then
    let top' := if ! h.indexKnown c || 2 ^ 47 ≤ h.below c r.index then r.index else h.effN (str c 0x60) 3
    let h := (h.setEffN (str c 0x60) 3 top').addWrap (str c 0x9C) 3 1
    h.modCtx c fun x => { x with seen := (x.seen ++ [r.index]).filter fun i => decide (h.below c i ≤ 63) }
  else
    match r.cause with
    | 1 => h.strCnt c 9 1
    | 2 => ((h.strCnt c 10 1).addSat (kQue (0x32A3 + 8 * r.lane.getD 0)) 2 1).issueLimited c 86 1 c r.seq (r.lane.getD 0)
    | 3 => (h.strCnt c 11 1).issueLimited c 86 2 c r.seq (h.strSet c 11 4 0)
    | 4 => h.strCnt c 4 1
    | _ => h

/-- The results that are released now: of frames in lanes in the order in which they were given (R380), of others at
once. A frame lost in a failed lane holds back those behind it (R615). -/
def releasable : List RxFrame → Bool → List RxFrame
  | [], _ => []
  | r :: rs, blocked =>
    if r.lost then releasable rs true
    else match r.res, r.lane with
      | none, none => releasable rs blocked
      | none, some _ => releasable rs true
      | some _, none => r :: releasable rs blocked
      | some _, some _ => if blocked then releasable rs true else r :: releasable rs false

/-- Every result that can be released is. -/
def Hub.releaseCtx (h : Hub) (c : Nat) : Hub := (releasable (h.ctxOf c).frames false).foldl (fun h r => h.releaseRx c r) h

/-- A frame is confirmed; the others with its index are discarded as duplicates (R385, R390). -/
def Hub.confirm (h : Hub) (c : Nat) (r : RxFrame) : Hub :=
  let x := h.ctxOf c
  let first := bit (h.strCtl c) 5 && !x.tsKnown
  let h := h.learn c r
  let h := h.modCtx c fun x =>
    { x.modFrame r.id fun r => { r with res := some true, standby := false } with
      buf := tmapv (fun _ => none) (fun b => b.map fun b => if b.frame = some r.id then { b with frame := none } else b) x.buf }
  let h := if r.standby ∨ first then h.placeAll c r none else h
  let h := h.tellAll c r.id true
  let twins := (h.ctxOf c).frames.filter fun q => q.index == r.index && q.id != r.id && q.res.isNone
  twins.foldl (fun h q => (h.tellAll c q.id false).modCtx c fun x =>
    { x.modFrame q.id fun q => { q with res := some false, cause := 4, standby := false } with
      buf := tmapv (fun _ => none) (fun b => b.filter fun b => b.frame != some q.id) x.buf }) h

/-- Both results of a frame are in and good. -/
def RxFrame.good (r : RxFrame) : Bool := r.fcs == some true && (r.lane.isNone || r.auth == some true)

/-- A frame is rejected with a cause; a standby frame of the same index whose results are good is then confirmed. -/
def Hub.reject (h : Hub) (c : Nat) (r : RxFrame) (cause : Nat) : Hub :=
  let h := h.modCtx c fun x =>
    { x.modFrame r.id fun r => { r with res := some false, cause := cause, standby := false } with
      buf := tmapv (fun _ => none) (fun b => b.filter fun b => b.frame != some r.id) x.buf }
  let h := h.tellAll c r.id false
  match (h.ctxOf c).frames.find? fun q => q.index == r.index && q.standby && q.res.isNone && q.good with
  | some q => if r.standby then h else h.confirm c q
  | none => h

/-- An unresolved frame is judged by the results it has (R390). -/
def Hub.judge (h : Hub) (c id : Nat) : Hub :=
  match (h.ctxOf c).frame id with
  | none => h
  | some r =>
    let h :=
      if r.res.isSome then h
      else if r.fcs = some false then h.reject c r 1
      else if r.auth = some false then h.reject c r 2
      else if r.good && !(r.standby && (h.ctxOf c).frames.any fun q => q.index == r.index && !q.standby && q.res.isNone) then h.confirm c r
      else h
    h.releaseCtx c

/-- The FCS result of a frame. -/
def Hub.fcsResult (h : Hub) (c id : Nat) (ok : Bool) : Hub :=
  (h.modCtx c fun x => x.modFrame id fun r => { r with fcs := some ok }).judge c id

/-- A frame is rejected where it is unresolved, and what can be released is. -/
def Hub.rejectOpen (h : Hub) (c id cause : Nat) : Hub :=
  match (h.ctxOf c).frame id with
  | none => h
  | some r => if r.res.isSome then h else (h.reject c r cause).releaseCtx c

/-- A frame is lost with its lane: rejected where it is unresolved, and never released (R381, R615). -/
def Hub.loseFrame (h : Hub) (c id : Nat) : Hub :=
  match (h.ctxOf c).frame id with
  | none => h
  | some r =>
    if r.res.isSome then h else ((h.modCtx c fun x => x.modFrame id fun r => { r with lost := true }).reject c r 0).releaseCtx c

/-- The confirm window of frame `i` of a context ends (R390). -/
def Hub.windowEnd (h : Hub) (c i : Nat) : Hub :=
  match (h.ctxOf c).frames[i]? with
  | none => h
  | some r => h.rejectOpen c r.id 3

/-! ### Lane results (R380, R381) -/

/-- A protected frame is released: it is offered to QUEUE (R380, R393). -/
def Hub.sendJob (h : Hub) (c : Nat) (j : TxJob) : Hub :=
  (((h.sendFrame (h.strSet c 13 9 0) j.bytes).addWrap (str c 0x9C) 3 1).laneFrame j.lane).modCtx c fun x =>
    { x with jobs := x.jobs.filter fun k => k.id != j.id }

/-- Protected frames that are done leave in order. -/
def Hub.sendJobs (h : Hub) (c : Nat) : List TxJob → Hub
  | [] => h
  | j :: js => if j.done then Hub.sendJobs (h.sendJob c j) c js else h

/-- The jobs of a context that can leave do. -/
def Hub.pushJobs (h : Hub) (c : Nat) : Hub := h.sendJobs c (h.ctxOf c).jobs

/-- A lane delivers the result of the frame at position `j` (R380). -/
def Hub.laneResult (h : Hub) (l j : Nat) : Hub :=
  match (h.lane l).held[j]? with
  | none => h
  | some (c, id) =>
    let h := h.modLane l fun x => { x with held := x.held.eraseIdx j }
    match (h.ctxOf c).frame id with
    | some r => (h.modCtx c fun x => x.modFrame id fun r => { r with auth := some r.verdict }).judge c id
    | none => (h.modCtx c fun x => { x with jobs := x.jobs.map fun k => if k.id = id then { k with done := true } else k }).pushJobs c

/-- A result that has waited 50 µs behind an earlier one is released at once, past the frames that were lost in a failed
lane (R380, R615): frame `i` of a receive context, job `i` of a transmit context. -/
def Hub.reorderTimeout (h : Hub) (c i : Nat) : Hub :=
  let count := fun (h : Hub) (l : Nat) => h.addSat (kQue (0x32A5 + 8 * l)) 2 1
  match (h.ctxOf c).frames[i]? with
  | some r =>
    match r.res, r.lane with
    | some _, some l =>
      if i = 0 ∨ r.lost then h
      else
        let h := h.modCtx c fun x => { x with frames := (x.frames.take i).filter (fun q => !q.lost) ++ x.frames.drop i }
        (count (h.releaseRx c r) l).releaseCtx c
    | _, _ => h
  | none =>
    match (h.ctxOf c).jobs[i]? with
    | some j =>
      if j.done ∧ i ≠ 0 then
        let h := h.modCtx c fun x => { x with jobs := (x.jobs.take i).filter (fun k => !k.lost) ++ x.jobs.drop i }
        (count (h.sendJob c j) j.lane).pushJobs c
      else h
    | none => h

/-- A lane is declared failed: 1 self-check, 2 stall (R381, R615). -/
def Hub.laneFail (h : Hub) (l cause : Nat) : Hub :=
  if (h.lane l).failed then h
  else
    let lost := (h.lane l).held
    let h := ((h.modLane l fun x => { x with failed := true, held := [] }).setFlag (kQue 0x32E0)).setFlag 0x7B
    let h := lost.foldl (fun h f =>
      (h.loseFrame f.1 f.2).modCtx f.1 fun x => { x with jobs := x.jobs.map fun k => if k.id = f.2 then { k with lost := true } else k }) h
    h.issue (80 + l) 1 cause lost.length ((List.range 4).filter fun i => !(h.lane i).failed).length

/-! ### Receive at the decision point (R385, R387) -/

/-- The index of a sequence number beside the highest confirmed index (RFC 3711, section 3.3.1); where none is known, with the ROC
that INDEX holds. -/
def Hub.estimate (h : Hub) (c seq : Nat) : Nat :=
  let top := h.effN (str c 0x60) 3
  let s := top % 65536
  let roc := top / 65536
  let v :=
    if ! h.indexKnown c then roc
    else if s < 32768 then (if 32768 + s < seq then roc + 2 ^ 32 - 1 else roc)
    else if seq + 32768 < s then roc + 1 else roc
  v % 2 ^ 32 * 65536 + seq

/-- The samples of a payload, by tick and channel: L24, or L16 in the upper bits; decrypted where SRTP applies. -/
def Hub.rxSamples (h : Hub) (c : Nat) (b : List Byte) (at0 ssrc index : Nat) : List (List (BitVec 24)) :=
  let w := h.strCtl c
  let n := h.strChans w
  let k := strBytes w
  let p := (b.drop at0).take (h.strSpp c * n * k)
  let p := if bit w 11 then xorBytes p (keystream (h.keys c) ssrc index p.length) else p
  let byte := byteAt p
  (List.range (h.strSpp c)).map fun j => (List.range n).map fun ch =>
    let o := (j * n + ch) * k
    BitVec.ofNat 24 (if k = 3 then byte o * 65536 + byte (o + 1) * 256 + byte (o + 2) else (byte o * 256 + byte (o + 1)) * 256)

/-- The tag in a frame is the one that the session keys give. -/
def Hub.rxVerdict (h : Hub) (c : Nat) (b : List Byte) (p : Parsed) (index : Nat) : Bool :=
  let t := strTag (h.strCtl c)
  let stop := p.pay + p.payLen - t
  t == 0 || (b.drop stop).take t == authTag (h.keys c) ((b.drop p.pay).take (stop - p.pay)) (index / 65536) t

/-- The check that stops a frame, as its counter's number (R385). -/
def Hub.rxCheck (h : Hub) (c : Nat) (p : Parsed) : Option Nat :=
  let w := h.strCtl c
  let x := h.ctxOf c
  let i := h.estimate c p.seq
  if p.rtppt % 128 ≠ h.strSet c 3 6 0 then some 0
  else if (¬ bit w 8 ∨ x.ssrcKnown) ∧ p.ssrc ≠ h.effN (str c 4) 2 then some 1
  else if p.pad ∨ p.pay + p.payLen ≠ p.rtpPay + h.strChans w * h.strSpp c * strBytes w + strTag w then some 2
  else if h.indexKnown c ∧ 63 < h.below c i ∧ h.below c i < 2 ^ 47 then some 3
  else if (h.indexKnown c ∧ h.below c i = 0) ∨ x.seen.contains i ∨ x.frames.any (fun r => r.index == i && r.res == some true) then some 4
  else if bit w 11 ∧ h.pickLane.isNone then some 5
  else none

/-- A frame delivered to an enabled receive context at its decision point; `id` numbers it. -/
def Hub.rxFrame (h : Hub) (c id : Nat) (b : List Byte) (p : Parsed) (cells : Nat) : Hub :=
  match h.rxCheck c p with
  | some j => h.strCnt c j 1
  | none =>
    let x := h.ctxOf c
    let i := h.estimate c p.seq
    let lane := if bit (h.strCtl c) 11 then h.pickLane else none
    let twin := x.frames.any fun r => r.index == i && r.res.isNone
    let r : RxFrame :=
      { id := id, index := i, seq := p.seq, lane := lane, poured := !twin && x.tsKnown, standby := twin, ts := p.ts, ssrc := p.ssrc,
        samples := h.rxSamples c b p.rtpPay p.ssrc i, counter := h.strCounter c, verdict := h.rxVerdict c b p i, cells := cells }
    let h := match lane with
      | some l => h.giveLane l c id
      | none => h
    let h := h.modCtx c fun x => { x with frames := x.frames ++ [r] }
    if r.poured then h.placeAll c r (some id) else h

/-! ### Playout and concealment (R388, R389) -/

/-- Ticks of the context's domain in `ms` milliseconds, rounded down. -/
def Hub.strMs (h : Hub) (c ms : Nat) : Nat := rateHz (h.dom (bits (h.strCtl c) 13 12)).rate * ms / 1000

/-- A 24-bit sample scaled by a / b. -/
def scale24 (v : BitVec 24) (a b : Nat) : BitVec 24 := BitVec.ofInt 24 (if b = 0 then 0 else divOpen (v.toInt * a) b)

/-- The last sample played in channel `i` that is confirmed. -/
def lastPlayed (played : List (List Sample)) (i : Nat) : BitVec 24 :=
  match played.find? fun l => (lget {} l i).crema.isNone && !(lget {} l i).void with
  | some l => (lget {} l i).v
  | none => 0

/-- The concealment values at tick `g` of a run, counted from 1, and the values that fade from then on. -/
def Hub.conceal (h : Hub) (c g : Nat) : List (BitVec 24) × List (BitVec 24) :=
  let w := h.strCtl c
  let x := h.ctxOf c
  let n := h.strChans w
  let last := if g = 1 then (List.range n).map (lastPlayed x.played) else x.hold
  let fade := fun (l : List (BitVec 24)) (k : Nat) =>
    let len := h.strMs c (h.strSet c 12 7 0)
    l.map fun v => scale24 v (len - k) len
  match bits w 7 6 with
  | 0 => (List.replicate n 0, last)
  | 1 => (fade last g, last)
  | _ =>
    if g ≤ h.strSpp c then
      let old := (lget [] x.played (h.strSpp c - 1)).map fun s => if s.crema.isNone && !s.void then s.v else 0
      let old := old ++ List.replicate (n - old.length) 0
      (old, old)
    else (fade last (g - h.strSpp c), last)

/-- The slots of a context in S(k). -/
def Hub.putSlots (h : Hub) (c : Nat) (l : List Sample) : Hub :=
  iter l.length (fun i h => { h with bus := tput (fun _ => {}) h.bus (h.strSet c 1 8 0 + i) (lget {} l i) }) h

/-- Playout of a receive context at a tick of its domain (R388). -/
def Hub.playCtx (h : Hub) (c : Nat) : Hub :=
  let k := h.strCounter c
  let x := h.ctxOf c
  let keep := max 1 (h.strSpp c)
  let i := k.toNat % h.strBuf c
  let cell := (tget (fun _ => none) x.buf i).filter fun b => b.tick = k
  match cell with
  | some b =>
    let ramp := h.strMs c 1
    let alt := (h.conceal c 1).1
    let f := if 0 < x.gap then 1 else x.fadeIn + 1
    let l := b.samples.map fun v => ({ v := if f < ramp then scale24 v f ramp else v, crema := b.frame.map fun id => (c, id) } : Sample)
    let ends := 0 < x.gap ∧ h.strSpp c ≤ x.gap
    let h := match b.frame with
      | some id => if ends then h.modCtx c fun x => { x with ended := x.ended ++ [(id, x.gap)] } else h
      | none => if ends then h.concealRun c x.gap else h
    (h.modCtx c fun x => { x with buf := tput (fun _ => none) x.buf i none, played := (l :: x.played).take keep, gap := 0,
                                  fadeIn := satN 0xFFFF f, hold := [], alt := alt }).putSlots c l
  | none =>
    let (v, fading) := h.conceal c (x.gap + 1)
    let l := v.map fun v => ({ v := v } : Sample)
    let h := h.strCnt c 12 l.length
    (h.modCtx c fun x => { x with played := (l :: x.played).take keep, gap := x.gap + 1, hold := fading }).putSlots c l

/-! ### Transmit (R393) -/

/-- Bytes of a sample in a packet. -/
def sampleBytes (l24 : Bool) (v : BitVec 24) : List Byte :=
  if l24 then beBytes 3 v.toNat else beBytes 2 (wordOf (clampI (-32768) 32767 (divOpen v.toInt 256)))

/-- Bytes `o` on of a frame replaced. -/
def setBytes (b : List Byte) (o : Nat) (v : List Byte) : List Byte := b.take o ++ v ++ b.drop (o + v.length)

/-- Where the IP header of a template begins. -/
def ipOffset (b : List Byte) : Nat :=
  let tag := fun o => beAt b o 2 == 0x8100 || beAt b o 2 == 0x88A8
  if tag 12 then (if tag 16 then 22 else 18) else 14

/-- The ones' complement sum as a checksum field. -/
def checksum (n : Nat) : Nat := 0xFFFF - n

/-- Sum of the UDP pseudo-header and datagram at `u` of a frame with its IP header at `o`. -/
def udpSum (b : List Byte) (o u : Nat) : Nat :=
  let n := b.length - u
  let addr := if byteAt b o / 16 = 4 then (b.drop (o + 12)).take 8 else (b.drop (o + 8)).take 32
  inetSum (addr ++ beBytes 2 17 ++ beBytes 2 n ++ b.drop u)

/-- IP lengths, header checksum and the UDP header filled in: the UDP header is the last 8 bytes of a template of `t`
bytes (R393). -/
def fillUdp (b : List Byte) (t : Nat) (ucsum : Bool) : List Byte :=
  let o := ipOffset b
  let v4 := beAt b (o - 2) 2 == 0x0800
  let b := if v4 then
      let b := setBytes (setBytes b (o + 2) (beBytes 2 (b.length - o))) (o + 10) [0, 0]
      setBytes b (o + 10) (beBytes 2 (checksum (inetSum ((b.drop o).take (4 * (byteAt b o % 16))))))
    else setBytes b (o + 4) (beBytes 2 (b.length - o - 40))
  let u := t - 8
  let b := setBytes (setBytes b (u + 4) (beBytes 2 (b.length - u))) (u + 6) [0, 0]
  if v4 && !ucsum then b
  else
    let s := checksum (udpSum b o u)
    setBytes b (u + 6) (beBytes 2 (if s = 0 then 0xFFFF else s))

/-- The packet of a transmit context: its bytes, protected where SRTP applies. -/
def Hub.packet (h : Hub) (c : Nat) (fill : List (List (BitVec 24))) (first : BitVec 32) : List Byte :=
  let w := h.strCtl c
  let t := h.strSet c 15 6 0
  let index := h.effN (str c 0x60) 3
  let ssrc := h.effN (str c 4) 2
  let ts := (first.toNat + h.effN (str c 9) 2) % 2 ^ 32
  let rtp := [BitVec.ofNat 8 0x80, BitVec.ofNat 8 (h.strSet c 3 6 0)] ++ beBytes 2 index ++ beBytes 4 ts ++ beBytes 4 ssrc
  let pay := fill.flatMap fun l => l.flatMap (sampleBytes (bit w 9))
  let keys := h.keys c
  let n := strTag w
  let pay := if n = 0 then pay else xorBytes pay (keystream keys ssrc index pay.length)
  let tag := if n = 0 then [] else authTag keys (rtp ++ pay) (index / 65536) n
  fillUdp (wordsBytes (fun i => h.eff (str c (16 + i))) t ++ rtp ++ pay ++ tag) t (bit (h.eff (str c 14)) 0)

/-- A packet is built and goes to a lane or to QUEUE. -/
def Hub.buildPacket (h : Hub) (c : Nat) : Hub :=
  let x := h.ctxOf c
  let b := h.packet c x.fill x.fillTick
  let h := (h.addWrap (str c 0x60) 3 1).modCtx c fun x => { x with fill := [] }
  let h := iter 3 (fun i h => h.enforce (str c (0x60 + i))) h
  if bit (h.strCtl c) 11 then
    match h.pickLane with
    | none => h
    | some l =>
      let id := h.net.nextId
      ((h.newId).giveLane l c id).modCtx c fun x => { x with jobs := x.jobs ++ [{ id := id, lane := l, bytes := b }] }
  else (h.sendFrame (h.strSet c 13 9 0) b).addWrap (str c 0x9C) 3 1

/-- A transmit context collects the published values of its sink slots (R393). -/
def Hub.txCollect (h : Hub) (c : Nat) (sink : Nat → BitVec 24) : Hub :=
  let x := h.ctxOf c
  let v := (List.range (h.strChans (h.strCtl c))).map fun i => sink (h.strSet c 1 8 0 + i)
  let h := h.modCtx c fun x => { x with fill := x.fill ++ [v], fillTick := if x.fill.isEmpty then h.strCounter c else x.fillTick }
  if h.strSpp c ≤ x.fill.length + 1 then h.buildPacket c else h

/-! ### Starts and stops at a tick (R384) -/

/-- An enabled context starts at a tick of its domain. -/
def Hub.strStart (h : Hub) (c : Nat) : Hub :=
  let h := iter 64 (fun i h => h.enforce (str c i)) h
  let w := h.strCtl c
  let h := h.modCtx c fun x =>
    { run := true, keyv := x.keyv, ssrcKnown := !bit w 8, tsKnown := !bit w 5, jobs := x.jobs }
  h.issue 85 1 c ((h.strCounter c).toNat % 65536) (b2n (bit w 14))

/-- A disabled context stops at a tick of its domain. -/
def Hub.strStop (h : Hub) (c : Nat) : Hub :=
  let w := h.strCtl c
  let ids := (h.ctxOf c).frames.map (·.id)
  let h := ids.foldl (fun h id => h.rejectOpen c id 0) h
  let h := ((h.ctxOf c).frames.filter fun r => r.res.isSome && !r.lost).foldl (fun h r => h.releaseRx c r) h
  let h := h.modCtx c fun x => { x with run := false, stopping := false, buf := [], fill := [], played := [], gap := 0, frames := [] }
  let h := if bit w 14 then h else h.putSlots c (List.replicate (h.strChans w) {})
  h.enforce (str c 0)

/-- Contexts of domain `d` start and stop at its tick. -/
def Hub.strTick (h : Hub) (d : Nat) : Hub :=
  (h.net.ctx.map (·.1)).foldl (fun h c =>
    let x := h.ctxOf c
    let h := if x.stopping ∧ bits (h.strCtl c) 13 12 = d then h.strStop c else h
    if x.starting ∧ h.fld (str c 0) 13 12 = d then (if x.run ∧ ¬ x.stopping then h.strStop c else h).strStart c else h) h

end Sys2Proof.Machine
end

