-- ==== Sys2Proof/Machine/Rtm.lean ====
section
/-! DEFINITION. Rtm.lean: slot allocation, crosspoints, ramps, crossfades, ducking, the mix and cross-domain routes
(R465 to R479). -/

namespace Sys2Proof.Machine

/-- A word of the matrix space. -/
def kRtm (o : Nat) : Nat := spc 0x20 o
/-- Word `w` of crosspoint `x`. -/
def kXp (x w : Nat) : Nat := kRtm (0x1000 + 8 * x + w)
/-- Word `w` of the sink words of slot `s`. -/
def kSnk (s w : Nat) : Nat := kRtm (0x9000 + 16 * s + w)

/-- Crosspoint `x`, sink `s`, and their changes. -/
def Hub.xp (h : Hub) (x : Nat) : Xp := tget (fun _ => {}) h.rtm.xps x
def Hub.modXp (h : Hub) (x : Nat) (f : Xp → Xp) : Hub :=
  { h with rtm := { h.rtm with xps := tput (fun _ => {}) h.rtm.xps x (f (h.xp x)) } }
def Hub.snk (h : Hub) (s : Nat) : Snk := tget (fun _ => {}) h.rtm.snks s
def Hub.modSnk (h : Hub) (s : Nat) (f : Snk → Snk) : Hub :=
  { h with rtm := { h.rtm with snks := tput (fun _ => {}) h.rtm.snks s (f (h.snk s)) } }

/-- The entries that are valid or being removed. -/
def Hub.liveXps (h : Hub) : List Nat := (h.rtm.xps.filter fun e => e.2.valid || e.2.removing).map (·.1)

/-- Sink slot and fields in force of an entry. -/
def Hub.xpSnk (h : Hub) (x : Nat) : Nat := bits (h.eff (kXp x 1)) 8 0
def Hub.xpPrio (h : Hub) (x : Nat) : Nat := bits (h.eff (kXp x 0)) 13 11

/-- Is this a VH-8L (R1, R2). -/
def Hub.isL (h : Hub) : Bool := h.reg 0 % 256 == 0x4C

/-! ### Slots (R465, R466) -/

/-- Does UNIT name a unit of this hub. -/
def Hub.unitExists (h : Hub) (ty u : Nat) : Bool :=
  match ty with
  | 0 => decide (u < 512)
  | 1 => decide (u < 8)
  | 2 => decide (u < 2)
  | 3 => decide (u < 4)
  | 4 => decide (u < 2048)
  | 5 => decide (u < if h.isL then 4 else 8)
  | 6 => decide (u < 2)
  | 7 => decide (u < 4)
  | 8 => decide (u < 2048)
  | 9 => decide (u < 8)
  | _ => false

/-- Is the unit that owns a name enabled: an engine or a stream context until its disable takes effect. -/
def Hub.unitEnabled (h : Hub) (ty u : Nat) : Bool :=
  match ty with
  | 0 => bit (h.reg (kSe (u / 32) 0x100)) 15 || (h.engine (u / 32)).run.spen
  | 1 => bit (h.reg 0x48) u
  | 2 => bit (h.reg 0x4A) u
  | 3 => bit (h.reg (0x42 + u / 2)) 15
  | 4 => bit (h.reg (str (u / 8) 0)) 15 || (h.ctxOf (u / 8)).run
  | 5 => bit (h.reg 0x4E) u
  | 6 => bit (h.reg 0x4A) u
  | 7 => bit (h.reg (0x44 + u / 2)) 15
  | 8 => bit (h.reg (str (u / 8) 0)) 15 || (h.ctxOf (u / 8)).run
  | 9 => bit (h.reg 0x6A) 15
  | _ => false

/-- The allocated slots, lowest first. -/
def Hub.slots (h : Hub) : List Nat :=
  h.force.filterMap fun e => if kRtm 0 ≤ e.1 ∧ e.1 < kRtm 0x400 ∧ e.1 % 2 = 0 ∧ bit e.2.toNat 15 then some ((e.1 - kRtm 0) / 2) else none

/-- Is slot `s` a sink, and is it a source. -/
def Hub.isSink (h : Hub) (s : Nat) : Bool := h.slotV s && !isSource (h.slotType s)
def Hub.isSrc (h : Hub) (s : Nat) : Bool := h.slotV s && isSource (h.slotType s)

/-- Is a slot in use (cause 3 of R466); an enabled engine input is one whose map entry, as written or in force, enables it. -/
def Hub.slotInUse (h : Hub) (s : Nat) : Bool :=
  (h.slotV s && h.unitEnabled (h.slotType s) (h.slotUnit s)) ||
    (List.range 16).any (fun n => (List.range 32).any fun i =>
      [h.reg (kMap n i), h.eff (kMap n i)].any fun w => bit w 15 && bits w 8 0 == s) ||
    h.liveXps.any fun x => h.xpSnk x == s || (h.xp x).src == s || (h.xp x).fade.any (fun f => f.1 == s) || (h.xp x).heldSrc == some s

/-- Why an allocation is refused (R466). -/
def Hub.slotCause (h : Hub) (s w0 u : Nat) : Option Nat :=
  let v := bit w0 15
  let d := bits w0 13 12
  let ty := bits w0 3 0
  if v ∧ 256 ≤ ((h.slots).filter fun t => t != s && h.slotDom t == d).length then some 1
  else if v ∧ (h.slots).any (fun t => t != s && h.slotIs t ty u) then some 2
  else if h.slotInUse s then some 3
  else if v ∧ ¬ h.unitExists ty u then some 4
  else none

/-- A write of a slot's second word: the allocation takes effect, or is refused. -/
def Hub.slotWrite (h : Hub) (s u : Nat) : Hub :=
  let w0 := h.reg (kSlot s 0)
  match h.slotCause s w0 u with
  | some c => (((h.revert (kSlot s 0)).revert (kSlot s 1)).setFlag (kRtm 0xB000)).issue 160 2 s c w0
  | none =>
    let h := ((h.setReg (kSlot s 1) u).enforce (kSlot s 0)).enforce (kSlot s 1)
    let h := { h with bus := tput (fun _ => {}) h.bus s {}, rtm := { h.rtm with snks := tput (fun _ => {}) h.rtm.snks s {} } }
    h.calHitSink s

/-! ### Amplitudes (R470) -/

/-- The factor of a level. -/
def ampDb (x : Rat) : Rat :=
  let k := x / 20
  if k.den = 1 then (if 0 ≤ k.num then ((10 ^ k.num.toNat : Nat) : Rat) else 1 / ((10 ^ (-k.num).toNat : Nat) : Rat)) else Config.ampOf x

/-- The factor of an amplitude. -/
def Amp.val : Amp → Rat
  | .db x => ampDb x
  | .lin a => a

/-- The level of an amplitude; 0 counts as -100 dB. -/
def Amp.level : Amp → Rat
  | .db x => x
  | .lin a => if a = 0 then -100 else if a = 1 then 0 else Config.levelOf a

/-- The target amplitude of a GAIN. -/
def gainAmp (g : Nat) : Amp := if g = 0x8000 then .lin 0 else .db ((s16 g : Rat) / 10)

/-- The amplitude at the present tick of a ramp. -/
def Ramp.now (r : Ramp) : Amp :=
  if r.n ≤ r.j then r.a1
  else if r.dB then .db (r.a0.level + (r.a1.level - r.a0.level) * r.j / r.n)
  else .lin (r.a0.val + (r.a1.val - r.a0.val) * r.j / r.n)

/-- Convergent rounding to an integer (R475). -/
def convergent (x : Rat) : Int :=
  let f := x.floor
  let r := x - f
  if r < 1 / 2 then f else if 1 / 2 < r then f + 1 else if f % 2 = 0 then f else f + 1

/-- floor(t × fs ÷ 1000) ticks of domain `d`. -/
def Hub.ticksOf (h : Hub) (d t : Nat) : Nat := rateHz (h.dom d).rate * t / 1000

/-! ### Judging writes (R469) -/

/-- Is an ASRC channel there for a route: one that it shares, or a free one (R479). -/
def Hub.asrcFor (h : Hub) (src d : Nat) : Option Nat := (h.rtm.asrc.find? fun e => e.2 == some (src, d)).map (·.1)
def Hub.asrcFree (h : Hub) : Option Nat := firstBelow 32 fun c => h.fld (kAsrc c) 15 14 == 0

/-- Why a write of an entry is refused; `ws` are its four words. Only causes 5 and 6 concern a write with V at 0. -/
def Hub.xpCause (h : Hub) (x : Nat) (ws : List Nat) : Option Nat :=
  let w0 := lget 0 ws 0
  let src := bits w0 8 0
  let snk := lget 0 ws 1
  let g := lget 0 ws 2
  let e := h.xp x
  if ! bit w0 15 then (if e.removing then some 5 else if e.valid ∧ h.xpSnk x ≠ snk then some 6 else none)
  else if ! h.isSrc src then some 1
  else if ! h.isSink snk then some 2
  else if h.liveXps.any fun y => y != x && (h.xp y).src == src && h.xpSnk y == snk then some 3
  else if h.slotDom src ≠ h.slotDom snk ∧ (h.asrcFor src (h.slotDom snk)).isNone ∧ h.asrcFree.isNone then some 4
  else if e.removing then some 5
  else if e.valid ∧ h.xpSnk x ≠ snk then some 6
  else if g ≠ 0x8000 ∧ ¬ (-1000 ≤ s16 g ∧ s16 g ≤ 120) then some 7
  else none

/-- The stored words of an entry. -/
def Hub.xpWords (h : Hub) (x : Nat) : List Nat := (List.range 4).map fun i => h.reg (kXp x i)

/-- Four words stored. -/
def Hub.putXpWords (h : Hub) (x : Nat) (ws : List Nat) : Hub := iter 4 (fun i h => h.setReg (kXp x i) (lget 0 ws i)) h

/-- A refused write: the stored words return to the held change, or to those in force (R646). -/
def Hub.xpRefuse (h : Hub) (x cause snk : Nat) : Hub :=
  let e := h.xp x
  let back := match ((if e.later then e.next else none).orElse fun _ => e.wait).orElse fun _ => e.next with
    | some l => l.map (·.toNat)
    | none => (List.range 4).map fun i => h.eff (kXp x i)
  ((h.putXpWords x back).setFlag (kRtm 0xB000)).issueLimited x 160 1 x cause snk

/-- A write of word +3 completes the field: judged now, it takes effect at the next tick of the sink's domain, or waits
for RTM_GO (R468, R474). -/
def Hub.xpWrite (h : Hub) (x w3 : Nat) : Hub :=
  let w3 := if 1000 < bits w3 9 0 then bits (h.eff (kXp x 3)) 9 0 else bits w3 9 0
  let h := h.setReg (kXp x 3) w3
  let ws := h.xpWords x
  match h.xpCause x ws with
  | some c => h.xpRefuse x c (lget 0 ws 1)
  | none =>
    let l := ws.map (BitVec.ofNat 16)
    if bit (lget 0 ws 0) 14 then h.modXp x fun e => { e with wait := some l, later := false } else h.modXp x fun e => { e with next := some l, later := true }

/-- A held write released by RTM_GO takes effect at the next tick of the sink's domain; one written after it for the same
tick stands (R468, R474). -/
def Xp.release (e : Xp) : Xp := { e with next := (if e.later then e.next else none).orElse fun _ => e.wait, wait := none }

/-- RTM_GO with KEY 0x6D: held writes take effect at the next tick of their sinks' domains (R474). -/
def Hub.sceneGo (h : Hub) (w : Nat) : Hub :=
  if w / 256 ≠ 0x6D then h
  else (h.rtm.xps.map (·.1)).foldl (fun h x => if (h.xp x).wait.isSome then h.modXp x Xp.release else h) h

/-! ### ASRC channels of the matrix (R479) -/

/-- A route takes its channel, a new one where none is shared. -/
def Hub.asrcTake (h : Hub) (src snk : Nat) : Hub :=
  let d := h.slotDom snk
  if h.slotDom src = d ∨ (h.asrcFor src d).isSome then h
  else match h.asrcFree with
    | none => h
    | some c =>
      let h := h.setReg (kAsrc c) 0x4000
      ({ h with rtm := { h.rtm with asrc := tput (fun _ => none) h.rtm.asrc c (some (src, d)) } }).issue 163 1 c src d

/-- Does a live entry take slot `src` into domain `d`. -/
def Hub.routeUsed (h : Hub) (src d : Nat) : Bool :=
  h.liveXps.any fun x => h.slotDom (h.xpSnk x) == d &&
    ((h.xp x).src == src || (h.xp x).fade.any (fun f => f.1 == src) || (h.xp x).heldSrc == some src)

/-- Channels that no entry shares any more are released. -/
def Hub.asrcSweep (h : Hub) : Hub :=
  h.rtm.asrc.foldl (fun h e =>
    match e.2 with
    | none => h
    | some (src, d) =>
      if h.routeUsed src d then h
      else ({ h.setReg (kAsrc e.1) 0 with rtm := { h.rtm with asrc := tput (fun _ => none) h.rtm.asrc e.1 none, still := tput (fun _ => 0) h.rtm.still e.1 0 } }).issue 163 2 e.1 src d) h

/-! ### Ramps and crossfades (R470 to R472) -/

/-- A ramp from the amplitude applied now. -/
def Hub.startRamp (h : Hub) (x : Nat) (target : Amp) : Hub :=
  let n := max 1 (h.ticksOf (h.slotDom (h.xpSnk x)) (bits (h.eff (kXp x 3)) 9 0))
  h.modXp x fun e => { e with ramp := some { a0 := e.a, a1 := target, dB := bit (h.eff (kXp x 0)) 9, n := n } }

/-- The entry of a source and sink that are no more, with the writes that still wait for it. -/
def Xp.blank (e : Xp) : Xp := { next := e.next, wait := e.wait, later := e.later }

/-- Does a sample reach a threshold of `t` dB below full scale in magnitude. -/
def reaches (v : Int) (t : Nat) : Bool := decide ((2 ^ 230) ^ 2 ≤ v.natAbs ^ 20 * 10 ^ t)

/-- Ticks of the sink's domain since a sample of an entry's source slot last reached the sink's DETTH (R473). -/
def Hub.lastHit (h : Hub) (x : Nat) : Option Nat :=
  let rate := fun (s : Nat) => rateHz (h.dom (h.slotDom s)).rate
  let src := (h.xp x).src
  ((tget (fun _ => []) h.rtm.env src).find? fun e => reaches e.2 (h.fld (kSnk (h.xpSnk x) 0) 7 0)).map fun e =>
    e.1 * rate (h.xpSnk x) / rate src

/-- An entry whose source or threshold is new looks at what its source slot has carried (R473). -/
def Hub.rescan (h : Hub) (x : Nat) : Hub := h.modXp x fun e => { e with quiet := h.lastHit x }

/-- A write of DETTH: every entry of the sink looks again. -/
def Hub.rescanSink (h : Hub) (s : Nat) : Hub := (h.liveXps.filter fun x => h.xpSnk x == s).foldl Hub.rescan h

/-- A crossfade to a new source, or the source held while one runs. -/
def Hub.startFade (h : Hub) (x src : Nat) : Hub :=
  let h := h.asrcTake src (h.xpSnk x)
  if (h.xp x).fade.isSome then h.modXp x fun e => { e with heldSrc := some src }
  else
    let n := h.ticksOf (h.slotDom (h.xpSnk x)) (h.fld (kSnk (h.xpSnk x) 4) 7 0)
    (h.modXp x fun e => { e with src := src, fade := some (e.src, n, 0) }).rescan x

/-- A ramp that has ended: a removed entry becomes free (R470, R471). -/
def Hub.rampEnd (h : Hub) (x : Nat) : Hub :=
  match (h.xp x).ramp with
  | none => h
  | some r =>
    if r.j < r.n then h
    else if (h.xp x).removing then (h.modXp x Xp.blank).asrcSweep
    else h.modXp x fun e => { e with ramp := none, a := r.a1 }

/-- A crossfade that has ended: only the new source remains, and a held source starts its own (R472). -/
def Hub.fadeEnd (h : Hub) (x : Nat) : Hub :=
  match (h.xp x).fade with
  | none => h
  | some (_, n, j) =>
    if j ≤ n then h
    else
      let held := (h.xp x).heldSrc
      let h := (h.modXp x fun e => { e with fade := none, heldSrc := none })
      (match held with
        | some s => h.startFade x s
        | none => h).asrcSweep

/-- A crossfade's last tick has passed; one with a held source ends at the next tick, at which that source starts its own
(R472). -/
def Hub.fadeOver (h : Hub) (x : Nat) : Hub :=
  match (h.xp x).fade with
  | some (_, n, j) => if n ≤ j ∧ (h.xp x).heldSrc.isNone then (h.modXp x fun e => { e with fade := none }).asrcSweep else h
  | none => h

/-- A write takes effect at a tick of its sink's domain (R471). -/
def Hub.xpApply (h : Hub) (x : Nat) (ws : List Nat) : Hub :=
  let e := h.xp x
  let w0 := lget 0 ws 0
  let old := if e.valid then h.eff (kXp x 2) else 0x8000
  let h := h.modXp x fun e => { e with next := none }
  let force := fun (h : Hub) => iter 4 (fun i h => h.enforce (kXp x i)) (h.putXpWords x ws)
  match h.xpCause x ws with
  | some c => h.xpRefuse x c (lget 0 ws 1)
  | none =>
    if ! bit w0 15 then
      if e.valid then
        let h := force h
        (h.startRamp x (.lin 0)).modXp x fun e => { e with valid := false, removing := true }
      else force h
    else if ! e.valid then
      let h := force h
      let h := (h.modXp x fun e => { e.blank with valid := true, src := bits w0 8 0 }).rescan x
      (h.asrcTake (bits w0 8 0) (lget 0 ws 1)).startRamp x (gainAmp (lget 0 ws 2))
    else
      let h := force h
      let h := if lget 0 ws 2 ≠ old ∨ e.ramp.isSome then h.startRamp x (gainAmp (lget 0 ws 2)) else h
      if bits w0 8 0 = e.src then (if e.heldSrc.isSome then (h.modXp x fun e => { e with heldSrc := none }).asrcSweep else h)
      else if e.heldSrc = some (bits w0 8 0) then h
      else h.startFade x (bits w0 8 0)

/-- Written entries of domain `d` take effect at its tick. -/
def Hub.xpUpdate (h : Hub) (d : Nat) : Hub :=
  (h.rtm.xps.map (·.1)).foldl (fun h x =>
    match (h.xp x).next with
    | none => h
    | some ws => if h.slotDom (lget 0 ws 1).toNat = d then h.xpApply x (ws.map (·.toNat)) else h) h

/-- Ramps and crossfades of an entry advance by one tick. -/
def Hub.xpStep (h : Hub) (x : Nat) : Hub :=
  let h := (h.rampEnd x).fadeEnd x
  h.modXp x fun e =>
    let ramp := e.ramp.map fun r => { r with j := r.j + 1 }
    { e with ramp := ramp, a := (ramp.map Ramp.now).getD e.a }

/-! ### Priority and ducking (R473) -/

/-- The confirmed sample of a slot in the present snapshot. -/
def Hub.busConf (h : Hub) (s : Nat) : Option Int :=
  let x := tget (fun _ => {}) h.bus s
  if x.crema.isNone ∧ ¬ x.void then some x.v.toInt else none

/-- Is the source of an entry active for its sink. -/
def Hub.xpActive (h : Hub) (x : Nat) : Bool :=
  let s := h.xpSnk x
  bit (h.eff (kXp x 0)) 10 || (h.xp x).quiet.any fun q => decide (q ≤ h.ticksOf (h.slotDom s) (10 * h.fld (kSnk s 3) 7 0))

/-- The active level of a sink. -/
def Hub.activeLevel (h : Hub) (s : Nat) : Option Nat :=
  ((h.rtm.xps.filter fun e => e.2.valid && h.xpSnk e.1 == s && h.eff (kXp e.1 2) != 0x8000 && h.xpActive e.1).map fun e => h.xpPrio e.1).max?

/-- Detection at a tick: a confirmed sample that reaches DETTH makes its source active. -/
def Hub.detect (h : Hub) (x : Nat) : Hub :=
  let hit := (h.busConf (h.xp x).src).any fun v => reaches v (h.fld (kSnk (h.xpSnk x) 0) 7 0)
  h.modXp x fun e => { e with quiet := if hit then some 0 else e.quiet.map (· + 1) }

/-- HOLD has run out for a source: it stops being active. -/
def Hub.holdEnd (h : Hub) (x : Nat) : Hub := if h.xpActive x then h else h.modXp x fun e => { e with quiet := none }

/-- The level an entry's duck moves to: 0 dB, -DUCK dB, or off as -100 dB. -/
def Hub.duckTarget (h : Hub) (x : Nat) : Rat :=
  let s := h.xpSnk x
  match (h.snk s).level with
  | none => 0
  | some p => if h.xpPrio x < p then (if p = 7 then -100 else -(h.fld (kSnk s 0) 15 8 : Rat)) else 0

/-- The duck of an entry advances by one tick, toward its target. -/
def Hub.duckStep (h : Hub) (x : Nat) : Hub :=
  let s := h.xpSnk x
  let e := h.xp x
  let t := h.duckTarget x
  let d := h.slotDom s
  let move := match e.duckMove with
    | some (a, b, n, j) => if b = t then (if n ≤ j then none else some (a, b, n, j + 1)) else some (e.duck, t, 0, 0)
    | none => if e.duck = t then none else some (e.duck, t, 0, 0)
  let move := move.map fun m =>
    if m.2.2.1 = 0 then (m.1, t, max 1 (h.ticksOf d (if t = 0 then 10 * h.fld (kSnk s 2) 7 0 else h.fld (kSnk s 1) 7 0)), 1) else m
  let level := match move with
    | some (a, b, n, j) => if n ≤ j then b else a + (b - a) * j / n
    | none => e.duck
  h.modXp x fun e => { e with duckMove := move, duck := level }

/-- The active level of a sink at a tick, and entering and leaving emergency. -/
def Hub.levelStep (h : Hub) (d s : Nat) : Hub :=
  let old := (h.snk s).level
  let p := h.activeLevel s
  let h := h.modSnk s fun k => { k with level := p }
  let ev := fun (h : Hub) (x : Nat) => h.issue 161 1 s x ((h.dom d).tick.toNat % 65536)
  if p = some 7 ∧ old ≠ some 7 then ev (h.setFlag (kRtm 0xB002)) 1 else if p ≠ some 7 ∧ old = some 7 then ev h 0 else h

/-! ### The mix (R467, R475 to R478) -/

/-- The value that the mix takes from a slot of the last snapshot: a stream sample that has not resolved confirmed gives
its concealment value (R400, R476). -/
def Hub.mixValue (h : Hub) (s : Nat) : Int :=
  match h.busConf s with
  | some v => v
  | none => if h.slotType s = 4 then (lget 0 (h.ctxOf (h.slotUnit s / 8)).alt (h.slotUnit s % 8)).toInt else 0

/-- Has the route's ASRC channel fallen to 0: its source's domain has produced no ticks for 1 ms (R479). -/
def Hub.routeStill (h : Hub) (src snk : Nat) : Bool :=
  (h.asrcFor src (h.slotDom snk)).any fun c => decide (rateHz (h.dom (h.slotDom snk)).rate ≤ 1000 * tget (fun _ => 0) h.rtm.still c)

/-- What a source gives a sink: its sample, or the output of the route's ASRC channel, which is free until it has fallen to 0
(R479). -/
def Hub.routeValue (h : Hub) (src snk : Nat) : Hub × Int :=
  if h.slotDom src = h.slotDom snk then (h, h.mixValue src)
  else if h.routeStill src snk then (h, 0)
  else (h.tookFree, (BitVec.ofNat 24 h.freeVal).toInt)

/-- At a tick of domain `d` the channels into it count the ticks since their source's domain stopped (R479). -/
def Hub.asrcAge (h : Hub) (d : Nat) : Hub :=
  h.rtm.asrc.foldl (fun h e =>
    match e.2 with
    | some (src, t) =>
      if t ≠ d then h
      else
        let n := if (h.dom (h.slotDom src)).run then 0 else tget (fun _ => 0) h.rtm.still e.1 + 1
        { h with rtm := { h.rtm with still := tput (fun _ => 0) h.rtm.still e.1 n } }
    | none => h) h

/-- The contribution of an entry. -/
def Hub.contribution (h : Hub) (x : Nat) : Hub × Rat :=
  let e := h.xp x
  let s := h.xpSnk x
  let (h, v) := h.routeValue e.src s
  let (h, sum) := match e.fade with
    | none => (h, (v : Rat))
    | some (old, n, j) =>
      let (h, o) := h.routeValue old s
      (h, if j = 0 then (o : Rat) else if n ≤ j then (v : Rat) else (o : Rat) * Config.cosFade j n + (v : Rat) * Config.sinFade j n)
  (h, sum * e.a.val * (if e.duck ≤ -100 then 0 else ampDb e.duck))

/-- A peak history with one more magnitude; `n` ticks are kept. -/
def peakAdd (l : List (Nat × Nat)) (m n : Nat) : List (Nat × Nat) :=
  let l := (l.map fun e => (e.1 + 1, e.2)).filter fun e => decide (e.1 < n) && decide (m < e.2)
  if m = 0 then l else (0, m) :: l

/-- The peak as 0.5 dB below full scale (R482). -/
def peakCode (l : List (Nat × Nat)) : Nat :=
  let m := (l.map (·.2)).foldl max 0
  if m = 0 then 0xFF
  else
    let n := ((List.range 255).filter fun n => decide (m ^ 40 * 10 ^ n ≤ (2 ^ 230) ^ 4)).length
    let n := n - 1
    if m ^ 40 * 10 ^ n = (2 ^ 230) ^ 4 then n else if Config.roundUp m n then n + 1 else n

/-- NAGAPP in whole 0.1 dB; how it is rounded is open. -/
def Hub.appliedNag (h : Hub) (s : Nat) : Nat := (divOpen (h.snk s).nag.num (h.snk s).nag.den).toNat

/-- The mix of the last snapshot for a sink, published (R467, R475). -/
def Hub.mixSink (h : Hub) (d s : Nat) : Hub :=
  let xs := h.liveXps.filter fun x => h.xpSnk x == s
  let (h, sum) := xs.foldl (fun a x => let (h, v) := a.1.contribution x; (h, a.2 + v)) (h, (0 : Rat))
  let out := convergent (sum * ampDb ((h.snk s).nag / 10))
  let v := clampI (-(2 ^ 23)) (2 ^ 23 - 1) out
  let h := h.modSnk s fun k => { k with out := BitVec.ofInt 24 v }
  let h := { h with rtm := { h.rtm with peak := tput (fun _ => []) h.rtm.peak s (peakAdd (tget (fun _ => []) h.rtm.peak s) v.natAbs (h.ticksOf d 100)) } }
  if v = out then h
  else
    let h := h.addSat (kSnk s 12) 2 1
    let h := if h.flag (kRtm 0xB001) then h else h.setFlag (kRtm 0xB001)
    h.issueLimited s 162 1 s (h.reg (kSnk s 12)) (h.appliedNag s)

/-- The sink slots of a domain. -/
def Hub.sinksOf (h : Hub) (d : Nat) : List Nat := (h.slots).filter fun s => !isSource (h.slotType s) && h.slotDom s == d
/-- The source slots of a domain. -/
def Hub.sourcesOf (h : Hub) (d : Nat) : List Nat := (h.slots).filter fun s => isSource (h.slotType s) && h.slotDom s == d

/-- The peak history of a stream slot takes the sample of the last snapshot as it has resolved (R398, R400). -/
def Hub.envLate (h : Hub) (s : Nat) : Hub :=
  let m := (h.mixValue s).natAbs
  if h.slotType s ≠ 4 ∨ m = 0 then h
  else { h with rtm := { h.rtm with env := tput (fun _ => []) h.rtm.env s ((0, m) :: (tget (fun _ => []) h.rtm.env s).filter fun e => decide (m < e.2)) } }

/-- M(k-1) of a domain, computed from what has resolved by now, and published (R19, R467). -/
def Hub.publish (h : Hub) (d : Nat) : Hub :=
  let h := (h.sourcesOf d).foldl Hub.envLate (h.asrcAge d)
  let late := h.liveXps.filter fun x => h.slotDom (h.xpSnk x) == d && (h.xp x).quiet != some 0
  let h := late.foldl (fun h x =>
    if reaches (h.mixValue (h.xp x).src) (h.fld (kSnk (h.xpSnk x) 0) 7 0) then h.modXp x fun e => { e with quiet := some 0 } else h) h
  (h.sinksOf d).foldl (fun h s => h.mixSink d s) h

/-- The value a sink received last. -/
def Hub.sinkOut (h : Hub) (s : Nat) : BitVec 24 := if h.isSink s then (h.snk s).out else 0

/-- The applied noise-adaptive gain of a sink moves toward NAG by one tick (R478). -/
def Hub.nagStep (h : Hub) (s : Nat) : Hub :=
  let target : Rat := (h.fld (kSnk s 5) 8 0 : Nat)
  let step : Rat := (h.fld (kSnk s 7) 7 0 : Rat) / (rateHz (h.dom (h.slotDom s)).rate : Nat)
  h.modSnk s fun k => { k with nag := if k.nag < target then min target (k.nag + step) else max target (k.nag - step) }

/-- A write of a sink's word +5 by the host (R478). -/
def Hub.nagWrite (h : Hub) (s w : Nat) : Hub :=
  let nag := bits w 8 0
  if ! h.isSink s ∨ (bit (h.reg (kSnk s 5)) 15 ∧ nag ≠ h.fld (kSnk s 5) 8 0) then h.failWin 3 (0x9005 + 16 * s)
  else h.setReg (kSnk s 5) (putBits (if nag ≤ 240 then nag else h.fld (kSnk s 5) 8 0) 15 15 (bits w 15 15))

/-- Entries, levels and ducking of domain `d` at its tick, on the new snapshot (R468 to R473, R478). -/
def Hub.matrixTick (h : Hub) (d : Nat) : Hub :=
  let mine := fun (h : Hub) => h.liveXps.filter fun x => h.slotDom (h.xpSnk x) == d
  let fade := fun (h : Hub) (x : Nat) => h.modXp x fun e => { e with fade := e.fade.map fun f => (f.1, f.2.1, f.2.2 + 1) }
  let h := (mine h).foldl fade h
  let h := (mine h).foldl (fun h x => (h.rampEnd x).fadeEnd x) h
  let h := h.xpUpdate d
  let h := (mine h).foldl Hub.xpStep h
  let h := (mine h).foldl Hub.detect h
  let h := (h.sinksOf d).foldl (fun h s => h.levelStep d s) h
  let h := (mine h).foldl Hub.duckStep h
  let h := (h.sinksOf d).foldl Hub.nagStep h
  (h.sourcesOf d).foldl (fun h s =>
    { h with rtm := { h.rtm with env := tput (fun _ => []) h.rtm.env s
                                   (peakAdd (tget (fun _ => []) h.rtm.env s) ((h.busConf s).getD 0).natAbs (h.ticksOf d 2560)) } }) h

/-! ### What the words read as (R481, R482) -/

/-- Word `o` of crosspoint `x` that hardware gives. -/
def Hub.xpRead (h : Hub) (x o : Nat) : Nat :=
  let e := h.xp x
  let d := h.slotDom (h.xpSnk x)
  match o with
  | 4 => match e.a with
    | .lin a => if a = 0 then 0x8000 else wordOf (divOpen ((Amp.lin a).level * 10).num ((Amp.lin a).level * 10).den)
    | .db x => wordOf (divOpen (x * 10).num (x * 10).den)
  | 5 =>
    let ch := if h.slotDom e.src = d ∨ ¬ (e.valid ∨ e.removing) then none else h.asrcFor e.src d
    flagAt e.removing 15 + flagAt e.fade.isSome 14 + flagAt (e.duck != 0) 13 + flagAt e.heldSrc.isSome 12 + flagAt ch.isSome 11 + ch.getD 0
  | 6 => e.heldSrc.getD 0
  | _ => 0

/-- Word `o` of a sink that hardware gives. -/
def Hub.snkRead (h : Hub) (s o : Nat) : Nat :=
  let k := h.snk s
  match o with
  | 6 => h.appliedNag s
  | 8 => flagAt (k.level == some 7) 4 + flagAt k.level.isSome 3 + k.level.getD 0
  | 9 => (h.liveXps.filter fun x => h.xpSnk x == s).length
  | 10 => peakCode (tget (fun _ => []) h.rtm.peak s)
  | _ => 0

/-- RTM_EMERG: the domains with a sink in emergency. -/
def Hub.emergency (h : Hub) (d : Nat) : Bool := (h.sinksOf d).any fun s => (h.snk s).level == some 7

end Sys2Proof.Machine
end

