-- ==== Sys2Proof/Machine/Aes.lean ====
section
/-! DEFINITION. Aes.lean: the AES3 ports (R406 to R427). -/

namespace Sys2Proof.Machine

/-- Word `o` of AES3 input `i`, and of AES3 output `x` (R429). -/
def kAin (i o : Nat) : Nat := spc 0x25 (0x100 * i + o)
def kAout (x o : Nat) : Nat := spc 0x25 (0x200 + 0x100 * x + o)
/-- The CC registers from 0x0400 on: LOCKL, ERR, CS, OSTOP by port, REFUSE. -/
def kAesFlag (j : Nat) : Nat := spc 0x25 (0x400 + j)

def Hub.ain (h : Hub) (i : Nat) : AesIn := h.aesIn.get {} i
def Hub.modAin (h : Hub) (i : Nat) (f : AesIn → AesIn) : Hub := { h with aesIn := h.aesIn.mod i f }
def Hub.aout (h : Hub) (o : Nat) : AesOut := h.aesOut.get {} o
def Hub.modAout (h : Hub) (o : Nat) (f : AesOut → AesOut) : Hub := { h with aesOut := h.aesOut.mod o f }

/-- A channel of an input: 0 A, 1 B. -/
def AesIn.ch (x : AesIn) (c : Nat) : AesCh := if c = 0 then x.a else x.b
def AesIn.modCh (x : AesIn) (c : Nat) (f : AesCh → AesCh) : AesIn := if c = 0 then { x with a := f x.a } else { x with b := f x.b }

/-- Counter `j` of an input: LOCKLOSS, PARITY, VIOL, CRCC, VBIT, REPEAT, SKIP. -/
def Hub.ainCnt (h : Hub) (i j n : Nat) : Hub := h.addSat (kAin i (0x10 + 2 * j)) 2 n

/-- DOM of an input, and a channel's source slot. -/
def Hub.ainDom (h : Hub) (i : Nat) : Nat := h.fld (0x42 + i) 13 12
def Hub.ainSlot (h : Hub) (i c : Nat) : Nat := h.fld (kAin i c) 8 0

/-! ### Rate classes (R406, R407) -/

/-- Nominal frame rates of the classes 1 to 5. -/
def aesNominal (c : Nat) : Nat := [0, 32000, 44100, 48000, 88200, 96000].getD c 0
/-- The class of a frame rate in 1/16 Hz: within 1,000 ppm of a nominal rate; 0 for none. -/
def aesClass (r : Nat) : Nat :=
  ((List.range 6).find? fun c => c != 0 && decide (1000 * ((r : Int) - 16 * aesNominal c).natAbs ≤ 16 * aesNominal c)).getD 0
/-- The class of a domain's rate code. -/
def classOfRate (rate : Nat) : Nat := [0, 0, 1, 2, 3, 4, 5].getD rate 0

/-! ### Received blocks (R417 to R420) -/

/-- The CRCC over the first 184 bits, in the bit order of byte 23 (R418). -/
def crcc (l : List Bool) : Nat :=
  let r := (l.take 184).foldl (fun c x => crcBit 8 0x1D c x) 0xFF
  (List.range 8).foldl (fun a i => a + (if bit r (7 - i) then 2 ^ i else 0)) 0

/-- Byte `m` of a block, bit 0 first. -/
def bitsByte (l : List Bool) (m : Nat) : Nat := (List.range 8).foldl (fun a i => a + (if lget false l (8 * m + i) then 2 ^ i else 0)) 0
/-- A block as 24 bytes, and as 12 words (R417). -/
def blockBytes (l : List Bool) : List Nat := (List.range 24).map (bitsByte l)
def Hub.putBlock (h : Hub) (k : Nat) (b : List Nat) : Hub := iter 12 (fun i h => h.setReg (k + i) (lget 0 b (2 * i) + 256 * lget 0 b (2 * i + 1))) h

/-- What CS_CHANGED compares: bytes 0 to 17 and 22. -/
def csShape (b : List Nat) : List Nat := b.take 18 ++ [lget 0 b 22]

/-- RX_ERROR (R412, R418): 1 parity, 2 violation, 3 CRCC. -/
def Hub.rxError (h : Hub) (i c cause : Nat) : Hub :=
  let h := (h.ainCnt i cause 1).setFlag (kAesFlag (2 + i))
  h.issueLimited cause (112 + i) 5 cause c (h.reg (kAin i (0x10 + 2 * cause)))

/-- The channel-status and user bits of a block that has ended, of one channel (R418, R420). -/
def Hub.blockDone (h : Hub) (i c : Nat) : Hub :=
  let x := h.ain i
  let ch := x.ch c
  if ! x.asm ∨ ch.cs.length ≠ 192 then h
  else
    let b := blockBytes ch.cs
    let pro := lget false ch.cs 0
    let h := if ch.bad then h else (h.putBlock (kAin i (0x60 + 16 * c)) (blockBytes ch.user)).addWrap (kAin i (6 + c)) 1 1
    if pro ∧ ¬ bit (h.reg (0x42 + i)) 10 ∧ crcc ch.cs ≠ lget 0 b 23 then h.rxError i c 3
    else if ch.bad then h
    else
      let h := (h.putBlock (kAin i (0x40 + 16 * c)) b).addWrap (kAin i (4 + c)) 1 1
      let changed := ch.prev.map csShape != some (csShape b)
      let h := h.modAin i fun x =>
        let x := x.modCh c fun k => { k with prev := some b }
        if c = 0 then { x with pro := pro, nonaudio := lget false ch.cs 1 } else x
      if changed then (h.setFlag (kAesFlag (4 + i))).issueLimited (16 + c) (112 + i) 4 c (h.reg (kAin i (4 + c))) (b2n pro) else h

/-! ### Lock (R407 to R411, R415) -/

/-- AES_RATE: the mean over the last 16 complete blocks (R410). -/
def Hub.aesRate (h : Hub) (i : Nat) : Hub :=
  let l := (h.ain i).rates
  h.setRegN (kAin i 2) 2 (if l.isEmpty then 0 else (divOpen (l.sum : Nat) l.length).toNat)

/-- A locked input loses lock, and with it its reference (R408, R411, R415). -/
def Hub.aesUnlock (h : Hub) (i cause : Nat) : Hub :=
  let x := h.ain i
  if ! x.lock ∨ cause = 0 then h
  else
    let h := (h.ainCnt i 0 1).setFlag (kAesFlag i)
    let h := h.issueLimited 32 (112 + i) 2 cause x.cls (h.reg (kAin i 0x10))
    (h.modAin i fun x => { x with
      lock := false, cls := 0, last := 0, rates := [], asm := false, down := 0, up := 0, mis := false,
      a := { x.a with prev := none, held := x.a.out }, b := { x.b with prev := none, held := x.b.out } }).aesRate i
      |>.refGone (1 + i) 1

/-- An input with complete blocks locks, and presents its reference (R407, R411). -/
def Hub.aesLock (h : Hub) (i rate : Nat) : Hub :=
  let h := (h.modAin i fun x => { x with
    lock := true, cls := aesClass rate, last := aesClass rate, rates := [rate], asm := true, up := 0,
    a := { x.a with prev := none }, b := { x.b with prev := none } }).aesRate i
  (h.issue (112 + i) 1 (aesClass rate) (h.reg (kAin i 3)) ((h.ain i).asrc.getD 0xFFFF)).refAppears (1 + i)

/-- A locked input changes its class: its reference breaks cause 4 and qualifies afresh (R409, R411). -/
def Hub.aesReclass (h : Hub) (i c : Nat) : Hub :=
  let old := (h.ain i).cls
  let h := (h.modAin i fun x => { x with cls := c }).issue (112 + i) 3 old c 0
  (h.refGone (1 + i) 4).refAppears (1 + i)

/-- A block of 192 frames completes: `aligned` says that its Z preambles lie exactly 192 frames apart, `alternating` that X
and Y alternated between them, which only locking asks for (R407 to R409). -/
def Hub.aesBlockEnd (h : Hub) (i rate : Nat) (aligned alternating : Bool) : Hub :=
  let x := h.ain i
  if ! x.en then h
  else
    let c := aesClass rate
    let h := if ! x.lock then (if aligned && alternating && c != 0 then h.aesLock i rate else h)
      else if ! aligned then h.aesUnlock i 3
      else
        let h := ((h.blockDone i 0).blockDone i 1).modAin i fun x => { x with asm := true, rates := (rate :: x.rates).take 16 }
        let h := h.aesRate i
        if c = 0 ∧ x.last = 0 then h.aesUnlock i 2
        else
          let h := h.modAin i fun x => { x with last := c }
          if c ≠ 0 ∧ c = x.last ∧ c ≠ x.cls then h.aesReclass i c else h
    h.modAin i fun x => { x with a := { x.a with cs := [], user := [], bad := false, vLast := x.a.v, v := false },
                                 b := { x.b with cs := [], user := [], bad := false, vLast := x.b.v, v := false } }

/-! ### Subframes (R412) -/

/-- A received subframe of channel `c`. -/
def Hub.aesSubframe (h : Hub) (i c : Nat) (w : BitVec 24) (v u s parity viol : Bool) : Hub :=
  let x := h.ain i
  if ! x.en then h
  else
    let cfg := h.reg (0x42 + i)
    let err := parity || viol
    let h := if parity then h.rxError i c 1 else h
    let h := if viol then h.rxError i c 2 else h
    let h := if v then h.ainCnt i 4 1 else h
    let h := if x.lock ∧ c = 1 then h.addWrap (kAin i 8) 3 1 else h
    let swap := err || (v && bit cfg 9)
    h.modAin i fun x => x.modCh c fun k =>
      { k with word := if swap then (if bit cfg 8 then 0 else k.good) else w, good := if swap then k.good else w, done := k.done + 1,
               cs := k.cs ++ [s], user := k.user ++ [u], bad := k.bad || err, v := k.v || v }

/-! ### Input configuration (R427) -/

/-- Is a channel's slot allocated to it in domain `d`. -/
def Hub.ainSlotOk (h : Hub) (i d c : Nat) : Bool := h.slotIs (h.ainSlot i c) 3 (2 * i + c) && h.slotDom (h.ainSlot i c) == d

/-- An input's ASRC channel is freed. -/
def Hub.ainFree (h : Hub) (i : Nat) : Hub :=
  match (h.ain i).asrc with
  | none => h
  | some c => (h.setReg (kAsrc c) 0).modAin i fun x => { x with asrc := none }

/-- A write of AES_ICFGi; a disable takes the input's reference with it (R411, R427). -/
def Hub.icfgWrite (h : Hub) (i raw : Nat) : Hub :=
  let w := bits raw 15 12 * 4096 + bits raw 10 8 * 256
  let old := h.reg (0x42 + i)
  let d := bits w 13 12
  let chg := bits w 14 12 ≠ bits old 14 12
  let up := bit w 15 ∧ ¬ bit old 15
  let cause : Option Nat :=
    if ! (decide up || decide chg) then none
    else if bit old 15 ∧ chg then some 1
    else if ! (h.dom d).en then some 2
    else if ! h.ainSlotOk i d 0 ∨ ! h.ainSlotOk i d 1 then some 3
    else if bit w 14 ∧ h.asrcFree.isNone then some 4
    else none
  match cause with
  | some c => (h.setFlag (kAesFlag 8)).issue (112 + i) 6 c raw 0
  | none =>
    let h := h.setReg (0x42 + i) w
    if up then
      let h := match bit w 14, h.asrcFree with
        | true, some c => (h.setReg (kAsrc c) 0x4000).modAin i fun x => { x with asrc := some c }
        | _, _ => h
      h.modAin i fun x => { x with starting := true }
    else if ¬ bit w 15 ∧ bit old 15 then
      ((h.ainFree i).modAin i fun _ => {}).refGone (1 + i) 1
    else h

/-! ### Inputs at a tick (R413 to R416) -/

/-- What a channel's slot carries at a tick of its domain. -/
def Hub.ainSample (h : Hub) (i c : Nat) : Hub × BitVec 24 :=
  let x := h.ain i
  let k := x.ch c
  let n := rateHz (h.dom (h.ainDom i)).rate / 1000
  if ! x.en then (h, 0)
  else if ! x.lock then (h, if x.down < n then scale24 k.held (n - (x.down + 1)) n else 0)
  else if x.mis ∨ (bit (h.reg (0x42 + i)) 14 ∧ x.nonaudio) then (h, 0)
  else
    let (h, v) := if bit (h.reg (0x42 + i)) 14 then (h.tookFree, BitVec.ofNat 24 h.freeVal) else (h, k.word)
    (h, if x.up + 1 < n then scale24 v (x.up + 1) n else v)

/-- An input's slots enter S(k). -/
def Hub.ainTick (h : Hub) (i : Nat) : Hub :=
  let x := h.ain i
  let d := h.ainDom i
  let h := if x.starting then h.modAin i fun x => { x with en := true, starting := false } else h
  let x := h.ain i
  let direct := !bit (h.reg (0x42 + i)) 14
  let mis := x.lock && direct && x.cls != classOfRate (h.dom d).rate
  let h := h.modAin i fun y => { y with mis := mis, up := if x.mis && !mis then 0 else y.up }
  let count := fun (h : Hub) (c : Nat) =>
    let n := ((h.ain i).ch c).done
    if x.lock && direct && !mis && x.en then (if n = 0 then h.ainCnt i 5 1 else h.ainCnt i 6 (n - 1)) else h
  let h := count (count h 0) 1
  let put := fun (h : Hub) (c : Nat) =>
    let (h, v) := h.ainSample i c
    let h := h.modAin i fun y => y.modCh c fun k => { k with out := v, done := 0 }
    if h.ainSlotOk i d c then { h with bus := tput (fun _ => {}) h.bus (h.ainSlot i c) { v := v } } else h
  let h := put (put h 0) 1
  h.modAin i fun y => { y with up := satN 0xFFFF (y.up + b2n (y.lock && !y.mis)), down := satN 0xFFFF (y.down + b2n (!y.lock)) }

/-- AES_ISTATi (R428). -/
def Hub.aesIstat (h : Hub) (i : Nat) : Nat :=
  let x := h.ain i
  flagAt x.lock 15 + x.cls * 4096 + flagAt x.pro 11 + flagAt x.nonaudio 10 + flagAt x.a.vLast 9 + flagAt x.b.vLast 8 +
    flagAt (x.en && bit (h.reg (0x42 + i)) 14 && x.nonaudio) 7 + flagAt x.mis 6 + flagAt x.asrc.isSome 5 + x.asrc.getD 0

/-! ### Outputs (R421 to R425) -/

/-- The clock output of output `o`, and its domain. -/
def Hub.aoutClk (h : Hub) (o : Nat) : ClkOut := h.clko (4 + o)
/-- The divider that a domain's rate needs; none for a rate that drives no output (R421). -/
def aesDivider (rate : Nat) : Option Nat := match rate with
  | 2 => some 48
  | 3 => some 32
  | 4 => some 32
  | 5 => some 16
  | 6 => some 16
  | _ => none

/-- Do N and HALF give 128 × the rate of the domain. -/
def Hub.aoutMatches (h : Hub) (o : Nat) : Bool :=
  let k := h.aoutClk o
  aesDivider (h.dom k.dom).rate == some k.n && !k.half

/-- Sink slot of a channel of an output. -/
def Hub.aoutSlot (h : Hub) (o c : Nat) : Nat := h.fld (kAout o c) 8 0
def Hub.aoutSlotOk (h : Hub) (o c : Nat) : Bool :=
  h.slotIs (h.aoutSlot o c) 7 (2 * o + c) && h.slotDom (h.aoutSlot o c) == (h.aoutClk o).dom

/-- A write of AES_OCFGo (R422, R424). -/
def Hub.ocfgWrite (h : Hub) (o w : Nat) : Hub :=
  let w := bits w 15 12 * 4096
  let old := h.reg (0x44 + o)
  let k := h.aoutClk o
  if bit w 15 ∧ ¬ bit old 15 then
    let cause : Option Nat :=
      if ! k.en then some 1 else if ! h.aoutMatches o then some 2 else if ! h.aoutSlotOk o 0 ∨ ! h.aoutSlotOk o 1 then some 3 else none
    match cause with
    | some c => (h.setFlag (kAesFlag 8)).issue (114 + o) 3 c k.n (h.dom k.dom).field
    | none => (h.setReg (0x44 + o) w).modAout o fun x => { x with starting := true, stopping := false }
  else
    let h := h.setReg (0x44 + o) w
    if ¬ bit w 15 ∧ bit old 15 then h.modAout o fun x => { x with starting := false, stopping := x.run } else h

/-- A running output stops: 1 clock stopped, 2 clock no longer matches, 3 disabled (R424). -/
def Hub.aoutStop (h : Hub) (o cause : Nat) : Hub :=
  let h := h.modAout o fun x => { x with run := false, stopping := false, sent := [] }
  (if cause = 3 then h else h.setFlag (kAesFlag (6 + o))).issue (114 + o) 2 cause (h.aoutClk o).dom 0

/-- An output whose clock stops or no longer matches stops; EN stays. -/
def Hub.aoutCheck (h : Hub) (o : Nat) : Hub :=
  if ! (h.aout o).run then h
  else if ! (h.aoutClk o).run then h.aoutStop o 1
  else if ! h.aoutMatches o then h.aoutStop o 2
  else h

/-- Time slots 4 to 31 of a subframe: sample, V, U, C and even parity (R423). -/
def subframe (v : BitVec 24) (vb u c : Bool) : BitVec 28 :=
  let n := v.toNat + flagAt vb 24 + flagAt u 25 + flagAt c 26
  let ones := ((List.range 27).filter fun i => bit n i).length
  BitVec.ofNat 28 (n + flagAt (ones % 2 == 1) 27)

/-- The channel-status words that a block sends: byte 23 is the CRCC where AUTOCRC and bit 0 are 1 (R425). -/
def csSend (auto : Bool) (ws : List Word) : List Word :=
  let n := fun i => (lget 0 ws i).toNat
  if auto && bit (n 0) 0 then
    let l := (List.range 192).map fun i => bit (n (i / 16)) (i % 16)
    ws.take 11 ++ [BitVec.ofNat 16 (n 11 % 256 + 256 * crcc l)]
  else ws

/-- The words in force of a 12-word buffer. -/
def Hub.buffer12 (h : Hub) (k : Nat) : List Word := (List.range 12).map fun i => tget resetWord h.force (k + i)

/-- The frame that starts at a tick of the output's domain (R423, R425). -/
def Hub.aoutFrame (h : Hub) (o : Nat) : Hub :=
  let cfg := h.reg (0x44 + o)
  let x := h.aout o
  let cs := if x.pos = 0 then (List.range 2).map fun c => csSend (bit cfg 12) (h.buffer12 (kAout o (0x40 + 16 * c))) else x.cs
  let user := if x.pos = 0 then (List.range 2).map fun c => h.buffer12 (kAout o (0x60 + 16 * c)) else x.user
  let b := fun (l : List (List Word)) (c : Nat) => bit (lget 0 (lget [] l c) (x.pos / 16)).toNat (x.pos % 16)
  let sub := fun c => subframe (h.sinkOut (h.aoutSlot o c)) (bit cfg (14 - c)) (b user c) (b cs c)
  (h.addWrap (kAout o 8) 3 1).modAout o fun x => { x with cs := cs, user := user, sent := [sub 0, sub 1], pos := (x.pos + 1) % 192 }

/-- An output at a tick of its domain: it stops, starts or sends a frame. -/
def Hub.aoutTick (h : Hub) (o : Nat) : Hub :=
  let h := if (h.aout o).run ∧ (h.aout o).stopping then h.aoutStop o 3 else h.aoutCheck o
  let x := h.aout o
  let k := h.aoutClk o
  if x.run then h.aoutFrame o
  else if bit (h.reg (0x44 + o)) 15 ∧ k.run ∧ h.aoutMatches o then
    ((h.modAout o fun x => { x with run := true, starting := false, pos := 0 }).issue (114 + o) 1 k.dom ((h.dom k.dom).tick.toNat % 65536) k.n).aoutFrame o
  else h

end Sys2Proof.Machine
end

