-- ==== Sys2Proof/Machine/Aio.lean ====
section
/-! DEFINITION. Aio.lean: analog inputs, train-line ports, the Caption Data Carrier, amplifier channels, field inputs and
outputs (R430 to R461). -/

namespace Sys2Proof.Machine

/-- SYS_START.PHASE, the phase reached (R591). -/
def Hub.phase (h : Hub) : Nat := h.fld 0x04 15 12
def Hub.toPhase (h : Hub) (n : Nat) : Hub := if h.phase < n then h.setFld 0x04 15 12 n else h

/-- Words of an analog input, an amplifier channel, a train-line port, a field input and a field output (R464). -/
def kAdc (n o : Nat) : Nat := spc 0x3F (0x800 + 8 * n + o)
def kAmp (n o : Nat) : Nat := spc 0x3F (0x880 + 16 * n + o)
def kTl (t o : Nat) : Nat := spc 0x3F (0x900 + 16 * t + o)
def kCdcRx (t o : Nat) : Nat := spc 0x3F (0x980 + 0x40 * t + o)
def kCdcTx (t o : Nat) : Nat := spc 0x3F (0xA00 + 0x40 * t + o)
def kFin (i o : Nat) : Nat := spc 0x3F (0xB00 + 4 * i + o)
def kFout (x o : Nat) : Nat := spc 0x3F (0xB40 + 4 * x + o)
/-- The CC registers: CLIP, BIAS, TLRLY, CDC, AMP, PAR, FIN, FOUT, REFUSE. -/
def kAioFlag (j : Nat) : Nat := spc 0x3F (0xB80 + j)

def Hub.modAio (h : Hub) (f : Aio → Aio) : Hub := { h with aio := f h.aio }
def Hub.adc (h : Hub) (n : Nat) : Adc := h.aio.adc.get {} n
def Hub.modAdc (h : Hub) (n : Nat) (f : Adc → Adc) : Hub := h.modAio fun a => { a with adc := a.adc.mod n f }
def Hub.tl (h : Hub) (t : Nat) : TrainLine := h.aio.tl.get {} t
def Hub.modTl (h : Hub) (t : Nat) (f : TrainLine → TrainLine) : Hub := h.modAio fun a => { a with tl := a.tl.mod t f }
def Hub.ampCh (h : Hub) (n : Nat) : AmpCh := h.aio.amp.get {} n
def Hub.modAmp (h : Hub) (n : Nat) (f : AmpCh → AmpCh) : Hub := h.modAio fun a => { a with amp := a.amp.mod n f }

/-! ### Enables (R430, R431) -/

/-- Why a unit with clock output `m` and a slot of TYPE `ty` is refused: 1 the clock, 2 the slot. -/
def Hub.enableRefused (h : Hub) (m slot ty u : Nat) : Option Nat :=
  let k := h.clko m
  if ! k.en then some 1
  else if h.slotIs slot ty u ∧ h.slotDom slot = k.dom then none
  else some 2

/-- A write of AIO_INEN. -/
def Hub.inenWrite (h : Hub) (w : Nat) : Hub :=
  iter 8 (fun n h =>
    if bit w n = bit (h.reg 0x48) n then h
    else if ! bit w n then h.setFld 0x48 n n 0
    else
      let slot := h.fld (kAdc n 1) 8 0
      match h.enableRefused (n / 4) slot 1 n with
      | some c => (h.setFlag (kAioFlag 8)).issue (120 + n) 3 c slot 0
      | none => h.setFld 0x48 n n 1) h

/-- A write of AIO_TLCTL.EN. -/
def Hub.tlEnable (h : Hub) (w : Nat) : Hub :=
  iter 2 (fun t h =>
    if bit w t = bit (h.reg 0x4A) t then h
    else if ! bit w t then h.setFld 0x4A t t 0
    else
      let rx := h.fld (kTl t 0) 8 0
      let tx := h.fld (kTl t 1) 8 0
      let refuse := fun (c slot : Nat) => (h.setFlag (kAioFlag 8)).issue (128 + t) 5 c slot 0
      match h.enableRefused 3 rx 2 t, h.enableRefused 3 tx 6 t with
      | some c, _ => refuse c rx
      | none, some c => refuse c tx
      | none, none => h.setFld 0x4A t t 1) h

/-! ### Inputs (R433 to R437) -/

/-- A write of an input's CFG word: MODE 3 is ignored, a GAIN above 60 leaves GAIN; MODE 2 switches the bias on and
starts its checks afresh. -/
def Hub.adcCfg (h : Hub) (n w : Nat) : Hub :=
  let mode := bits w 13 12
  if mode = 3 then h
  else
    let gain := if 60 < bits w 5 0 then h.fld (kAdc n 0) 5 0 else bits w 5 0
    ((h.calHitMic n).setReg (kAdc n 0) (mode * 4096 + gain)).modAdc n fun a => { a with bias := mode == 2, low := 0, biasf := false }

/-- A write of an input's CFG word that keeps MODE. -/
def Hub.gainWrite (h : Hub) (n g : Nat) : Hub := h.adcCfg n (bits (h.reg (kAdc n 0)) 13 12 * 4096 + g)

/-- One step of 1 dB toward a target. -/
def stepTo (x t : Nat) : Nat := if x < t then x + 1 else x - b2n (decide (t < x))

/-- The applied gain of an input, or of the receive of train-line port u - 8, steps (R434, R438). -/
def Hub.gainStep (h : Hub) (u : Nat) : Hub :=
  if u < 8 then h.setReg (kAdc u 3) (stepTo (h.fld (kAdc u 3) 5 0) (h.fld (kAdc u 0) 5 0))
  else h.modTl (u - 8) fun t => { t with gain := stepTo t.gain (h.fld (kTl (u - 8) 2) 4 0) }

/-- A bias check every 10 ms; `limit` says that the current stood at its limit for the 10 ms (R436). -/
def Hub.biasCheck (h : Hub) (n ua : Nat) (limit : Bool) : Hub :=
  let a := h.adc n
  if h.fld (kAdc n 0) 13 12 ≠ 2 ∨ ¬ a.bias then h
  else
    let h := h.setReg (kAdc n 5) ua
    let low := if ua < 50 then a.low + 1 else 0
    let fault := fun (kind : Nat) (on : Bool) =>
      ((h.modAdc n fun a => { a with bias := on, low := low, biasf := true }).setFlag (kAioFlag 1)).issue (120 + n) 2 kind ua 0
    if limit then fault 2 false
    else if low = 10 then fault 1 true
    else h.modAdc n fun a => { a with low := low }

/-- Does a magnitude reach NEARTH, in 0.5 dB steps below full scale (R435). -/
def nearReach (v : Int) (t : Nat) : Bool := decide ((2 ^ 230) ^ 4 ≤ v.natAbs ^ 40 * 10 ^ t)

/-- A sample of an input enters its slot with OFST applied; clip detection (R435, R437). A sum outside 24 bits is free. -/
def Hub.adcSample (h : Hub) (n : Nat) (raw : BitVec 24) (overload : Bool) : Hub :=
  let slot := h.fld (kAdc n 1) 8 0
  if ! bit (h.reg 0x48) n ∨ ¬ (h.clko (n / 4)).run ∨ h.slotDom slot ≠ (h.clko (n / 4)).dom then h
  else
    let v := raw.toInt + s16 (h.reg (kAdc n 4)) * 256
    let (h, x) : Hub × BitVec 24 := if -(2 ^ 23) ≤ v ∧ v < 2 ^ 23 then (h, BitVec.ofInt 24 v) else (h.tookFree, BitVec.ofNat 24 h.freeVal)
    let h := { h with bus := tput (fun _ => {}) h.bus slot { v := x } }
    let level := decide (0x7F0000 ≤ x.toInt.natAbs)
    let h := if nearReach x.toInt (h.fld (kAdc n 2) 7 0) then h.modAdc n fun a => { a with near := true } else h
    if ! (overload || level) then h
    else if (h.adc n).clip then h
    else
      let h := ((h.modAdc n fun a => { a with clip := true }).setFlag (kAioFlag 0)).addSat (kAdc n 6) 2 1
      h.issueLimited n (120 + n) 1 (h.fld (kAdc n 3) 5 0) (if overload then 1 else 2) 0

/-- CLIP or NEAR clears 100 ms after the last sample that caused it. -/
def Hub.clipEnd (h : Hub) (n : Nat) (near : Bool) : Hub :=
  h.modAdc n fun a => if near then { a with near := false } else { a with clip := false }

/-! ### The train-line relay (R439) -/

def Hub.tlRelayOpen (h : Hub) (cause : Nat) : Hub :=
  h.modAio fun a => { a with tlRelay := { a.tlRelay with closed := false, cause := cause, moving := true } }
def Hub.tlRelayClose (h : Hub) (cause : Nat) : Hub :=
  h.modAio fun a => { a with tlRelay := { a.tlRelay with closed := true, cause := cause, moving := true } }
/-- The train-line relay's open command, given only from the train-line start-up point on (R592). -/
def Hub.tlOpen (h : Hub) (cause : Nat) : Hub := if 8 ≤ h.phase then h.tlRelayOpen cause else h

def Hub.tlRelayChanged (h : Hub) (sensed : Bool) : Hub :=
  let h := h.modAio fun a => { a with tlRelay := { a.tlRelay with moving := false, sensed := sensed } }
  (h.setFld 0x4B 15 15 (b2n sensed)).issue 130 2 (b2n sensed) h.aio.tlRelay.cause 0
def Hub.tlRelayFault (h : Hub) : Hub :=
  let r := h.aio.tlRelay
  if r.sensed = r.closed then h else (h.setFlag (kAioFlag 2)).issueLimited 0 130 1 (b2n r.closed) (b2n r.sensed) 0

/-- A write of AIO_TLCTL. -/
def Hub.tlctlWrite (h : Hub) (w : Nat) : Hub :=
  let old := h.reg 0x4A
  let h := h.setReg 0x4A (putBits (bits w 15 15 * 0x8000 + bits w 9 8 * 256 + bits w 5 4 * 16 + bits w 3 2 * 4) 1 0 (bits old 1 0))
  let h := if bits old 15 15 = bits w 15 15 then h else if bit w 15 then h.tlRelayClose 2 else h.tlOpen 2
  h.tlEnable (bits w 1 0)

/-- Is port `t` joined to a line of its own or, for port 0, to the joined pair. -/
def Hub.tlLive (h : Hub) (t : Nat) : Bool := bit (h.reg 0x4A) t && (t == 0 || !h.aio.tlRelay.sensed)

/-- A received train-line sample enters its slot; port 1 carries 0 while the relay is closed. -/
def Hub.tlSample (h : Hub) (t : Nat) (raw : BitVec 24) : Hub :=
  let slot := h.fld (kTl t 0) 8 0
  if ! bit (h.reg 0x4A) t ∨ ¬ (h.clko 3).run ∨ h.slotDom slot ≠ (h.clko 3).dom then h
  else { h with bus := tput (fun _ => {}) h.bus slot { v := if h.tlLive t then raw else 0 } }

/-- The next value of a rise over 1 ms after a clock restart (R432). -/
def riseStep (run : Bool) (rate : Nat) (r : Rat) : Rat := if run then min 1 (r + 1000 / (rateHz rate : Nat)) else 0

/-- A 24-bit sample times a factor between 0 and 1. -/
def scaleRat (v : BitVec 24) (f : Rat) : BitVec 24 :=
  if f = 1 then v else if f = 0 then 0 else BitVec.ofInt 24 (divOpen (v.toInt * f.num) f.den)

/-- A train-line send at a tick of its clock's domain; with the carrier on, what is sent is free (R432, R442). -/
def Hub.tlSend (h : Hub) (t : Nat) : Hub :=
  let k := h.clko 3
  let r := riseStep k.run (h.dom k.dom).rate (h.tl t).rise
  let on := h.tlLive t && k.run
  let cdc := bit (h.reg 0x4A) (4 + t)
  let v := h.sinkOut (h.fld (kTl t 1) 8 0)
  let h := h.modTl t fun x => { x with rise := r, out := if ! on then 0 else if cdc then BitVec.ofNat 24 h.freeVal else scaleRat v r }
  if on && cdc then h.tookFree else h

/-! ### The Caption Data Carrier (R440 to R444) -/

/-- The CRC of a message over TYPE, LEN and the body (R96, R441). -/
def cdcCrc (b : List Byte) : Nat := crcBytes 16 0x1021 0xFFFF b

/-- The bits of a byte, most significant first. -/
def byteBits (b : Byte) : List Bool := (List.range 8).map fun i => b.getMsbD i

/-- The K = 7 rate-1/2 code from state 0: generators 0o165 for c0 and 0o123 for c1 (R441). -/
def convEncode (bits : List Bool) : List (Bool × Bool) :=
  (bits.foldl (fun (a : Nat × List (Bool × Bool)) x =>
    let r := (if x then 64 else 0) + a.1
    let par := fun (g : Nat) => ((List.range 7).filter fun i => bit (r &&& g) i).length % 2 == 1
    (r / 2, a.2 ++ [(par 0o165, par 0o123)])) (0, [])).2

/-- The symbols of a transmission: preamble, unique word, coded part (R440, R441). -/
def cdcSymbols (m : CdcTx) : List (Bool × Bool) :=
  let msg := m.ty :: BitVec.ofNat 8 m.body.length :: m.body
  let info := (msg ++ beBytes 2 (cdcCrc msg)).flatMap byteBits ++ List.replicate 6 false
  let uw := (beBytes 4 0x4C569A3E).flatMap byteBits
  ((List.range 48).map fun i => (i % 2 == 1, i % 2 == 1)) ++
    ((List.range 16).map fun i => (lget false uw (2 * i), lget false uw (2 * i + 1))) ++ convEncode info

/-- A write of AIO_CDCCMD (R444). -/
def Hub.cdcCommand (h : Hub) (w : Nat) : Hub :=
  let t := bits w 8 8
  let len := bits w 6 0
  if bits w 15 12 ≠ 0xA then h
  else
    let cause : Option Nat :=
      if len = 0 ∨ 64 < len then some 1
      else if (h.tl t).tx.isSome then some 2
      else if ! bit (h.reg 0x4A) (4 + t) ∨ ! h.tlLive t then some 3
      else none
    match cause with
    | some c => h.issue (128 + t) 4 c w 0
    | none => h.modTl t fun x => { x with tx := some { ty := BitVec.ofNat 8 (h.reg (kCdcTx t 0)), body := h.wordBytes (kCdcTx t 1) len } }

/-- The preamble starts: the symbols of the whole transmission are fixed. -/
def Hub.cdcStart (h : Hub) (t : Nat) : Hub :=
  h.modTl t fun x => match x.tx with
    | some m => if m.started then x else { x with tx := some { m with started := true }, symbols := cdcSymbols m }
    | none => x

/-- The last tail symbol ends: TXBUSY clears. -/
def Hub.cdcDone (h : Hub) (t : Nat) : Hub :=
  match (h.tl t).tx with
  | some m =>
    if m.started then (h.modTl t fun x => { x with tx := none }).issue (128 + t) 3 m.ty.toNat m.body.length (h.stamp.toNat % 65536) else h
  | none => h

/-- A message fails: 1 CRC, 2 carrier lost, 3 LEN (R443). -/
def Hub.cdcFail (h : Hub) (t cause : Nat) : Hub :=
  let h := (h.addSat (kTl t 6) 2 1).setFlag (kAioFlag 3)
  h.issueLimited t (128 + t) 2 cause (h.reg (kTl t 6)) 0

/-- A message as decoded, TYPE, LEN, body and CRC: accepted into the receive buffer, or failed; with its bytes where it is
accepted (R442, R443). -/
def Hub.cdcReceive (h : Hub) (t : Nat) (b : List Byte) (lost : Bool) : Hub × Option (List Byte) :=
  let len := byteAt b 1
  if ! bit (h.reg 0x4A) (8 + t) ∨ ! h.tlLive t then (h, none)
  else if lost then (h.cdcFail t 2, none)
  else if len = 0 ∨ 64 < len then (h.cdcFail t 3, none)
  else if b.length ≠ len + 4 ∨ cdcCrc (b.take (len + 2)) ≠ beAt b (len + 2) 2 then (h.cdcFail t 1, none)
  else
    let body := (b.drop 2).take len
    let h := h.setReg (kCdcRx t 0) (256 * len + byteAt b 0)
    let h := iter 32 (fun i h => h.setReg (kCdcRx t (1 + i)) (256 * byteAt body (2 * i) + byteAt body (2 * i + 1))) h
    let h := (h.addWrap (kCdcRx t 33) 1 1).addSat (kTl t 4) 2 1
    (h.issue (128 + t) 1 (byteAt b 0) len (h.reg (kCdcRx t 33)), some (b.take (len + 2)))

/-! ### Amplifier channels (R445 to R454) -/

/-- The state of a channel. -/
def Hub.ampState (h : Hub) (n : Nat) : Nat := h.fld (kAmp n 1) 2 0

/-- The other channel of a bridged pair. -/
def Hub.bridged (h : Hub) (n : Nat) : Bool := bit (h.reg 0x52) (n / 2)
def mate (n : Nat) : Nat := if n % 2 = 0 then n + 1 else n - 1
/-- The channels that share a channel's states and faults; the even one leads. -/
def Hub.ampPair (h : Hub) (n : Nat) : List Nat := if h.bridged n then [n / 2 * 2, n / 2 * 2 + 1] else [n]
/-- The channel whose ramps a channel follows (R448). -/
def Hub.ampLead (h : Hub) (n : Nat) : Nat := if h.bridged n then n / 2 * 2 else n

/-- A channel changes its state, and its bridge partner with it (R448). -/
def Hub.setAmpState (h : Hub) (n st : Nat) : Hub := (h.ampPair n).foldl (fun h k => h.setFld (kAmp k 1) 2 0 st) h

/-- A ramp toward a target begins from the present amplitude (R447). -/
def Hub.ampRamp (h : Hub) (n st : Nat) (t : RampTo) : Hub := (h.setAmpState n st).modAmp (h.ampLead n) fun a => { a with ramp := some t }

/-- A channel's output, and its bridge partner's, is zero. -/
def Hub.ampZero (h : Hub) (n : Nat) : Hub := (h.ampPair n).foldl (fun h k => h.modAmp k fun x => { x with out := 0 }) h

/-- The output rests: no ramp, and zero but in RUN (R445). -/
def Hub.ampRest (h : Hub) (n st : Nat) (a : Rat) : Hub :=
  let h := (h.setAmpState n st).modAmp (h.ampLead n) fun x => { x with ramp := none, amp := a }
  if st = 4 then h else h.ampZero n

/-- A channel goes to ISOLATED (R450). -/
def Hub.isolate (h : Hub) (n cause : Nat) (m : Sense) : Hub :=
  let h := (h.ampRest n 6 0).setFld (kAmp n 1) 11 8 cause
  (((h.addSat (kAmp n 6) 2 1).setFlag (kAioFlag 4)).setFlag 0x7B).issue (136 + n) 1 cause m.volt.toNat m.cur.toNat

/-- A channel and its bridge partner isolate (R448). -/
def Hub.isolatePair (h : Hub) (n cause : Nat) (m : Sense) : Hub := (h.ampPair n).foldl (fun h k => h.isolate k cause m) h

/-- Step 4 of R446: MUTED or RAMP up. -/
def Hub.ampGo (h : Hub) (n : Nat) : Hub := if bit (h.reg 0x4F) n then h.ampRest n 2 0 else h.ampRamp n 3 .run

/-- Step 1 of R446: the terminal voltages are checked. -/
def Hub.ampCheck (h : Hub) (n : Nat) (m : Sense) : Hub :=
  if m.ext then h.isolatePair n 2 m else (h.ampPair n).foldl (fun h k => h.setFld (kAmp k 1) 15 8 0) (h.ampRest n 1 0)

/-- A write of AMP_EN bit n to 1 (R431, R446, R449); the odd channel of a bridged pair is refused. -/
def Hub.ampEnable (h : Hub) (n : Nat) (m : Sense) : Hub :=
  if bit (h.reg 0x4E) n ∨ (h.isL ∧ 4 ≤ n) then h
  else
    let w := h.reg 0x4E + 2 ^ n
    let cause := (h.enableRefused 2 (h.fld (kAmp n 0) 8 0) 5 n).orElse fun _ => if h.bridged n ∧ n % 2 = 1 then some 3 else none
    match cause with
    | some c => (h.setFlag (kAioFlag 8)).issue (136 + n) 4 c w 0
    | none =>
      let h := h.setReg 0x4E w
      if h.pwr.shed then h else if h.isL then h.ampGo n else h.ampCheck n m

/-- A write of AMP_EN bit n to 0: a ramp down, then OFF; from a state with zero output OFF at once. -/
def Hub.ampDisable (h : Hub) (n : Nat) : Hub :=
  if ! bit (h.reg 0x4E) n then h
  else
    let h := h.setFld 0x4E n n 0
    if h.ampState n = 3 ∨ h.ampState n = 4 ∨ (h.ampCh n).ramp.isSome then h.ampRamp n 3 .off else h.ampRest n 0 0

/-- A write of AMP_MUTE bit n (R447); that of the odd channel of a bridged pair moves nothing (R448). -/
def Hub.ampMute (h : Hub) (n : Nat) (on : Bool) : Hub :=
  let h := h.setFld 0x4F n n (b2n on)
  let a := h.ampCh n
  if h.ampLead n ≠ n then h
  else if h.ampState n = 5 then h.modAmp n fun a => { a with before := if on then 2 else 4 }
  else if on ∧ (h.ampState n = 4 ∨ (h.ampState n = 3 ∧ a.ramp = some .run)) then h.ampRamp n 3 .muted
  else if ¬ on ∧ (h.ampState n = 2 ∨ (h.ampState n = 3 ∧ a.ramp = some .muted)) then h.ampRamp n 3 .run
  else h

/-- A ramp ends. -/
def Hub.ampRampEnd (h : Hub) (n : Nat) : Hub :=
  match (h.ampCh n).ramp with
  | some .run => h.ampRest n 4 1
  | some .muted => h.ampRest n 2 0
  | some .off => h.ampRest n 0 0
  | some .thermal => h.ampRest n 5 0
  | none => h

/-- AMP_FAULT: causes 1, 2 and 4 of R450 on an enabled channel. -/
def Hub.ampFault (h : Hub) (n cause : Nat) (m : Sense) : Hub :=
  let lead := (h.ampPair n).headD n
  if h.isL ∨ ! bit (h.reg 0x4E) lead ∨ h.ampState lead = 6 ∨ h.ampState lead = 0 ∨ ¬ (cause = 1 ∨ cause = 2 ∨ cause = 4) then h
  else h.isolatePair n cause m

/-- A channel records its partner. -/
def Hub.pairUp (h : Hub) (n p how st : Nat) : Hub :=
  ((h.setFld (kAmp n 1) 15 12 p).setFlag (kAioFlag 5)).issue (136 + n) 2 p how st

/-- Two channels are found paralleled: 1 cross-drive test, 2 continuous check (R451). A partner that is OFF records the
pairing and stays. -/
def Hub.paralleled (h : Hub) (n p how : Nat) (m : Sense) : Hub :=
  let sn := h.ampState n
  let sp := h.ampState p
  let h := (h.isolatePair n 3 m).pairUp n p how sp
  let h := if sp = 0 ∨ sp = 6 then h else h.isolatePair p 3 m
  h.pairUp p n how sn

/-- The cross-drive test ends (R446, R451): `sensed` names the channels that sense the test signal, `low` a load below
1.5 Ω. -/
def Hub.crossDone (h : Hub) (n sensed : Nat) (low : Bool) (m : Sense) : Hub :=
  let n := h.ampLead n
  if h.ampState n ≠ 1 then h
  else
    match firstBelow 8 fun p => p != n && bit sensed p && !(h.bridged n && p == mate n) with
    | some p => h.paralleled n p 1 m
    | none => if low then h.isolatePair n 1 m else h.ampGo n

/-- The continuous check finds a partner, in RUN and RAMP (R451). -/
def Hub.continuous (h : Hub) (n p : Nat) (m : Sense) : Hub :=
  let run := fun k => h.ampState k == 3 || h.ampState k == 4
  if h.isL ∨ n = p ∨ (h.bridged n ∧ p = mate n) ∨ ! run n then h else h.paralleled n p 2 m

/-- A write of AMP_REEN: with KEY 0x5A the named channels in ISOLATED run step 1 again (R450). -/
def Hub.ampReenable (h : Hub) (w : Nat) (ms : List Sense) : Hub :=
  if h.isL ∨ w / 256 ≠ 0x5A then h
  else iter 8 (fun n h => if bit w n ∧ h.ampState n = 6 ∧ bit (h.reg 0x4E) n then h.ampCheck n (lget ⟨false, 0, 0⟩ ms n) else h) h

/-- A channel's junction temperature: at 150 °C it enters THERMAL, below 130 °C it leaves it (R453). -/
def Hub.ampThermal (h : Hub) (n t : Nat) : Hub :=
  let n := h.ampLead n
  let st := h.ampState n
  let r := (h.ampCh n).ramp
  if h.isL then h
  else if 150 ≤ s16 t ∧ (st = 1 ∨ st = 2 ∨ st = 3 ∨ st = 4) ∧ r ≠ some .off then
    let b := if st = 4 ∨ (st = 3 ∧ r = some .run) ∨ (st = 1 ∧ ¬ bit (h.reg 0x4F) n) then 4 else 2
    ((h.ampRamp n 5 .thermal).modAmp n fun a => { a with before := b }).issue (136 + n) 3 1 t 0
  else if st = 5 ∧ s16 t < 130 then
    (if (h.ampCh n).before = 4 then h.ampRamp n 3 .run else h.ampRest n 2 0).issue (136 + n) 3 0 t 0
  else h

/-- A write of AMP_BRIDGE: it fails where a pair that changes has an enabled channel (R448). -/
def Hub.bridgeWrite (h : Hub) (w : Nat) : Hub :=
  let old := h.reg 0x52
  if h.isL then h
  else if (List.range 4).any fun b => bit old b != bit w b && (bit (h.reg 0x4E) (2 * b) || bit (h.reg 0x4E) (2 * b + 1)) then h.failWin 3 0x52
  else h.setReg 0x52 (w % 16)

/-- The odd channel of a bridged pair follows the even one in antiphase; what it gives against the lowest value is free. -/
def Hub.antiphase (h : Hub) (n l : Nat) : Hub :=
  let v := (h.ampCh l).out
  if v = BitVec.intMin 24 then (h.modAmp n fun x => { x with out := BitVec.ofNat 24 h.freeVal }).tookFree else h.modAmp n fun x => { x with out := -v }

/-- The amplitude of a channel moves by one tick of its ramp, and it delivers its sink's value (R432, R447, R448, R454). -/
def Hub.ampTick (h : Hub) (n : Nat) : Hub :=
  let k := h.clko 2
  let a := h.ampCh n
  let ms := if h.pwr.shed then 2 else h.fld (kAmp n 2) 6 0
  let step : Rat := 1000 / ((ms * rateHz (h.dom k.dom).rate : Nat) : Rat)
  let amp := match a.ramp with
    | some .run => min 1 (a.amp + step)
    | some _ => max 0 (a.amp - step)
    | none => a.amp
  let r := riseStep k.run (h.dom k.dom).rate a.rise
  let on := k.run && (h.ampState n == 3 || h.ampState n == 4 || h.ampState n == 5)
  if h.ampLead n ≠ n then h.antiphase n (h.ampLead n)
  else h.modAmp n fun x => { x with amp := amp, rise := r, out := if on then scaleRat (h.sinkOut (h.fld (kAmp n 0) 8 0)) (amp * r) else 0 }

/-- While their clock outputs stop, amplifiers and train-line sends hold zero, and rise from it afterwards (R432). -/
def Hub.sinkSync (h : Hub) : Hub :=
  let h := if (h.clko 2).run then h else iter 8 (fun n h => h.modAmp n fun x => { x with rise := 0, out := 0 }) h
  if (h.clko 3).run then h else iter 2 (fun t h => h.modTl t fun x => { x with rise := 0, out := 0 }) h

/-- AMP_RUN and AMP_ISO (R463). -/
def Hub.ampRun (h : Hub) : Nat := ((List.range 8).map fun n => flagAt (h.ampState n == 4) n).sum
def Hub.ampIso (h : Hub) : Nat :=
  ((List.range 8).map fun n => flagAt (h.ampState n == 6) n + flagAt (h.ampState n == 6 && h.fld (kAmp n 1) 11 8 == 3) (n + 8)).sum

/-! ### Field inputs (R455 to R457) -/

def Hub.fieldIn (h : Hub) (i : Nat) : FieldIn := tget (fun _ => {}) h.aio.fin i
def Hub.modFin (h : Hub) (i : Nat) (f : FieldIn → FieldIn) : Hub := h.modAio fun a => { a with fin := tput (fun _ => {}) a.fin i (f (h.fieldIn i)) }

/-- The nominal voltage of a VNOM code, in mV. -/
def vnom (c : Nat) : Int := [24000, 36000, 48000, 72000, 96000, 110000].getD c 24000

/-- The range check of a sample (R457). -/
def Hub.finRange (h : Hub) (i : Nat) (cond volt : Nat) : Hub :=
  let f := h.fieldIn i
  if cond = f.range then h.modFin i fun f => { f with candN := 0 }
  else
    let n := if f.cand = cond then f.candN + 1 else 1
    if n < 200 then h.modFin i fun f => { f with cand := cond, candN := n }
    else
      let h := (h.modFin i fun f => { f with range := cond, candN := 0 }).setFld 0x55 i i (b2n (cond != 0))
      let h := if cond = 0 then h else h.setFlag (kAioFlag 6)
      h.issueLimited i 144 2 i cond volt

/-- A sample of a field input in mV, every 0.5 ms. -/
def Hub.finSample (h : Hub) (i : Nat) (mv : Int) : Hub :=
  let cfg := h.reg (kFin i 0)
  let nom := vnom (bits cfg 2 0)
  let volt := wordOf (divOpen mv 500)
  let f := h.fieldIn i
  let raw := if f.range = 2 then false else if 7 * nom ≤ 10 * mv then true else if 10 * mv ≤ 3 * nom then false else f.raw
  let h := (h.setReg (kFin i 1) volt).modFin i fun f => { f with raw := raw, seen := true }
  let cond := if 14 * nom < 10 * mv then 1 else if 10 * mv < -nom then 2 else 0
  let h :=
    if ! f.seen then h.setFld 0x54 i i (b2n raw)
    else if raw = bit (h.reg 0x54) i then h.modFin i fun f => { f with differ := 0 }
    else if f.differ + 1 < 2 * bits cfg 15 8 then h.modFin i fun f => { f with differ := f.differ + 1 }
    else (((h.modFin i fun f => { f with differ := 0 }).setFld 0x54 i i (b2n raw)).addWrap (kFin i 2) 1 1).issue 144 1 i (b2n raw) volt
  h.finRange i cond volt

/-- A write of a field input's CFG word: DEB 0 and VNOM 6 and 7 are ignored. -/
def Hub.finCfg (h : Hub) (i w : Nat) : Hub :=
  let old := h.reg (kFin i 0)
  h.setReg (kFin i 0) ((if bits w 15 8 = 0 then bits old 15 8 else bits w 15 8) * 256 + (if 6 ≤ bits w 2 0 then bits old 2 0 else bits w 2 0))

/-! ### Field outputs (R458 to R460) -/

def Hub.fieldOut (h : Hub) (o : Nat) : FieldOut := h.aio.fout.get {} o
def Hub.modFout (h : Hub) (o : Nat) (f : FieldOut → FieldOut) : Hub := h.modAio fun a => { a with fout := a.fout.mod o f }
def Hub.tripped (h : Hub) (o : Nat) : Bool := bit (h.reg 0x57) (8 + o)

/-- A write of FIO_OUT (R458, R459). DESIGN CHOICE (log 143): a tripped output whose retry fell due while its command was 0
follows the next command of 1. -/
def Hub.foutWrite (h : Hub) (w : Nat) : Hub :=
  let h := h.setReg 0x56 (w % 256)
  iter 8 (fun o h =>
    if ! bit w o then h.modFout o fun f => { f with on := false, armed := true }
    else if ! h.tripped o then h.modFout o fun f => { f with on := true }
    else if h.fld (kFout o 0) 1 0 = 0 ∧ (h.fieldOut o).armed then (h.setFld 0x57 (8 + o) (8 + o) 0).modFout o fun f => { f with on := true }
    else if (h.fieldOut o).due then h.modFout o fun f => { f with on := true }
    else h) h

/-- A trip (R459). -/
def Hub.foutTrip (h : Hub) (o : Nat) : Hub :=
  if ! (h.fieldOut o).on then h
  else
    let h := ((h.modFout o fun _ => {}).addSat (kFout o 2) 2 1).setFld 0x57 (8 + o) (8 + o) 1
    (h.setFlag (kAioFlag 7)).issue 145 1 o (h.fld (kFout o 0) 1 0) (h.reg (kFout o 2))

/-- A retry, 1 s or 10 s after the trip, while the command is 1. -/
def Hub.foutRetry (h : Hub) (o : Nat) : Hub :=
  if ! h.tripped o ∨ h.fld (kFout o 0) 1 0 = 0 then h
  else h.modFout o fun f => if bit (h.reg 0x56) o then { f with on := true } else { f with due := true }

/-- A retried output has run 100 ms without reaching its limit. -/
def Hub.tripClear (h : Hub) (o : Nat) : Hub := if (h.fieldOut o).on then h.setFld 0x57 (8 + o) (8 + o) 0 else h

/-- An open load is found or gone: the current stood below 5 mA, or at 5 mA or more, for 100 ms (R460). -/
def Hub.foutOpen (h : Hub) (o : Nat) (isOpen : Bool) (ma : Nat) : Hub :=
  if ! (h.fieldOut o).on ∨ bit (h.reg 0x57) o = isOpen ∨ isOpen ≠ decide (ma < 5) then h else ((h.setReg (kFout o 1) ma).setFld 0x57 o o (b2n isOpen)).issue 145 2 o (b2n isOpen) ma

end Sys2Proof.Machine
end

