-- ==== Sys2Proof/Machine/AioExec.lean ====
section
/-! DEFINITION. AioExec.lean: the meanings of the commands of the analog inputs, train lines, amplifiers and field
inputs and outputs. -/

namespace Sys2Proof.Machine

/-- ADC_INPUT_ENABLE (R431): a write of AIO_INEN. -/
def execAdcInputEnable (value : Byte) (s : State) : Host.Outcome State Fault Refusal :=
  s.onHub fun h => h.inenWrite value.toNat
/-- ADC_MODE_WRITE (R433): a write of an input's CFG word. -/
def execAdcModeWrite (n : Fin 8) (value : Word) (s : State) : Host.Outcome State Fault Refusal :=
  s.onHub fun h => h.adcCfg n value.toNat
/-- GAIN_WRITE (R434): a write of an input's CFG word that keeps MODE. -/
def execGainWrite (n : Fin 8) (gain : BitVec 6) (s : State) : Host.Outcome State Fault Refusal :=
  s.onHub fun h => h.gainWrite n gain.toNat
/-- GAIN_STEP (R434, R438): inputs 0 to 7, then the receives of the train-line ports. -/
def execGainStep (u : Fin 10) (s : State) : Host.Outcome State Fault Refusal := s.onHub fun h => h.gainStep u
/-- CLIP_HOLD_END (R437). -/
def execClipHoldEnd (n : Fin 8) (near : Bool) (s : State) : Host.Outcome State Fault Refusal :=
  s.onHub fun h => h.clipEnd n near
/-- BIAS_CHECK (R436). -/
def execBiasCheck (n : Fin 8) (ua : Word) (limit : Bool) (s : State) : Host.Outcome State Fault Refusal :=
  s.onHub fun h => h.biasCheck n ua.toNat limit
/-- TL_ENABLE (R431): a write of AIO_TLCTL.EN. -/
def execTlEnable (value : BitVec 2) (s : State) : Host.Outcome State Fault Refusal := s.onHub fun h => h.tlEnable value.toNat
/-- TL_RELAY_CLOSE (R439): BYP is written 1. -/
def execTlRelayClose (s : State) : Host.Outcome State Fault Refusal :=
  s.onHub fun h => (h.setFld 0x4A 15 15 1).tlRelayClose 2
/-- TL_RELAY_CHANGED (R439). -/
def execTlRelayChanged (sensed : Bool) (s : State) : Host.Outcome State Fault Refusal :=
  s.onHub fun h => h.tlRelayChanged sensed
/-- TL_RELAY_FAULT (R439). -/
def execTlRelayFault (s : State) : Host.Outcome State Fault Refusal := s.onHub Hub.tlRelayFault
/-- CDC_TX_COMMAND (R444): a write of AIO_CDCCMD. -/
def execCdcTxCommand (value : Word) (s : State) : Host.Outcome State Fault Refusal :=
  s.onHub fun h => h.cdcCommand value.toNat
/-- CDC_TX_START (R444). -/
def execCdcTxStart (t : Fin 2) (s : State) : Host.Outcome State Fault Refusal := s.onHub fun h => h.cdcStart t
/-- CDC_TX_DONE (R444). -/
def execCdcTxDone (t : Fin 2) (s : State) : Host.Outcome State Fault Refusal := s.onHub fun h => h.cdcDone t
/-- AMP_ENABLE (R446): AMP_EN bit n is written 1. -/
def execAmpEnable (n : Fin 8) (sense : Sense) (s : State) : Host.Outcome State Fault Refusal :=
  s.onHub fun h => h.ampEnable n sense
/-- AMP_DISABLE (R446): AMP_EN bit n is written 0. -/
def execAmpDisable (n : Fin 8) (s : State) : Host.Outcome State Fault Refusal := s.onHub fun h => h.ampDisable n
/-- CROSS_DRIVE_TEST_DONE (R446, R451). -/
def execCrossDriveTestDone (n : Fin 8) (sensed : BitVec 8) (low : Bool) (sense : Sense) (s : State) : Host.Outcome State Fault Refusal :=
  s.onHub fun h => h.crossDone n sensed.toNat low sense
/-- AMP_MUTE (R447): AMP_MUTE bit n is written 1. -/
def execAmpMute (n : Fin 8) (s : State) : Host.Outcome State Fault Refusal := s.onHub fun h => h.ampMute n true
/-- AMP_UNMUTE (R447): AMP_MUTE bit n is written 0. -/
def execAmpUnmute (n : Fin 8) (s : State) : Host.Outcome State Fault Refusal := s.onHub fun h => h.ampMute n false
/-- AMP_FAULT (R450). -/
def execAmpFault (n : Fin 8) (cause : Fin 5) (sense : Sense) (s : State) : Host.Outcome State Fault Refusal :=
  s.onHub fun h => h.ampFault n cause sense
/-- AMP_REENABLE (R450): a write of AMP_REEN. -/
def execAmpReenable (value : Word) (senses : List Sense) (s : State) : Host.Outcome State Fault Refusal :=
  s.onHub fun h => h.ampReenable value.toNat senses
/-- AMP_THERMAL (R453). -/
def execAmpThermal (n : Fin 8) (temp : Word) (s : State) : Host.Outcome State Fault Refusal :=
  s.onHub fun h => h.ampThermal n temp.toNat
/-- BRIDGE_WRITE (R448): a write of AMP_BRIDGE. -/
def execBridgeWrite (value : BitVec 4) (s : State) : Host.Outcome State Fault Refusal :=
  s.onWrite fun h => h.bridgeWrite value.toNat
/-- FIELD_OUTPUT_COMMAND (R458): a write of FIO_OUT. -/
def execFieldOutputCommand (value : Byte) (s : State) : Host.Outcome State Fault Refusal :=
  s.onHub fun h => h.foutWrite value.toNat
/-- FOUT_TRIP (R459). -/
def execFoutTrip (o : Fin 8) (s : State) : Host.Outcome State Fault Refusal := s.onHub fun h => h.foutTrip o
/-- FOUT_RETRY (R459). -/
def execFoutRetry (o : Fin 8) (s : State) : Host.Outcome State Fault Refusal := s.onHub fun h => h.foutRetry o
/-- FOUT_OPEN (R460). -/
def execFoutOpen (o : Fin 8) (isOpen : Bool) (ma : Word) (s : State) : Host.Outcome State Fault Refusal :=
  s.onHub fun h => h.foutOpen o isOpen ma.toNat
/-- CONTINUOUS_CHECK (R451). -/
def execContinuousCheck (n : Fin 8) (partner : Fin 8) (sense : Sense) (s : State) : Host.Outcome State Fault Refusal :=
  s.onHub fun h => h.continuous n partner sense
/-- TRIP_CLEAR (R459). -/
def execTripClear (o : Fin 8) (s : State) : Host.Outcome State Fault Refusal := s.onHub fun h => h.tripClear o

end Sys2Proof.Machine
end

