-- ==== Sys2Proof/Machine/Cal.lean ====
section
/-! DEFINITION. Cal.lean: live calibration: zones, windows, publication, the gain law, forced measurements, the pilot and
the offset trim (R483 to R502). -/

namespace Sys2Proof.Machine

/-! ### Zones and units (R486, R487) -/

def Hub.zoneOn (h : Hub) (z : Nat) : Bool := bit (h.eff (kCal (16 * z))) 15
def Hub.zoneAmps (h : Hub) (z : Nat) : List Nat := (List.range 8).filter fun n => bit (h.eff (kCal (16 * z))) n
def Hub.zoneMics (h : Hub) (z : Nat) : List Nat := (List.range 8).filter fun m => bit (h.eff (kCal (16 * z + 1))) m
def Hub.zoneOfAmp (h : Hub) (n : Nat) : Option Nat := firstBelow 8 fun z => h.zoneOn z && (h.zoneAmps z).contains n
def Hub.zoneOfMic (h : Hub) (m : Nat) : Option Nat := firstBelow 8 fun z => h.zoneOn z && (h.zoneMics z).contains m
/-- The domain of the zones: that of CLKO2. -/
def Hub.calDom (h : Hub) : Nat := (h.clko 2).dom

/-- Does a microphone's clock output have another domain than CLKO2. -/
def Hub.micApart (h : Hub) (m : Nat) : Bool := (h.clko (m / 4)).dom != h.calDom

/-- Why a zone's words as stored are refused (R486): all are cause 3. -/
def Hub.zoneBad (h : Hub) (z : Nat) : Bool :=
  let w0 := h.reg (kCal (16 * z))
  let w1 := h.reg (kCal (16 * z + 1))
  let shared := (List.range 8).any fun y => y != z && h.zoneOn y &&
    ((h.zoneAmps y).any (fun n => bit w0 n) || (h.zoneMics y).any fun m => bit w1 m)
  shared || (h.isL && decide (bits w0 7 4 ≠ 0)) || ((List.range 8).any fun m => bit w1 m && h.micApart m) || (bit w0 15 && bits w0 7 0 == 0)

/-- A write of zone word +4 completes the zone's configuration; windows of units that leave the enabled zones are
abandoned. -/
def Hub.zoneWrite (h : Hub) (z w : Nat) : Hub :=
  let k := kCal (16 * z)
  if 240 < bits w 7 0 then h
  else
    let h := h.setReg (k + 4) (bits w 7 0)
    if h.zoneBad z then
      ((iter 5 (fun i h => h.revert (k + i)) h).setFlag (kCal 0x803)).issue 164 1 3 w z
    else
      let h := iter 5 (fun i h => h.enforce (k + i)) h
      let stays := fun (w : CalWin) =>
        if w.kind = 3 then (h.zoneOfMic w.mic).isSome
        else (h.zoneOfAmp w.amp).isSome && (w.kind == 1 || h.zoneOfMic w.mic == h.zoneOfAmp w.amp)
      h.modCal fun c => { c with wins := c.wins.filter fun w => w.forced || stays w }

/-! ### Windows (R487 to R491) -/

/-- Is a sink in emergency (R473). -/
def Hub.sinkEmergency (h : Hub) (n : Nat) : Bool := h.slotIs (h.ampSink n) 5 n && (h.snk (h.ampSink n)).level == some 7

/-- The lowest condition of a window that is broken at this tick (R490). -/
def Hub.calBroken (h : Hub) (w : CalWin) : Option Nat :=
  let zone := if w.kind = 3 then h.zoneOfMic w.mic else h.zoneOfAmp w.amp
  let all := match zone with | some z => h.zoneAmps z | none => []
  let mics := match zone with | some z => h.zoneMics z | none => []
  let amps := if w.kind = 3 then all else [w.amp]
  let a := h.adc w.mic
  let route := h.rtm.xps.any fun e =>
    h.xpSnk e.1 == h.ampSink w.amp && (e.2.valid || e.2.removing) && (e.2.removing || e.2.fade.isSome || e.2.ramp.isSome || e.2.duckMove.isSome)
  let cond : List (Nat × Bool) :=
    [(2, decide (1 < w.kind) && (a.clip || a.near)),
     (3, amps.any fun n => decide (1 ≤ h.ampState n ∧ h.ampState n ≤ 3)),
     (4, amps.any fun n => h.ampState n == 0 || h.ampState n == 5 || h.ampState n == 6),
     (5, decide (w.kind < 3) && (route || w.hit == some 5)),
     (6, all.any fun n => h.sinkEmergency n),
     (7, decide (1 < w.kind) &&
       (!bit (h.reg 0x48) w.mic || h.fld (kAdc w.mic 3) 5 0 != h.fld (kAdc w.mic 0) 5 0 || a.biasf || w.hit == some 7)),
     (8, (h.dom h.calDom).tick != w.last + 1 || mics.any h.micApart),
     (9, decide ((h.engine (h.fld 0x5C 3 0)).st ≠ .normal)),
     (12, w.kind == 3 && amps.any fun n => h.ampState n == 4 && !h.cal.paths.contains (8 * n + w.mic))]
  (cond.find? (·.2)).map (·.1)

/-- A window's length in ticks: 1.0 s, 2.0 s and 0.5 s. -/
def Hub.calLength (h : Hub) (kind : Nat) : Nat := rateHz (h.dom h.calDom).rate * [0, 2, 4, 1].getD kind 0 / 2

/-- A window opens at the present tick. -/
def Hub.calOpen (h : Hub) (kind amp mic : Nat) (forced pilot : Bool) : Hub :=
  let w : CalWin :=
    { kind := kind, amp := amp, mic := mic, left := h.calLength kind, last := (h.dom h.calDom).tick, forced := forced, pilot := pilot }
  h.modCal fun c => { c with wins := c.wins ++ [w] }

/-- Does a unit have an open window, or a forced measurement of its own. -/
def Hub.calBusy (h : Hub) (kind u : Nat) : Bool :=
  (h.cal.wins.any fun w => w.kind == kind && (if kind = 3 then w.mic else w.amp) == u) ||
    match h.cal.forced with | some f => f.kind == kind && f.amp == u && kind != 3 | none => false

/-- The next microphone of the zone, in ascending order, round again. -/
def nextMic (ms : List Nat) (i : Nat) : Option Nat := (ms.find? fun m => decide (i ≤ m)).orElse fun _ => ms.head?

/-- Every unit of an enabled zone without a window opens one (R488). -/
def Hub.calOpenAll (h : Hub) : Hub :=
  if ¬ h.cal.on then h
  else
    let ctl := h.reg 0x5C
    let h := iter 8 (fun n h =>
      match h.zoneOfAmp n with
      | none => h
      | some z =>
        let h := if bit ctl 14 && !h.isL && bit (h.reg 0x4E) n && !h.calBusy 1 n then h.calOpen 1 n 0 false false else h
        match nextMic (h.zoneMics z) (tget (fun _ => 0) h.cal.next n) with
        | some m =>
          if bit ctl 13 && !h.calBusy 2 n then
            (h.calOpen 2 n m false false).modCal fun c => { c with next := tput (fun _ => 0) c.next n (m + 1) }
          else h
        | none => h) h
    iter 8 (fun m h => if (h.zoneOfMic m).isSome && bit ctl 12 && !h.calBusy 3 m then h.calOpen 3 0 m false false else h) h

/-- A tick of an open window. -/
def Hub.calStep (h : Hub) (w : CalWin) : CalWin :=
  if w.left = 0 then w
  else
    { w with left := w.left - 1, last := (h.dom h.calDom).tick, hit := none, stamp := h.stamp, ended := h.refMs,
             reason := w.reason.orElse fun _ => h.calBroken w }

/-- Does a sink of the zone of amplifier `n` stand in emergency. -/
def Hub.zoneEmergency (h : Hub) (n : Nat) : Bool :=
  match h.zoneOfAmp n with
  | some z => (h.zoneAmps z).any fun k => h.sinkEmergency k
  | none => false

/-- An emergency shortens a fade-out of the pilot that has longer than 5 ms to go: it takes precedence (R500). -/
def Hub.pilotHaste (h : Hub) : Hub :=
  let n := rateHz (h.dom h.calDom).rate * 5 / 1000
  match h.cal.pilot with
  | some p => if p.out.any (fun k => decide (n < k)) ∧ h.zoneEmergency p.amp then h.modCal fun c => { c with pilot := some { p with out := some n, cause := 2 } } else h
  | none => h

/-- A tick of the pilot's fade-out: after the last one it is off, and PILOT_STOP is raised. -/
def Hub.pilotFade (h : Hub) : Hub :=
  match h.cal.pilot with
  | some p =>
    match p.out with
    | some 0 => (h.modCal fun c => { c with pilot := none }).issue 168 2 p.amp p.cause 0
    | some (k + 1) => h.modCal fun c => { c with pilot := some { p with out := some k } }
    | none => h
  | none => h

/-- The pilot at a tick: it stops at the end, the failure or an emergency of its window, and a fade-out ends. -/
def Hub.pilotTick (h : Hub) : Hub :=
  let h := match h.cal.wins.find? (·.pilot) with
    | some w => if w.reason = some 6 then h.pilotStop 2 5 else if w.reason.isSome then h.pilotStop 3 20
      else if w.left = 0 then h.pilotStop 1 20 else h
    | none => h
  let h := match h.cal.forced with
    | some f =>
      if f.st = ForceSt.fadeIn ∧ h.zoneEmergency f.amp then
        (h.pilotStop 2 5).calFail { kind := f.kind, amp := f.amp, mic := f.mic, left := 0, last := 0, forced := true } 6
      else h
    | none => h
  h.pilotHaste.pilotFade

/-- Calibration at a tick of domain `d`. -/
def Hub.calTick (h : Hub) (d : Nat) : Hub :=
  if d ≠ h.calDom then h
  else
    let h := h.modCal fun c => { c with wins := c.wins.map h.calStep }
    h.pilotTick.calOpenAll

/-- While the pilot runs, what its amplifier delivers is not determined (R499). -/
def Hub.pilotAdd (h : Hub) (n : Nat) : Hub :=
  if (h.cal.pilot.any fun p => p.amp == n) then (h.modAmp n fun a => { a with out := BitVec.ofNat 24 h.freeVal }).tookFree else h

/-- Is a window of the unit named. -/
def CalWin.is (w : CalWin) (kind amp mic : Nat) : Bool := w.kind == kind && (kind == 3 || w.amp == amp) && (kind == 1 || w.mic == mic)

/-- A window's analysis is handed to the cluster: a path to the correlator, a line to the FFT unit, where the queue has
room (R172); a stalled link drops it (R53). -/
def Hub.calSubmit (h : Hub) (kind : Nat) : Hub :=
  let job := fun (q : List Job) => q ++ [{ eng := h.fld 0x5C 3 0, tag := h.newTag q, src := 0, dst := 0, cal := true }]
  match h.cluStall 164 kind with
  | some h => h
  | none =>
    if kind = 2 ∧ h.clu.corq.length < 4 then { h.tookFree with clu := { h.clu with corq := job h.clu.corq } }
    else if kind = 1 ∧ h.clu.fftq.length < 32 then { h.tookFree with clu := { h.clu with fftq := job h.clu.fftq } }
    else h

/-- A window whose length is complete ends (R488 to R491); `exc` is its excitation in 0.1 dBFS. -/
def Hub.calWindowEnd (h : Hub) (kind amp mic : Nat) (exc : Int) : Hub :=
  match h.cal.wins.find? fun w => w.is kind amp mic && w.left == 0 with
  | none => h
  | some w =>
    let h := (h.modCal fun c => { c with wins := c.wins.erase w })
    let h := match h.cal.work.find? fun v => v.is kind amp mic with
      | some v => (h.modCal fun c => { c with work := c.work.erase v }).calFail v (v.reason.getD 10)
      | none => h
    let reason := w.reason.orElse fun _ => if kind < 3 ∧ ! w.pilot ∧ exc < -400 then some 1 else none
    let h := match reason with
      | some r => h.calFail w r
      | none => (h.modCal fun c => { c with work := c.work ++ [w] }).calSubmit kind
    h.calOpenAll

/-! ### Results (R492 to R497, R502) -/

/-- The sequence word and the stamp of a unit. -/
def Hub.calStamp (h : Hub) (k : Nat) (w : CalWin) : Hub := (h.addWrap k 1 1).setRegN (k + 1) 2 w.stamp.toNat

/-- The centre frequency of octave band `b` in Hz. -/
def bandHz (b : Nat) : Nat := 125 * 2 ^ b

/-- A line window's result: |Z| of each band in 0.01 Ω, and the bands whose voltage is high enough (R492, R493). -/
def Hub.linePublish (h : Hub) (w : CalWin) (r : CalRes) : Hub :=
  let k := kCal (0x100 + 32 * w.amp)
  let fs := rateHz (h.dom h.calDom).rate
  let above := fun b => decide (fs ^ 2 ≤ 2 * bandHz b ^ 2)
  let fresh := fun b => !above b && r.volts.getLsbD b
  let h := iter 8 (fun b h =>
    if above b then h.setReg (k + b) 0xFFFF
    else if fresh b then h.setReg (k + b) (min 65534 (lget 0 r.mags b).toNat) else h) h
  let h := (h.setReg (k + 8) ((List.range 8).map fun b => flagAt (fresh b) b).sum).calStamp (k + 11) w
  let z := h.reg (k + 3)
  let ref := h.reg (k + 9)
  if ref = 0 ∨ ¬ fresh 3 then h
  else
    let off := decide (h.reg (k + 10) * ref < 100 * ((z : Int) - ref).natAbs)
    let was := h.cal.lineOff.contains w.amp
    if off = was then h
    else
      let h := h.modCal fun c => { c with lineOff := if off then c.lineOff ++ [w.amp] else c.lineOff.erase w.amp }
      let h := if off then h.setFlag (kCal 0x801) else h
      h.issue 166 1 w.amp z ref

/-- A path window's result (R494, R495). -/
def Hub.pathPublish (h : Hub) (w : CalWin) (r : CalRes) : Hub :=
  let p := 8 * w.amp + w.mic
  let k := kCal (0x200 + 16 * p)
  let first := !h.cal.paths.contains p
  let moved := decide (50 < ((r.delay.toNat : Int) - h.reg k).natAbs ∨ 30 < (r.gain.toInt - s16 (h.reg (k + 1))).natAbs)
  let h := (((h.setReg k r.delay.toNat).setReg (k + 1) r.gain.toNat).setReg (k + 2) r.coh.toNat).calStamp (k + 3) w
  let h := h.modCal fun c => { c with paths := if first then c.paths ++ [p] else c.paths }
  if first || moved then h.issueLimited p 166 2 (16 * w.amp + w.mic) r.delay.toNat r.gain.toNat else h

/-- 10^(1/200), to 60 decimal places. -/
def tenRoot : Rat := 1011579454259898524440932314454314695741923521510289905470350 / 10 ^ 60

/-- 10^(k/200). -/
def tenPow (k : Int) : Rat :=
  let b := (k % 200).toNat
  let a := k / 200
  tenRoot ^ b * (if 0 ≤ a then 10 ^ a.toNat else 1 / 10 ^ (-a).toNat)

/-- The power mean of levels in 0.1 dB, rounded to the nearest 0.1 dB (R497). -/
def powerMean (xs : List Int) : Int :=
  let lo := xs.foldl min (xs.headD 0)
  let hi := xs.foldl max (xs.headD 0)
  let sum := (xs.map fun x => tenPow (2 * x)).sum
  lo + ((List.range (hi - lo).toNat).filter fun (i : Nat) => decide ((xs.length : Rat) * tenPow (2 * (lo + (i : Int)) + 1) ≤ sum)).length

/-- The zone's noise and target gain, and NAG of its sinks (R497). -/
def Hub.zoneNoise (h : Hub) (z : Nat) (w : CalWin) : Hub :=
  let k := kCal (16 * z)
  let now := (h.zoneMics z).filter fun m => (tget (fun _ => none) h.cal.noiseAt m).any fun t => decide (h.refMs ≤ t + 2000)
  if now.isEmpty then h
  else
    let nz := powerMean (now.map fun m => s16 (h.reg (kCal (0x600 + 16 * m))))
    let t := (((bits (h.eff (k + 3)) 7 0 : Nat) : Int) * (nz - s16 (h.eff (k + 2)))).tdiv 100
    let tgt := (clampI 0 (bits (h.eff (k + 4)) 7 0) t).toNat
    let h := ((h.setReg (k + 5) (wordOf nz)).setReg (k + 6) tgt).calStamp (k + 7) w
    (h.zoneAmps z).foldl (fun h n =>
      let s := h.ampSink n
      if h.isSink s && bit (h.reg (kSnk s 5)) 15 then h.setFld (kSnk s 5) 8 0 tgt else h) h

/-- A noise window's result: the residual's level in 0.001 dBFS gives NMIC (R496). -/
def Hub.noisePublish (h : Hub) (w : CalWin) (r : CalRes) : Hub :=
  let k := kCal (0x600 + 16 * w.mic)
  let nmic := roundDiv (r.level + 18000 - 1000 * (h.fld (kAdc w.mic 3) 5 0 : Nat)) 100
  let h := ((h.setReg k (wordOf nmic)).calStamp (k + 1) w).modCal fun c =>
    { c with noiseAt := tput (fun _ => none) c.noiseAt w.mic (some w.ended) }
  match h.zoneOfMic w.mic with
  | some z => h.zoneNoise z w
  | none => h

/-- A window's analysis completes: its result is published, or the window fails (R494, R502). -/
def Hub.calPublish (h : Hub) (kind amp mic : Nat) (r : CalRes) : Hub :=
  match h.cal.work.find? fun w => w.is kind amp mic with
  | none => h
  | some w =>
    let h := h.modCal fun c => { c with work := c.work.erase w }
    let reason := w.reason.orElse fun _ => if kind = 2 ∧ r.coh.toNat < h.reg (kCal 0x700) then some 11 else none
    match reason with
    | some x => h.calFail w x
    | none =>
      let h := if kind = 1 then h.linePublish w r else if kind = 2 then h.pathPublish w r else h.noisePublish w r
      if w.forced then h.forceDone 0 else h

/-! ### Enabling (R483) -/

/-- Calibration is switched off: windows fail with no count and no event. -/
def Hub.calOff (h : Hub) : Hub :=
  (h.pilotStop 3 20).modCal fun c => { c with on := false, wins := [], work := [], forced := none }

/-- A write of CAL_CTL: while EN is 1 another ENG fails; EN = 1 is judged, and a refused write changes nothing (R30). -/
def Hub.calCtl (h : Hub) (raw : Nat) : Hub :=
  let w := bits raw 15 11 * 2048 + bits raw 3 0
  if h.cal.on then
    if bits w 3 0 ≠ h.fld 0x5C 3 0 then h.failWin 3 0x5C
    else
      let h := h.setReg 0x5C w
      if bit w 15 then h else h.calOff
  else
    let n := bits w 3 0
    let refuse := fun (c : Nat) => (h.setFlag (kCal 0x803)).issue 164 1 c raw 0
    if ! bit w 15 then h.setReg 0x5C w
    else if h.reserved n ∨ (h.engine n).st ≠ .normal then refuse 1
    else if (h.engine n).bgen then refuse 2
    else (h.setReg 0x5C w).modCal fun c => { c with on := true }

/-! ### Forced measurements and the pilot (R498, R499) -/

/-- A write of CAL_FORCE. -/
def Hub.calForce (h : Hub) (w : Nat) : Hub :=
  let kind := bits w 11 10
  let amp := bits w 6 4
  let mic := bits w 2 0
  if bits w 15 12 ≠ 0xF then h
  else
    let refuse := fun (c : Nat) => (h.setFlag (kCal 0x803)).issue 164 1 c w 0
    let zone := h.zoneOfAmp amp
    if ¬ h.cal.on ∨ h.cal.forced.isSome then refuse 4
    else if (kind ≠ 1 ∧ kind ≠ 2) ∨ (kind = 1 ∧ h.isL) ∨ zone.isNone ∨ (kind = 2 ∧ h.zoneOfMic mic ≠ zone) then refuse 5
    else h.modCal fun c =>
      { c with wins := c.wins.filter fun w => !(w.kind == kind && w.amp == amp), forced := some { kind := kind, amp := amp, mic := mic } }

/-- The forced window opens. -/
def Hub.forceOpen (h : Hub) (f : Forced) (pilot : Bool) : Hub :=
  (h.calOpen f.kind f.amp f.mic true pilot).modCal fun c => { c with forced := some { f with st := .window, pilot := pilot } }

/-- The 200 ms of excitation measurement end: `exc` in 0.1 dBFS. -/
def Hub.forceExcitation (h : Hub) (exc : Int) : Hub :=
  match h.cal.forced with
  | none => h
  | some f =>
    if f.st ≠ .measuring then h
    else if -400 ≤ exc then h.forceOpen f false
    else if rateHz (h.dom h.calDom).rate < 44100 then
      h.calFail { kind := f.kind, amp := f.amp, mic := f.mic, left := 0, last := 0, forced := true } 13
    else
      (h.modCal fun c => { c with forced := some { f with st := .fadeIn, pilot := true }, pilot := some { amp := f.amp } }).issue
        168 1 f.amp (h.tickLo h.calDom) 0

/-- The pilot's fade-in ends. -/
def Hub.pilotFadeInEnd (h : Hub) : Hub :=
  match h.cal.forced with
  | some f => if f.st = .fadeIn then h.forceOpen f true else h
  | none => h

/-! ### The offset trim (R501) -/

/-- TRIMST of an input. -/
def kTrimSt (n : Nat) : Nat := kCal (0x605 + 16 * n)

/-- TRIMINT seconds after its last trim an enabled input is due. -/
def Hub.trimDue (h : Hub) (n : Nat) : Hub :=
  if bit (h.reg 0x5C) 11 ∧ bit (h.reg 0x48) n ∧ h.reg (kTrimSt n) = 0 then h.setReg (kTrimSt n) 1 else h

/-- The conditions have held for 500 ms; `mean` is the mean of the samples in their LSB. -/
def Hub.trimQuiet (h : Hub) (n : Nat) (mean : Int) : Hub :=
  if h.reg (kTrimSt n) ≠ 1 ∨ ! bit (h.reg 0x5C) 11 ∨ ! bit (h.reg 0x48) n ∨ (h.adc n).biasf ∨ h.fld (kAdc n 3) 5 0 ≠ h.fld (kAdc n 0) 5 0 then h
  else
    let now := s16 (h.reg (kAdc n 4))
    let wanted := now - divOpen mean 256
    (h.setReg (kTrimSt n) 2).modCal fun c =>
      { c with trims := tput (fun _ => none) c.trims n (some { before := now, target := clampI (-512) 512 wanted, wanted := wanted }) }

/-- OFST moves by one unit at a tick of the input's domain. -/
def Hub.trimStep (h : Hub) (d n : Nat) : Hub :=
  match tget (fun _ => none) h.cal.trims n with
  | some t =>
    let x := s16 (h.reg (kAdc n 4))
    if (h.clko (n / 4)).dom ≠ d ∨ x = t.target then h else h.setReg (kAdc n 4) (wordOf (if x < t.target then x + 1 else x - 1))
  | none => h

/-- OFST has reached its new value. -/
def Hub.trimDone (h : Hub) (n : Nat) : Hub :=
  match tget (fun _ => none) h.cal.trims n with
  | some t =>
    if s16 (h.reg (kAdc n 4)) ≠ t.target then h
    else
      let h := h.modCal fun c => { c with trims := tput (fun _ => none) c.trims n none }
      let h := ((h.setReg (kTrimSt n) 0).addSat (kCal (0x606 + 16 * n)) 2 1).issue 169 1 n (wordOf t.target) (wordOf (t.target - t.before))
      if t.wanted = t.target then h
      else (h.setFlag (kCal 0x802)).issueLimited n 169 2 n (wordOf (clampI (-32768) 32767 t.wanted)) 0
  | none => h

/-- CAL_STAT (R504). -/
def Hub.calStat (h : Hub) : Nat :=
  flagAt h.cal.on 15 + flagAt h.cal.forced.isSome 14 + (match h.cal.pilot with | some p => 2 ^ p.amp | none => 0)

end Sys2Proof.Machine
end

