-- ==== Sys2Proof/Machine/CalExec.lean ====
section
/-! DEFINITION. CalExec.lean: the meanings of the commands of live calibration. -/

namespace Sys2Proof.Machine

/-- CAL_ENABLE (R483): a write of CAL_CTL with EN = 1. -/
def execCalEnable (value : Word) (s : State) : Host.Outcome State Fault Refusal :=
  s.onWrite fun h => h.calCtl (putBits value.toNat 15 15 1)
/-- CAL_DISABLE (R483): a write of CAL_CTL with EN = 0. -/
def execCalDisable (value : Word) (s : State) : Host.Outcome State Fault Refusal :=
  s.onWrite fun h => h.calCtl (putBits value.toNat 15 15 0)
/-- ZONE_CONFIG_WRITE (R486): a write of zone word +4. -/
def execZoneConfigWrite (z : Fin 8) (maxg : Word) (s : State) : Host.Outcome State Fault Refusal :=
  s.onHub fun h => h.zoneWrite z maxg.toNat
/-- CAL_WINDOW_END (R488): kind 1 line, 2 path, 3 noise. -/
def execCalWindowEnd (kind : BitVec 2) (n : Fin 8) (m : Fin 8) (exc : Int) (s : State) : Host.Outcome State Fault Refusal :=
  s.onHub fun h => h.calWindowEnd kind.toNat n m exc
/-- CAL_PUBLISH (R502). -/
def execCalPublish (kind : BitVec 2) (n : Fin 8) (m : Fin 8) (r : CalRes) (s : State) : Host.Outcome State Fault Refusal :=
  s.onHub fun h => h.calPublish kind.toNat n m r
/-- FORCE_REQUEST (R498): a write of CAL_FORCE. -/
def execForceRequest (value : Word) (s : State) : Host.Outcome State Fault Refusal := s.onHub fun h => h.calForce value.toNat
/-- FORCE_EXCITATION_END (R498 step 2). -/
def execForceExcitationEnd (exc : Int) (s : State) : Host.Outcome State Fault Refusal :=
  s.onHub fun h => h.forceExcitation exc
/-- PILOT_FADE_IN_END (R499). -/
def execPilotFadeInEnd (s : State) : Host.Outcome State Fault Refusal := s.onHub Hub.pilotFadeInEnd
/-- TRIM_DUE (R501). -/
def execTrimDue (n : Fin 8) (s : State) : Host.Outcome State Fault Refusal := s.onHub fun h => h.trimDue n
/-- TRIM_QUIET_END (R501). -/
def execTrimQuietEnd (n : Fin 8) (mean : Int) (s : State) : Host.Outcome State Fault Refusal :=
  s.onHub fun h => h.trimQuiet n mean
/-- TRIM_DONE (R501). -/
def execTrimDone (n : Fin 8) (s : State) : Host.Outcome State Fault Refusal := s.onHub fun h => h.trimDone n

end Sys2Proof.Machine
end

