-- ==== Sys2Proof/Machine/Caption.lean ====
section
/-! DEFINITION. Caption.lean: the caption display ports: enabling, frames and line packets, timing modes, cues, and the
messages of the Caption Data Carrier (R506 to R523). -/

namespace Sys2Proof.Machine

/-- A word of space 0x22 (R526). -/
def kCap (o : Nat) : Nat := spc 0x22 o
/-- A word of a cue, and of a port. -/
def kCue (c w : Nat) : Nat := kCap (0x80000 + 4 * c + w)
def kPort (p w : Nat) : Nat := kCap (0x80200 + 16 * p + w)
/-- The counters CUEFIRED, CUELATE, CUEDISC, CUEFULL, BADMSG, UNKTYPE. -/
def kCapCnt (j : Nat) : Nat := kCap (0x80302 + 2 * j)
/-- REFUSEFLAG, CUEFLAG, CAPFLAG. -/
def kCapFlag (j : Nat) : Nat := kCap (0x80310 + j)

def Hub.cport (h : Hub) (p : Nat) : CapPort := h.cap.ports.get {} p
def Hub.modPort (h : Hub) (p : Nat) (f : CapPort → CapPort) : Hub := { h with cap := { h.cap with ports := h.cap.ports.mod p f } }
def Hub.capEn (h : Hub) (p : Nat) : Bool := bit (h.reg 0x60) p
/-- Width and height of a port (R510). -/
def Hub.capW (h : Hub) (p : Nat) : Nat := 8 * (h.fld (kPort p 0) 12 8 + 1)
def Hub.capH (h : Hub) (p : Nat) : Nat := 8 * (h.fld (kPort p 0) 1 0 + 1)
/-- The scan of a mode. -/
def scanOf (mode : Nat) : Nat := if bit mode 2 then 16 else 8
/-- Is a mode valid for the port's geometry. -/
def Hub.modeValid (h : Hub) (p mode : Nat) : Bool := h.capH p % scanOf mode == 0
/-- FCNT and the low bits of the frames sent. -/
def Hub.fcnt (h : Hub) (p : Nat) : Nat := h.fld (kPort p 2) 7 0

/-! ### Enabling, and the pixel clock (R511, R512, R515) -/

/-- A port's link starts with a blank frame. -/
def Hub.portStart (h : Hub) (p : Nat) : Hub :=
  (h.modPort p fun c => { c with run := true, first := true, left := 0 }).issue (176 + p) 1 (h.reg (0x62 + p)) (h.fld 0x66 (8 * p + 7) (8 * p)) 0

/-- A port's link stops: 1 disabled, 2 its clock stopped. -/
def Hub.portStop (h : Hub) (p cause : Nat) : Hub :=
  if (h.cport p).run then (h.modPort p fun c => { c with run := false }).issue (176 + p) 2 cause (h.fcnt p) 0 else h

/-- The links follow CLKO7: they stop with it and restart as for an enable. -/
def Hub.capSync (h : Hub) : Hub :=
  iter 2 (fun p h =>
    if (h.clko 7).run then (if h.capEn p && !(h.cport p).run then h.portStart p else h) else h.portStop p 2) h

/-- CLKO7 is held at N 16, HALF 0, DOM 0, EN 1 while a port is enabled. -/
def Hub.capHolds (h : Hub) : Bool := h.capEn 0 || h.capEn 1
def Hub.capClock (h : Hub) : Hub :=
  if (h.clko 7).en then h
  else (((h.clkoDom 7 0).clkoDivider 7 16 false).clkoEnable 7)

/-- EN of a port written 1. -/
def Hub.capEnable (h : Hub) (p : Nat) : Hub :=
  let req := h.reg (0x64 + p)
  let refuse := fun (c : Nat) => (h.setFlag (kCapFlag 0)).issue (176 + p) 5 c req 0
  if h.capEn p then h
  else if ! h.modeValid p req then refuse 1
  else if (h.clko 7).en ∧ ((h.clko 7).dom ≠ 0 ∨ h.reg (kClko 7 0) ≠ 16 ∨ h.fld (kClko 7 1) 0 0 ≠ 0) then refuse 2
  else (((h.capClock.setFld 0x60 p p 1).setReg (0x62 + p) req).modPort p fun c => { c with pend := false }).capSync

/-- EN of a port written 0: CLKO7 is released with the last port. -/
def Hub.capDisable (h : Hub) (p : Nat) : Hub :=
  if ! h.capEn p then h
  else
    let h := (h.setFld 0x60 p p 0).portStop p 1
    if h.capHolds then h else h.tookFree.clkoDisable 7 (bit h.freeVal 0)

/-- A write of CAP_CTL. -/
def Hub.capCtl (h : Hub) (w : Nat) : Hub :=
  iter 2 (fun p h => if bit w p then h.capEnable p else h.capDisable p) (h.setFld 0x60 9 8 (bits w 9 8))

/-- A mode requested (R513). -/
def Hub.modeRequest (h : Hub) (p mode : Nat) : Hub :=
  if h.modeValid p mode then
    (h.setReg (0x64 + p) mode).modPort p fun c => { c with pend := (h.capEn p && c.pend) || mode != h.reg (0x62 + p) }
  else (h.setFlag (kCapFlag 0)).issue (176 + p) 4 mode (h.reg (0x64 + p)) (h.reg (kPort p 0))

/-! ### Frames and line packets (R507, R508, R514, R516 to R518) -/

/-- A frame starts: a pending mode is latched and a held page is taken up. -/
def Hub.frameStart (h : Hub) (p : Nat) : Hub :=
  let c := h.cport p
  if ¬ c.run ∨ c.left ≠ 0 then h
  else
    let old := h.reg (0x62 + p)
    let new := if c.pend then h.reg (0x64 + p) else old
    let changed := decide (new ≠ old)
    let h := if changed then (h.setReg (0x62 + p) new).issue (176 + p) 3 old new (h.stamp.toNat % 65536) else h
    h.modPort p fun c =>
      { c with pend := false, first := false, blank := c.first || changed, row := 0, left := scanOf new, page := c.held.getD c.page, held := none }

/-- Pixel (x, y) of a page. -/
def Hub.pixel (h : Hub) (page x y : Nat) : Nat := h.reg (kCap (0x800 * page + 64 * y + x / 4)) / 16 ^ (3 - x % 4) % 16

/-- Bits packed into words, most significant first, padded with 0. -/
def packBits (b : List Bool) : List Nat :=
  (List.range (ceilDiv b.length 16)).map fun i => ((List.range 16).map fun j => flagAt (b.getD (16 * i + j) false) (15 - j)).sum

/-- The pixel words of a line packet. -/
def Hub.pixelWords (h : Hub) (p : Nat) (c : CapPort) (mode : Nat) : List Nat :=
  let s := scanOf mode
  let pixels := (List.range (h.capH p / s)).flatMap fun r => (List.range (h.capW p)).map fun x => h.pixel c.page x (c.row + s * r)
  packBits (if bit mode 3 then pixels.flatMap fun v => (List.range 4).map fun j => bit v (3 - j) else pixels.map fun v => decide (8 ≤ v))

/-- A line packet is sent; the frame's last one counts the frame. A stalled read of the page gives zeros (R53). -/
def Hub.linePacket (h : Hub) (p : Nat) : Hub :=
  let c := h.cport p
  if ¬ c.run ∨ c.left = 0 then h
  else
    let mode := h.reg (0x62 + p)
    let a := 4096 * c.row + flagAt (bit mode 3) 11 + flagAt c.blank 10 + flagAt (bit mode 2) 9 + flagAt (c.row == 0) 8 + h.fcnt p
    let b := 2048 * h.fld (kPort p 0) 12 8 + 512 * h.fld (kPort p 0) 1 0
    let (h, lost) := if c.blank then (h, false) else h.stallTaken 7 0 (176 + p)
    let words := h.pixelWords p c mode
    let body := [a, b] ++ (if c.blank then [] else if lost then words.map fun _ => 0 else words)
    let pk := ([0xB5E3] ++ body ++ [crcWords body]).map (BitVec.ofNat 16)
    let h := h.modPort p fun c => { c with packet := pk, row := c.row + 1, left := c.left - 1 }
    if c.left = 1 then (h.addWrap (kPort p 2) 3 1) else h

/-- A page is set as the held page of a port, and CAP_PAGE shows it (R518). -/
def Hub.holdPage (h : Hub) (p page : Nat) : Hub := (h.setFld 0x66 (8 * p + 7) (8 * p) page).modPort p fun c => { c with held := some page }

/-- A write of CAP_PAGE sets the held page of both ports. -/
def Hub.pageSelect (h : Hub) (w : Nat) : Hub := (h.holdPage 0 (bits w 7 0)).holdPage 1 (bits w 15 8)

/-! ### Cues (R519 to R521) -/

/-- How far DOM0's counter is past a cue's TICK. -/
def Hub.cueLate (h : Hub) (c : Nat) : Int := (h.stamp - BitVec.ofNat 32 (h.effN (kCue c 1) 2)).toInt

/-- The V bit of a cue is cleared. -/
def Hub.cueClear (h : Hub) (c : Nat) : Hub := h.setEff (kCue c 0) (putBits (h.eff (kCue c 0)) 15 15 0)

/-- A cue takes effect and is judged against the counter. -/
def Hub.cueJudge (h : Hub) (c : Nat) : Hub :=
  let h := iter 3 (fun i h => h.enforce (kCue c i)) h
  let h := { h with cap := { h.cap with late := h.cap.late.filter (· ≠ c) } }
  if ! bit (h.eff (kCue c 0)) 15 then h
  else
    let d := h.cueLate c
    let ev := fun (h : Hub) (code : Nat) => (h.setFlag (kCapFlag 1)).issueLimited 0 178 code c (min 65535 d.toNat) (bits (h.eff (kCue c 0)) 7 0)
    if d < 0 then h
    else if d ≤ h.reg (kCap 0x80300) then
      ev ({ h with cap := { h.cap with late := h.cap.late ++ [c] } }.addSat (kCapCnt 1) 2 1) 1
    else ((ev (h.addSat (kCapCnt 2) 2 1) 2).cueClear c).setReg (kCue c 3) 3

/-- The host writes TICK[31:16] of a cue; entries 56 to 63 belong to the decoder. -/
def Hub.cueWrite (h : Hub) (c hi : Nat) : Hub :=
  if 56 ≤ c then h.failWin 3 (0x80002 + 4 * c) else (h.setReg (kCue c 2) hi).cueJudge c

/-- The cues that are due at a tick of DOM0 fire, in ascending order. -/
def Hub.cueFire (h : Hub) : Hub :=
  iter 64 (fun c h =>
    let w := h.eff (kCue c 0)
    if bit w 15 && decide (0 ≤ h.cueLate c) then
      let h := iter 2 (fun p h => if bit w (8 + p) then h.holdPage p (bits w 7 0) else h) h
      let was := h.cap.late.contains c
      let h := ((h.cueClear c).addSat (kCapCnt 0) 2 1).setReg (kCue c 3) (if was then 2 else 1)
      { h with cap := { h.cap with late := h.cap.late.filter (· ≠ c) } }
    else h) h

/-! ### Captions from the train lines (R522, R523) -/

/-- The words of a page changed in one pixel. -/
def Hub.setPixel (h : Hub) (page x y v : Nat) : Hub :=
  let k := kCap (0x800 * page + 64 * y + x / 4)
  h.setFld k (15 - 4 * (x % 4)) (12 - 4 * (x % 4)) v

/-- Rows of a page cleared. -/
def Hub.clearRows (h : Hub) (page y n : Nat) : Hub := iter (64 * n) (fun i h => h.setReg (kCap (0x800 * page + 64 * y + i)) 0) h

/-- Is pixel (k, r) of a glyph set; a code without a glyph is drawn as 0x3F. The font is fixed and not stated. -/
def glyphBit (c k r : Nat) : Bool :=
  let c := if 0x20 ≤ c ∧ c ≤ 0x7E then c else 0x3F
  let w := (Config.glyph c (r / 2)).toNat
  bit (if r % 2 = 0 then w / 256 else w % 256) (7 - k)

/-- One character drawn. -/
def Hub.drawChar (h : Hub) (page line i c grey : Nat) : Hub :=
  iter 8 (fun r h => iter 6 (fun k h => h.setPixel page (6 * i + k) (8 * line + r) (if glyphBit c k r then grey else 0)) h) h

/-- CAPTION_APPLIED. -/
def Hub.captionApplied (h : Hub) (ty page entry : Nat) : Hub := h.issue 179 1 ty page entry

/-- A SHOW message: a cue on the lowest free entry of 56 to 63. -/
def Hub.captionShow (h : Hub) (t : Nat) (b : List Byte) : Hub :=
  let page := byteAt b 2
  match firstBelow 64 fun c => decide (56 ≤ c) && !bit (h.eff (kCue c 0)) 15 with
  | none => (h.addSat (kCapCnt 3) 2 1).issueLimited 0 178 3 page t 0
  | some c =>
    let tick := (h.stamp.toNat + beAt b 4 2 * rateHz (h.dom 0).rate / 1000) % 2 ^ 32
    let h := (h.setReg (kCue c 0) (0x8000 + 256 * byteAt b 3 + page)).setRegN (kCue c 1) 2 tick
    (h.cueJudge c).captionApplied 1 page c

/-- Is a message of a listed type well-formed. -/
def captionGood (b : List Byte) : Bool :=
  let len := byteAt b 1
  match byteAt b 0 with
  | 1 => len == 4 && decide (byteAt b 3 < 4) && decide (beAt b 4 2 ≤ 60000)
  | 2 => decide (4 ≤ len ∧ len ≤ 45 ∧ byteAt b 3 < 4 ∧ 1 ≤ byteAt b 4 ∧ byteAt b 4 ≤ 15)
  | _ => len == 1

/-- A message accepted on train-line port `t`, TYPE and LEN first, is applied. -/
def Hub.caption (h : Hub) (t : Nat) (b : List Byte) : Hub :=
  let ty := byteAt b 0
  let len := byteAt b 1
  let page := byteAt b 2
  if ! bit (h.reg 0x60) (8 + t) ∨ ty = 0 ∨ 0x7F < ty then h
  else if 3 < ty then h.addSat (kCapCnt 5) 2 1
  else if ! captionGood b then ((h.addSat (kCapCnt 4) 2 1).setFlag (kCapFlag 2)).issueLimited 0 179 2 ty len t
  else if ty = 1 then h.captionShow t b
  else if ty = 2 then
    let line := byteAt b 3
    let h := h.clearRows page (8 * line) 8
    let h := iter (len - 3) (fun i h => h.drawChar page line i (byteAt b (5 + i)) (byteAt b 4)) h
    h.captionApplied ty page 0xFFFF
  else (h.clearRows page 0 32).captionApplied ty page 0xFFFF

/-- CAP_STAT (R525). -/
def Hub.capStat (h : Hub) : Nat :=
  flagAt (h.cport 1).pend 5 + flagAt (h.cport 0).pend 4 + flagAt (h.cport 1).run 1 + flagAt (h.cport 0).run 0

end Sys2Proof.Machine
end

