-- ==== Sys2Proof/Machine/CaptionExec.lean ====
section
/-! DEFINITION. CaptionExec.lean: the meanings of the commands of the caption ports. -/

namespace Sys2Proof.Machine

/-- CDC_RX (R442, R443, R522): a message as decoded, its carrier lost before its end or not. -/
def execCdcRx (t : Fin 2) (bytes : List Byte) (lost : Bool) (s : State) : Host.Outcome State Fault Refusal :=
  s.onHub fun h => match h.cdcReceive t bytes lost with | (h, some b) => h.caption t b | (h, none) => h
/-- CAPTION_PORT_ENABLE (R512): CAP_CTL.EN bit p is written 1. -/
def execCaptionPortEnable (p : Fin 2) (s : State) : Host.Outcome State Fault Refusal := s.onHub fun h => h.capEnable p
/-- CAPTION_PORT_DISABLE (R512): CAP_CTL.EN bit p is written 0. -/
def execCaptionPortDisable (p : Fin 2) (s : State) : Host.Outcome State Fault Refusal := s.onHub fun h => h.capDisable p
/-- MODE_REQUEST (R513): a write of CAP_MODEREQp. -/
def execModeRequest (p : Fin 2) (mode : BitVec 4) (s : State) : Host.Outcome State Fault Refusal :=
  s.onHub fun h => h.modeRequest p mode.toNat
/-- CAPTION_FRAME_START (R514). -/
def execCaptionFrameStart (p : Fin 2) (s : State) : Host.Outcome State Fault Refusal := s.onHub fun h => h.frameStart p
/-- LINE_PACKET (R508). -/
def execLinePacket (p : Fin 2) (s : State) : Host.Outcome State Fault Refusal := s.onHub fun h => h.linePacket p
/-- PAGE_SELECT (R518): a write of CAP_PAGE. -/
def execPageSelect (value : Word) (s : State) : Host.Outcome State Fault Refusal := s.onHub fun h => h.pageSelect value.toNat
/-- CUE_WRITE (R519, R521): a write of a cue's TICK[31:16]. -/
def execCueWrite (c : Fin 64) (tickHi : Word) (s : State) : Host.Outcome State Fault Refusal :=
  s.onWrite fun h => h.cueWrite c tickHi.toNat

end Sys2Proof.Machine
end

