-- ==== Sys2Proof/Machine/Subst.lean ====
section
/-! DEFINITION. Subst.lean: a spare takes the place of a failed engine (R168 to R170, R609 to R614). -/

namespace Sys2Proof.Machine

/-- A word of the substitution registers in space 0x3F (R621). -/
def kSub (o : Nat) : Nat := spc 0x3F (0xE00 + o)

def Hub.modSub (h : Hub) (f : Subst → Subst) : Hub := { h with sub := f h.sub }

/-! ### Affected stream contexts (R613) -/

/-- The slots of the enabled inputs of an engine. -/
def Hub.inputSlots (h : Hub) (n : Nat) : List Nat :=
  ((List.range 32).filter fun i => bit (h.eff (kMap n i)) 15).map fun i => bits (h.eff (kMap n i)) 8 0

/-- The enabled outputs of an engine with their slots. -/
def Hub.outputSlots (h : Hub) (n : Nat) : List (Nat × Nat) :=
  ((List.range 32).filter fun i => bit (h.eff (kMap n (32 + i))) 15).map fun i => (i, bits (h.eff (kMap n (32 + i))) 8 0)

/-- Receive contexts whose slot an enabled input names (1), transmit contexts whose sink takes a valid crosspoint from an
output (2), in ascending order. -/
def Hub.affectedBy (h : Hub) (n : Nat) : List (Nat × Nat) :=
  let rx := (h.inputSlots n).filterMap fun s => if h.slotV s && h.slotType s == 4 then some (h.slotUnit s / 8) else none
  let outs := (h.outputSlots n).map (·.2)
  let tx := (h.rtm.xps.filter fun e => e.2.valid && outs.contains e.2.src).filterMap fun e =>
    let s := h.xpSnk e.1
    if h.slotV s && h.slotType s == 8 then some (h.slotUnit s / 8) else none
  (List.range 256).filterMap fun c => if rx.contains c then some (c, 1) else if tx.contains c then some (c, 2) else none

/-! ### The steps (R609, R610, R614) -/

/-- Step 2 once a spare is there: the map moves the logical engine to it. -/
def Hub.takeSpare (h : Hub) (n k : Nat) : Hub :=
  let l := h.fld 0x23 (8 * k + 3) (8 * k)
  let pe := h.peOf l
  let h := (h.setFld 0x23 (8 * k + 6) (8 * k + 6) 1).setReg (kMapSe l) 0
  let h := ((h.setReg (kMapSe n) (0x8000 + pe)).setReg (kPe pe) (0x2000 + n)).markSpares
  let h := h.modEng n fun e => { e with st := .substituting, park := [], faults := [], heldWr := [], tags := ⟨{}, {}, {}, {}⟩ }.farRetire
  h.modSub fun s => { s with active := some (n, (h.engine n).run.oldPe, pe), ready := false, affected := h.affectedBy n }

/-- A logical engine left without an engine takes a spare as soon as one is available, one at a time (R614). -/
def Hub.serveLost (h : Hub) : Hub :=
  if h.sub.active.isSome then h
  else match firstBelow 16 fun n => (h.engine n).st == .failed, h.spareEntry with
    | some n, some k => h.takeSpare n k
    | _, _ => h

/-- Step 2: the failed physical engine reaches END or is stopped, and is retired; declarations are served in order. -/
def Hub.retire (h : Hub) (n : Nat) : Hub :=
  if h.sub.active.isSome ∨ h.sub.waiting.head? ≠ some n ∨ (h.engine n).st ≠ .failing then h
  else
    let pe := h.peOf n
    let h := h.modSub fun s => { s with waiting := s.waiting.drop 1 }
    let h := h.modEng n fun e =>
      { e with shadow := { e.shadow.unhold with rep := none, hold := false }, fore := { e.fore.unhold with rep := none, hold := false },
               park := [], faults := [], heldWr := [], tags := ⟨{}, {}, {}, {}⟩,
               run := { e.run with inprog := false, pend := false, oldPe := pe } }.farRetire
    let h := { h with clu := { h.clu with xl := h.clu.xl.filter fun q => q.eng != n } }
    let h := ((h.setReg (kMapSe n) 0).setReg (kPe pe) 0x8000).markSpares
    match h.spareEntry with
    | some k => h.takeSpare n k
    | none =>
      let h := ((h.modEng n fun e => { e with st := .failed, run := { e.run with lost := true } }).setFlag 0x7B).issue 245 3 n pe (h.engine n).run.failCause
      if h.calHolds n then h.calStop 2 else h

/-- The substitution is complete: ENGINE_SUBSTITUTED, the affected contexts, the registers of R620 and R621. -/
def Hub.substituted (h : Hub) (n old new : Nat) : Hub :=
  let l := h.sub.affected
  let h := h.issue 245 1 n (16 * old + new) l.length
  let h := l.foldl (fun h c => h.issue 245 2 c.1 n c.2) h
  let h := iter 16 (fun w h => h.setReg (kSub w) ((l.filter fun c => c.1 / 16 == w).map fun c => 2 ^ (c.1 % 16)).sum) h
  let h := (h.addWrap (kSub 0x10) 2 1).setReg 0x79 (4096 * n + 256 * new + 16 * old + (h.engine n).run.failCause)
  let h := (h.setReg 0x7A h.sub.us.toNat).setFlag 0x7B
  (h.modSub fun s => { s with active := none, ready := false, affected := [] }).serveLost

/-- The register words of the restore image (R265). -/
def imageWords : List Nat :=
  [0x40100, 0x40101, 0x40001, 0x51014, 0x51015, 0x40000] ++ (List.range 64).map (0x40200 + ·) ++
    (List.range 16).flatMap fun g => (List.range 4).map fun w => 0x51040 + 8 * g + w

/-- Step 3: what the spare receives (R610). -/
def Hub.restore (h : Hub) (n : Nat) : Hub :=
  let img := (h.engine n).image
  let h := imageWords.foldl (fun h o => h.setEff (eng n o) (tget imageReset img.regs o).toNat) h
  let h := iter 1024 (fun i h => h.setReg (eng n (0x50000 + i)) 0) h
  let sp := fun (o : Nat) => rv (h.reg (kSe n o))
  let h := h.modEng n fun e =>
    { e with prog := img.prog, y := img.y, x := [], xVoid := [], ue := [], heldWr := [], outWin := [], handed := [], inRun := [], inPend := [],
             shadow := ({} : Bank).put rSP (sp 0x106), fore := ({} : Bank).put rSP (sp 0x108), walk := [], halt := 0,
             bgen := bit (h.reg (kSe n 0x100)) 14, glides := [],
             run := { e.run with inprog := false, pend := false, due := false, done := false, discard := false, outVoid := false,
                                 late := false, eccFail := false, count := 0, farUsed := 0 } }
  let h := iter 16 (fun g h =>
    let t := h.reg (kGlide n g 1)
    ((h.modGlide n g fun gl => { gl with c := BitVec.ofNat 32 (t * 65536) }).setReg (kGlide n g 4) t).setReg (kGlide n g 5) 0) h
  if (h.engine n).bgen then h.bgStart n else h

/-- The spare serves: its state is normal, the run count is 0, its first program begins the fade-in (R611, R612). -/
def Hub.serve (h : Hub) (n : Nat) (spen : Bool) : Hub :=
  h.modEng n fun e =>
    { e with st := .normal,
             run := { e.run with spen := spen, misses := 0, raised := false, gap := e.run.misses + e.run.gap, fade := 1, lost := false } }

/-- Step 3 ends; while SPEN is 0 in the image the substitution is complete. `us` is the time from the declaration to the
spare's first program. -/
def Hub.restored (h : Hub) (n : Nat) (us : Word) : Hub :=
  match h.sub.active with
  | none => h
  | some (m, old, new) =>
    if m ≠ n ∨ h.sub.ready then h
    else
      let h := (h.restore n).modSub fun s => { s with us := us }
      if bit (h.reg (kSe n 0x100)) 15 then h.modSub fun s => { s with ready := true }
      else ((h.serve n false).substituted n old new).kick n

/-- Ticks of the fade-in: floor(20 × fs ÷ 1,000) (R612). -/
def Hub.fadeTicks (h : Hub) (n : Nat) : Nat := 20 * rateHz (h.dom (h.domOf n)).rate / 1000

/-- A write of SE_SPARE; an engine that is lost takes a spare that it reserves (R169, R614). -/
def Hub.spareReserve (h : Hub) (w : Nat) : Hub := (h.spareWrite w).serveLost

/-- SE_CTL written: BGEN = 1 releases the engine that calibration holds, and its background code starts at SE_BGENTRY
(R484). -/
def Hub.ctlHost (h : Hub) (n w : Nat) : Hub :=
  if h.calHolds n && bit w 14 then (((h.calStop 1).bgStart n).ctlWrite n w) else h.ctlWrite n w

end Sys2Proof.Machine
end

