-- ==== Sys2Proof/Machine/EngTick.lean ====
section
/-! DEFINITION. EngTick.lean: what a tick of its domain does to an engine: the words that take effect, the judgement of the
outputs of the program before, misses, starting and stopping (R47 to R52, R156 to R161, R399, R611, R612). -/

namespace Sys2Proof.Machine

/-! ### Words that take effect at the tick (R52, R159, R273, R285) -/

/-- A changed map entry is checked and takes its new value, or keeps the old one (R159). -/
def Hub.mapTick (h : Hub) (n i : Nat) : Hub :=
  let k := kMap n i
  let w := h.reg k
  if w = h.eff k then h
  else match h.mapCause n (h.domOf n) i w with
    | some c => ((h.revert k).imageReg n (0x40200 + i)).issue n 0x208 c i (bits w 8 0)
    | none => h.enforce k

/-- The written words of an engine take effect. -/
def Hub.engWords (h : Hub) (n : Nat) : Hub :=
  let h := ((h.farDeadline n).farInvalidate n).enforce (kSe n 0)
  let h := iter 64 (fun i h => h.mapTick n i) (h.enforce (kSe n 0x101))
  iter 16 (fun g h =>
    if ((h.engine n).glide g).fresh then (h.enforce (kGlide n g 1)).modGlide n g fun gl => { gl with fresh := false, taken := true } else h) h

/-! ### Outputs (R47, R48, R399, R612) -/

/-- The miss-policy value at position `m` (R48). -/
def missPolicy (policy m : Nat) (last : BitVec 24) : BitVec 24 :=
  match policy with
  | 0 => last
  | 1 => 0
  | _ => if 8 ≤ m then 0 else BitVec.ofInt 24 (Int.tdiv (last.toInt * (8 - m)) 8)

/-- POLICY, RUNLEN and FAILOVER in force. -/
def Hub.policy (h : Hub) (n : Nat) : Nat := bits (h.eff (kSe n 0)) 1 0
def Hub.runLen (h : Hub) (n : Nat) : Nat := bits (h.eff (kSe n 0)) 7 4
def Hub.failover (h : Hub) (n : Nat) : Bool := bit (h.eff (kSe n 0)) 8

/-- An output's value enters its slot. -/
def Hub.putOut (h : Hub) (n o slot : Nat) (v : BitVec 24) : Hub :=
  let h := h.modEng n fun e => { e with out := tput (fun _ => 0) e.out o v }
  if h.slotIs slot 0 (32 * n + o) then { h with bus := tput (fun _ => {}) h.bus slot { v := v } } else h

/-- Every output takes the miss policy at position `m`. -/
def Hub.putPolicy (h : Hub) (n m : Nat) : Hub :=
  (h.outputSlots n).foldl (fun h o => h.putOut n o.1 o.2 (missPolicy (h.policy n) m (tget (fun _ => 0) (h.engine n).lastOn o.1))) h

/-- One output of a program that was on time: published if confirmed, else the miss policy (R399); the fade-in after a
substitution scales it (R612). -/
def Hub.judgeOut (h : Hub) (n o slot fade : Nat) : Hub :=
  let e := h.engine n
  let r := e.sample o
  let bad := e.run.outVoid || r.void || r.crema
  if bad then
    let k := spc 0x0B (0x10000 + 16 * n + if e.run.outVoid || r.void then 4 else 2)
    let m := tget (fun _ => 0) e.voids o + 1
    let h := (h.addSat k 2 1).modEng n fun e => { e with voids := tput (fun _ => 0) e.voids o m }
    h.putOut n o slot (missPolicy (h.policy n) m (tget (fun _ => 0) e.lastOn o))
  else
    let v := BitVec.ofNat 24 r.n
    let f := h.fadeTicks n
    let v := if fade = 0 ∨ f < fade then v else BitVec.ofInt 24 (convergent ((v.toInt * (fade : Int) : Int) / (f : Rat)))
    let h := h.modEng n fun e => { e with voids := tput (fun _ => 0) e.voids o 0, lastOn := tput (fun _ => 0) e.lastOn o v }
    h.putOut n o slot v

/-- A miss (R51): counted, and MISS_RUN once per run with FAILOVER declaring the engine failing. The position of the miss
policy goes on from the gap of a substitution until the spare's first on-time program (R611). -/
def Hub.miss (h : Hub) (n : Nat) : Hub :=
  let r := (h.engine n).run
  let d := h.domOf n
  let m := satN 15 (r.misses + 1)
  let first := if r.misses = 0 then h.tickLo d else r.firstMiss
  let h := (h.addSat (kSe n 0xA) 2 1).seFlag n 2
  let h := { h with asc := { h.asc with missed := true } }
  let h := (h.modRun n fun r => { r with misses := m, firstMiss := first }).putPolicy n (m + r.gap)
  if r.raised ∨ m < h.runLen n then h
  else
    let h := (h.modRun n fun r => { r with raised := true }).issue n 0x101 m first
      (d + 16 * h.policy n + flagAt (h.failover n && (h.engine n).st == .normal) 8)
    if h.failover n then h.fail n 1 else h

/-- The outputs of the program before are judged at the tick. -/
def Hub.judgeEng (h : Hub) (n : Nat) : Hub :=
  let r := (h.engine n).run
  let fade := r.fade
  if ! r.spen then h
  else if (h.engine n).st ≠ .normal then
    let h := h.modRun n fun r => { r with gap := r.gap + 1 }
    if r.lost ∧ h.fadeTicks n < r.gap + 1 then (h.outputSlots n).foldl (fun h o => h.putOut n o.1 o.2 0) h
    else h.putPolicy n (r.misses + r.gap + 1)
  else if ! r.due then h
  else
    let h := h.modRun n fun r => { r with fade := if fade = 0 ∨ h.fadeTicks n ≤ fade then 0 else fade + 1, done := false }
    if r.done then
      let h := h.modRun n fun r => { r with misses := 0, raised := false, gap := 0, everOn := true }
      (h.outputSlots n).foldl (fun h o => h.judgeOut n o.1 o.2 fade) h
    else h.miss n

/-! ### Starting and stopping (R49, R158, R161) -/

/-- An accepted disable takes effect (R158): a pending commit first, waits end, the pending tick is discarded. -/
def Hub.engDisable (h : Hub) (n : Nat) : Hub :=
  let d := h.domOf n
  let pend := (h.engine n).run.pend
  let h := h.commitNow n (h.tickLo d)
  let h := h.modEng n fun e =>
    { e with out := [], run := { e.run with spen := false, pend := false, discard := e.run.inprog, due := false, done := false,
                                            misses := 0, raised := false } }
  (h.issue n 0x203 d (h.tickLo d) (b2n pend)).kickSample n true

/-- The snapshot of an engine's enabled inputs (R155). -/
def Hub.inputsOf (h : Hub) (n : Nat) : Tbl Sample :=
  (List.range 32).foldl (fun t i =>
    let w := h.eff (kMap n i)
    if bit w 15 && h.slotV (bits w 8 0) then tput (fun _ => {}) t i (tget (fun _ => {}) h.bus (bits w 8 0)) else t) []

/-- The tick starts the program, becomes pending or is dropped (R49, R161, R268). A program that still runs is past its
deadline, in an engine that is disabled or failing too (R39, R57). -/
def Hub.engStart (h : Hub) (n : Nat) : Hub :=
  let e := h.engine n
  if ! e.run.spen ∨ e.st ≠ .normal then (if e.run.inprog then h.modRun n fun r => { r with recent := false } else h)
  else
    let h := h.modRun n fun r => { r with due := true }
    if e.run.inprog ∧ e.run.pend then
      ((h.modRun n fun r => { r with pendRecent := false }).addSat (kSe n 0xC) 2 1).seFlag n 3
    else
      let h := h.modEng n fun e => { e with inPend := h.inputsOf n, bound := e.commit.isSome }
      if e.run.inprog then h.modRun n fun r => { r with pend := true, pendRecent := true, recent := false, pendTick := h.tickLo (h.domOf n) }
      else h.startProgram n false

/-- An engine at a tick of its domain: words take effect, a disable does, the outputs are judged. -/
def Hub.engJudge (h : Hub) (n : Nat) : Hub :=
  let h := h.engWords n
  let on := bit (h.reg (kSe n 0x100)) 15
  let h := if (h.engine n).run.spen ∧ ¬ on ∧ (h.engine n).st = .normal then h.engDisable n else h
  h.judgeEng n

/-- An accepted enable takes effect (R158), and the program starts. -/
def Hub.enableTick (h : Hub) (n : Nat) : Hub :=
  let e := h.engine n
  let h := if bit (h.reg (kSe n 0x100)) 15 ∧ ! e.run.spen ∧ e.st = .normal then
      (h.modRun n fun r => { r with spen := true, misses := 0, raised := false, gap := 0, due := false }).issue n 0x201 (h.domOf n)
        (h.tickLo (h.domOf n)) (h.reg (kSe n 1))
    else h
  h.engStart n

/-- An engine at a tick of its domain, after the snapshot: a spare starts to serve, an enable takes effect, the program
starts. -/
def Hub.engBegin (h : Hub) (n : Nat) : Hub :=
  match h.sub.active with
  | some (m, old, new) =>
    if m ≠ n then h.enableTick n
    else if h.sub.ready then ((h.serve n true).engStart n).substituted n old new
    else h
  | none => h.enableTick n

/-- SE_FAILREQ written: 0x00FA declares the engine failing (R170). -/
def Hub.failRequest (h : Hub) (n w : Nat) : Hub := h.seWrite n fun h => if w = 0xFA then h.fail n 3 else h

end Sys2Proof.Machine
end

