-- ==== Sys2Proof/Machine/Classify.lean ====
section
/-! DEFINITION. Classify.lean: the packet classifier: tables and their writes, profiles, lookup, actions, fragments,
malformed frames, intercepts and the passes (R330 to R361). -/

namespace Sys2Proof.Machine

/-- A word of the classifier space. -/
def kCls (o : Nat) : Nat := spc 0x09 o

/-- Word `w` of hash entry `e` (R344). -/
def kEnt (e w : Nat) : Nat := spc 0x08 (32 * e + w)

/-- Classifier counter `j` of 0x1220 (R365). -/
def Hub.clsCnt (h : Hub) (j : Nat) : Hub := h.addSat (kCls (0x1220 + 2 * j)) 2 1

/-! ### Keys, hash and lookup (R341 to R345) -/

/-- Word `w` of profile `p` in force. -/
def Hub.profile (h : Hub) (p w : Nat) : Nat := h.eff (kCls (16 * p + w))

/-- The key that profile `p` builds (R341). -/
def Hub.keyOf (h : Hub) (p : Nat) (f : Parsed) (port phit pass tag : Nat) : Nat :=
  let sel := (List.range (bits (h.profile p 15) 3 0)).filterMap fun i => h.field f port phit pass tag (bits (h.profile p i) 4 0)
  let wv := sel.foldl (fun a k => (a.1 + k.1, a.2 * 2 ^ k.1 + k.2 % 2 ^ k.1)) (0, 0)
  wv.2 * 2 ^ (320 - wv.1)

/-- The bucket of a key under profile `p` in table `t` (R343). -/
def Hub.bucket (h : Hub) (t p key : Nat) : Nat :=
  crcBytes 32 0x1EDC6F41 (h.effN (kCls (0x118 + 2 * t)) 2) (BitVec.ofNat 8 p :: beBytes 40 key) % 2048

/-- Is one of `n` words from `k` on in error: the entry does not match until it is rewritten (R531). -/
def Hub.clsSpoilt (h : Hub) (k n : Nat) : Bool := h.net.clsBad.any fun x => decide (k ≤ x) && decide (x < k + n)

/-- A word of the tables is rewritten. -/
def Hub.clsFresh (h : Hub) (k : Nat) : Hub := { h with net := { h.net with clsBad := h.net.clsBad.erase k } }

/-- V of an entry, its PROF and its KEY in force (R113, R344). -/
def Hub.entV (h : Hub) (e : Nat) : Bool := bit (h.reg (kEnt e 31)) 15
def Hub.entProf (h : Hub) (e : Nat) : Nat := h.fld (kEnt e 31) 2 0
def Hub.entKey (h : Hub) (e : Nat) : Nat := h.effN (kEnt e 0) 20

/-- The entry that a key hits (R345). -/
def Hub.lookup (h : Hub) (t p key : Nat) : Option Nat :=
  let e0 := 8192 * t + 4 * h.bucket t p key
  (firstBelow 4 fun w => h.entV (e0 + w) && !h.clsSpoilt (kEnt (e0 + w) 0) 32 && h.entProf (e0 + w) == p && h.entKey (e0 + w) == key).map fun w => e0 + w

/-- The profile that the selection table gives pass 0 (R342). -/
def Hub.select (h : Hub) (port : Nat) (f : Parsed) : Option Nat :=
  let w := fun i => h.eff (kCls (0x80 + 2 * i))
  (firstBelow 16 fun i => bit (w i) 15 && !h.clsSpoilt (kCls (0x80 + 2 * i)) 2 && bit (w i) port && bit (bits (w i) 5 2) f.kind && (bit (w i) 14 || bits (w i) 13 6 == f.pclass)).map
    fun i => bits (h.eff (kCls (0x81 + 2 * i))) 2 0

/-- Does pattern `k` match the transport payload (R359). -/
def Hub.patternHit (h : Hub) (b : List Byte) (f : Parsed) (grp k : Nat) : Bool :=
  let w := fun i => h.eff (kCls (0x200 + 32 * k + i))
  let c := w 16
  let byte := fun (base i : Nat) => if i % 2 = 0 then w (base + i / 2) / 256 else w (base + i / 2) % 256
  let a := bits c 7 0
  let n := bits c 11 8 + 1
  bit c 15 && !h.clsSpoilt (kCls (0x200 + 32 * k)) 17 && bits c 14 12 == grp && decide (a + n ≤ f.payLen) && decide (f.pay + a + n ≤ b.length) &&
    (List.range n).all fun i => (byteAt b (f.pay + a + i) &&& byte 8 i) == (byte 0 i &&& byte 8 i)

/-- PHIT: the lowest-numbered matching pattern, or 0xFF. -/
def Hub.phit (h : Hub) (b : List Byte) (f : Parsed) (p : Nat) : Nat :=
  let c := h.profile p 15
  if bit c 13 ∧ f.l4 ≠ 0 then (firstBelow 64 (h.patternHit b f (bits c 10 8))).getD 0xFF else 0xFF

/-! ### Actions (R350, R351) -/

/-- An action (R350). -/
structure Action where
  verb : Nat := 0
  grp : Bool := false
  q : Nat := 0
  copy : Bool := false
  mirror : Bool := false
  hgrp : Bool := false
  hq : Nat := 0
  tag : Nat := 0
deriving DecidableEq, Repr

/-- An action of its 64 bits. -/
def Action.ofNat (n : Nat) : Action :=
  { verb := bits n 3 0, copy := bit n 4, mirror := bit n 5, grp := bit n 31, q := bits n 25 16, hgrp := bit n 47, hq := bits n 41 32,
    tag := bits n 63 48 }

/-- The 64 bits of an action. -/
def Action.toNat (a : Action) : Nat :=
  a.verb + flagAt a.copy 4 + flagAt a.mirror 5 + a.q * 2 ^ 16 + flagAt a.grp 31 + a.hq * 2 ^ 32 + flagAt a.hgrp 47 + a.tag * 2 ^ 48

/-- The default action of an ingress port (R355). -/
def Hub.defAction (h : Hub) (port : Nat) : Action := Action.ofNat (h.effN (kCls (0x100 + 4 * port)) 4)

/-- A pass: the hub with its counts, and its action (R342, R345, R355). -/
def Hub.runPass (h : Hub) (fl : Fly) (f : Parsed) : Hub × Action :=
  let h := h.addWrap (kCls (0x1200 + 3 * fl.pass)) 3 1
  let dflt := h.defAction fl.port
  let prof := if fl.pass = 0 then (if bit (h.reg 0x3C) 15 then h.select fl.port f else none)
    else if bit (h.reg 0x3C) 15 then some fl.prof else none
  match prof with
  | none => (h, dflt)
  | some p =>
    let c := h.profile p 15
    if ! bit c 15 || h.clsSpoilt (kCls (16 * p)) 16 then (h, dflt)
    else
      let t := b2n (bit c 14)
      match h.lookup t p (h.keyOf p f fl.port (h.phit fl.bytes f p) fl.pass fl.tag) with
      | some e => ((h.addWrap (kEnt e 24) 3 1).addWrap (kCls (0x1209 + 3 * t)) 3 1, Action.ofNat (h.effN (kEnt e 20) 4))
      | none => (h.addWrap (kCls 0x120F) 3 1, dflt)

/-! ### Frames in flight -/

/-- The frame with a number changed. -/
def Hub.modFly (h : Hub) (id : Nat) (g : Fly → Fly) : Hub :=
  { h with net := { h.net with fly := h.net.fly.map fun f => if f.id = id then g f else f } }

/-- Is a frame in flight: a pass of it has not decided, or a copy waits for its FCS (R331, R353). -/
def Fly.inFlight (f : Fly) : Bool :=
  !f.decided || !f.copies.isEmpty || f.answer || f.clock || f.tunnel || (match f.primary with | .host _ => true | _ => false)

/-- Frames in flight. -/
def Hub.flying (h : Hub) : Nat := (h.net.fly.filter Fly.inFlight).length

/-- The frame with a number. -/
def Hub.flyOf (h : Hub) (id : Nat) : Option Fly := h.net.fly.find? fun f => f.id == id

/-- A copy of a frame admitted to a queue; it is made once the FCS is confirmed (R353). -/
def Hub.copyTo (h : Hub) (id q kind : Nat) : Hub :=
  match h.flyOf id with
  | none => h
  | some f =>
    match h.offer q f.cells with
    | (h, true) => h.modFly id fun f => { f with copies := f.copies ++ [(q, kind)] }
    | (h, false) => h

/-- A copy to one of the fixed queues; where it is not made, DISCOPY counts (R352). -/
def Hub.copyFix (h : Hub) (id i kind : Nat) (f : Parsed) : Hub :=
  match h.flyOf id with
  | none => h
  | some fl =>
    match h.fixQueue i fl.port f with
    | some q => h.copyTo id q kind
    | none => h.clsCnt 1

/-- A frame is malformed (R357). -/
def Hub.malformed (h : Hub) (id c : Nat) (f : Parsed) : Hub :=
  match h.flyOf id with
  | none => h
  | some fl =>
    let h := ((h.addSat (kCls (0x1240 + 2 * c)) 2 1).setFlag (kCls 0x120)).issueLimited c 48 1 c fl.port fl.pass
    let h := h.modFly id fun x => { x with decided := true, recirc := 0 }
    if bit (h.reg (kCls 0x116)) c then h.copyFix id 2 1 f else h

/-! ### Fragments (R360, R361) -/

/-- Fragment entry `i`. -/
def Hub.frag (h : Hub) (i : Nat) : Option FragEntry := tget (fun _ => none) h.net.frags i

/-- Fragment entry `i` set or freed. -/
def Hub.setFrag (h : Hub) (i : Nat) (e : Option FragEntry) : Hub := { h with net := { h.net with frags := tput (fun _ => none) h.net.frags i e } }

/-- Does an entry hold the datagram of a fragment. -/
def FragEntry.isOf (e : FragEntry) (f : Parsed) : Bool :=
  e.v6 == (f.kind == 3) && e.src == f.sip && e.dst == f.dip && e.ident == f.ident && (e.v6 || e.proto == f.proto)

/-- The entry of a fragment's datagram. -/
def Hub.fragOf (h : Hub) (f : Parsed) : Option (Nat × FragEntry) :=
  (h.net.frags.find? fun x => !h.clsSpoilt (kCls (0xA00 + 16 * x.1)) 16 && x.2.any fun e => e.isOf f).bind fun x => x.2.map fun e => (x.1, e)

/-- 4 or 6, as the events of fragments say. -/
def Parsed.ipVer (f : Parsed) : Nat := if f.kind = 3 then 6 else 4

/-- A frame goes to CLS_FRAGQ, and FRAGFLAG is set where `flag`. -/
def Hub.toFragQ (h : Hub) (id : Nat) (f : Parsed) (flag : Bool) : Hub :=
  let h := if flag then h.setFlag (kCls 0x122) else h
  (h.copyFix id 3 0 f).modFly id fun x => { x with decided := true, recirc := 0 }

/-- The entry after a fragment of its datagram: none once all bytes have been seen. -/
def FragEntry.see (e : FragEntry) (f : Parsed) (now : Nat) : Option FragEntry :=
  let total := if f.more then e.total else some (8 * f.fragOff + f.fragLen)
  let e := { e with seen := e.seen + f.fragLen, total := total, latest := now }
  if total = some e.seen then none else some e

/-- Does a fragment break its entry's total (cause 7 of R356). -/
def FragEntry.breaks (e : FragEntry) (f : Parsed) : Bool :=
  match e.total with
  | none => false
  | some t => decide (t < 8 * f.fragOff + f.fragLen) || (!f.more && t != 8 * f.fragOff + f.fragLen)

/-- The entry of a datagram is freed. -/
def Hub.freeFrag (h : Hub) (f : Parsed) : Hub :=
  match h.fragOf f with
  | some (i, _) => h.setFrag i none
  | none => h

/-- A first fragment's final action is recorded; false where the table is full (R361). -/
def Hub.recordFrag (h : Hub) (f : Parsed) (a : Nat) : Hub × Bool :=
  let slot := ((h.fragOf f).map (·.1)).orElse fun _ => firstBelow 128 fun i => (h.frag i).isNone
  match slot with
  | none => (h, false)
  | some i =>
    let e : FragEntry := { v6 := f.kind == 3, src := f.sip, dst := f.dip, ident := f.ident, proto := if f.kind = 3 then 0 else f.proto,
                           seen := 0, total := none, action := a, latest := h.refMs }
    (h.setFrag i (e.see f h.refMs), true)

/-- A fragment entry times out (R361). -/
def Hub.fragTimeout (h : Hub) (i : Nat) : Hub :=
  match h.frag i with
  | none => h
  | some e => ((h.setFrag i none).clsCnt 5).issueLimited 0 50 3 (if e.v6 then 6 else 4) (e.ident % 65536) (e.seen % 65536)

/-! ### The primary copy (R351, R308) -/

/-- The port transmitter of a cut-through frame is taken. -/
def Hub.cutting (h : Hub) (p : Nat) : Bool := h.net.fly.any fun f => match f.primary with | .cut _ q _ => q == p | _ => false

/-- Is a port's link up, and its speed. -/
def Hub.linkUp (h : Hub) (p : Nat) : Bool := bit (h.reg 0x38) (4 * p + 3)
def Hub.linkSpeed (h : Hub) (p : Nat) : Nat := h.fld 0x38 (4 * p + 2) (4 * p + 1)

/-- Is a frame a PAUSE frame (R307). -/
def isPause (b : List Byte) : Bool := beAt b 12 2 == 0x8808 && beAt b 14 2 == 1

/-- A network word of space 0x3F. -/
def kNet (o : Nat) : Nat := spc 0x3F o

/-- Counter `j` of port `p` at 0x0440: RXFRAMES, RXBYTES, TXFRAMES, TXBYTES, CUTTHRU (R329). -/
def Hub.portCnt (h : Hub) (p j n : Nat) : Hub := h.addWrap (kNet (0x440 + 0x40 * p + 3 * j)) 3 n
/-- Error counter `j` of port `p`: RXFCS, RXRUNT, RXOVER, RXSYM, RXPAUSE, TXSTOMP, TXDROP. -/
def Hub.portErr (h : Hub) (p j : Nat) : Hub := h.addSat (kNet (0x450 + 0x40 * p + 2 * j)) 2 1

/-- What port `p` sends or sent last. -/
def Hub.wire (h : Hub) (p : Nat) : Option Sent := tget (fun _ => none) h.net.wire p

/-- What port `p` sends changed. -/
def Hub.setWire (h : Hub) (p : Nat) (w : Option Sent) : Hub := { h with net := { h.net with wire := tput (fun _ => none) h.net.wire p w } }

/-- A frame of `n` bytes without its FCS counts as sent by port `p`. -/
def Hub.countSent (h : Hub) (p n : Nat) : Hub := (h.portCnt p 2 1).portCnt p 3 (n + 4)

/-- The stored frame that port `p` sends has left it. -/
def Hub.sentDone (h : Hub) (p : Nat) : Hub :=
  match h.wire p with
  | some w => if w.since.isSome then (h.setWire p (some { w with since := none })).countSent p w.bytes.length else h
  | none => h

/-- Does a Follow_Up at the head of a queue wait for its Sync, which has not left port `p` yet (R324). -/
def Hub.waitsSync (h : Hub) (p : Nat) (b : List Byte) : Bool :=
  let f := h.parse b
  match ptpView b f with
  | none => false
  | some v =>
    let isSync := fun (x : List Byte) =>
      let g := h.parse x
      (ptpView x g).any fun w => w.sync2 g && w.ident == v.ident && w.seq == v.seq && w.dom == v.dom
    v.followUp f && ((h.boundQueues 1 p fun _ => true).any (fun q => (h.queue q).any fun x => isSync x.bytes) ||
      h.net.fly.any fun x => (match x.primary with | .cut _ q _ => q == p | _ => false) && isSync x.bytes)

/-- A frame goes to the transmitter of queue `q`: cut through, or stored while it arrives (R308). A Follow_Up that must wait for
its Sync is stored (R324). -/
def Hub.toPort (h : Hub) (id q : Nat) (idle : Bool) : Hub :=
  match h.flyOf id with
  | none => h
  | some f =>
    let p := h.qTarget q
    if isPause f.bytes then h
    else
      let h := if idle then h.sentDone p else h
      let cut := (h.queue q).isEmpty && idle && !h.cutting p && h.linkUp p && h.linkSpeed f.port == h.linkSpeed p && !h.waitsSync p f.bytes
      match h.offer q f.cells with
      | (h, false) => h
      | (h, true) =>
        if cut then h.modFly id fun x => { x with primary := .cut q p f.cells }
        else (h.modQueue q fun l => l ++ [{ bytes := f.bytes, port := f.port, stamp := f.stamp, cells := f.cells, fly := some id }]).modFly id
          fun x => { x with primary := .queued q }

/-- The kind of target that an action's primary copy needs is there (R351). -/
def Hub.targetOk (h : Hub) (a : Action) (port : Nat) (f : Parsed) : Bool :=
  match a.verb with
  | 1 => h.qKind a.q == 1
  | 2 => (h.hostQueue a.grp a.q port f).isSome
  | 3 => h.qKind a.q == 3
  | _ => true

/-- A frame's final action carried out; `id` numbers the frame. Its targets have been checked. -/
def Hub.primary (h : Hub) (id : Nat) (a : Action) (f : Parsed) (idle : Bool) : Hub :=
  match h.flyOf id with
  | none => h
  | some fl =>
    match a.verb with
    | 0 => h.clsCnt 7
    | 1 => h.toPort id a.q idle
    | 2 =>
      match h.hostQueue a.grp a.q fl.port f with
      | none => h
      | some q =>
        match h.offer q fl.cells with
        | (h, true) => h.modFly id fun x => { x with primary := .host q }
        | (h, false) => h
    | 3 =>
      let c := h.qTarget a.q
      if h.strReceives c then
        ((h.addWrap (kQue (0x1000 + 8 * a.q)) 3 1).rxFrame c id fl.bytes f fl.cells).modFly id fun x => { x with primary := .stream c }
      else h.queueDrop a.q 3
    | 4 => h.toPort id (h.defTx (1 - fl.port)) idle
    | _ => h

/-- An action carried out: targets checked, copies and primary made (R351, R352). `a` holds the copies of every pass. A fragment
goes to CLS_FRAGQ where its action delivers it to a stream (R360). -/
def Hub.dispose (h : Hub) (id : Nat) (a : Action) (f : Parsed) (idle : Bool) : Hub :=
  match h.flyOf id with
  | none => h
  | some fl =>
    let hq := if a.copy then h.hostQueue a.hgrp a.hq fl.port f else none
    if ! h.targetOk a fl.port f ∨ (a.copy ∧ hq.isNone) then h.malformed id 12 f
    else
      let h := if f.frag ∧ a.verb = 3 then h.toFragQ id f true else h.primary id a f idle
      let h := match hq with
        | some q => h.copyTo id q 4
        | none => h
      let h := if a.mirror then h.copyFix id 0 8 f else h
      h.modFly id fun x => { x with decided := true, recirc := 0 }

/-- A frame's final action where it is a fragment, and otherwise (R360, R361). -/
def Hub.finish (h : Hub) (id : Nat) (a : Action) (f : Parsed) (idle : Bool) : Hub :=
  match h.flyOf id with
  | none => h
  | some fl =>
    if ! f.frag then h.dispose id a f idle
    else if ! h.targetOk a fl.port f ∨ (a.copy ∧ (h.hostQueue a.hgrp a.hq fl.port f).isNone) then h.malformed id 12 f
    else
      match h.recordFrag f a.toNat with
      | (h, false) => ((h.clsCnt 4).issueLimited 0 50 2 f.ipVer (f.ident % 65536) fl.port).toFragQ id f true
      | (h, true) => (if a.verb = 3 then h.clsCnt 6 else h).dispose id a f idle

/-! ### Intercepts (R340) -/

/-- PTP: UDP to port 319 or 320 at a PTP or an own address. -/
def Hub.isPtp (h : Hub) (f : Parsed) : Bool :=
  f.l4 == 17 && (f.dport == 319 || f.dport == 320) && (h.fld 0x39 9 8 != 0) &&
    ((f.kind == 2 && f.dip == 0xE0000181) || (f.kind == 3 && f.dip / 2 ^ 120 == 0xFF && f.dip / 2 ^ 116 % 16 == 0 && f.dip % 2 ^ 112 == 0x181) ||
      h.toOwn f)

/-- The tunnel takes the frame (R103). -/
def Hub.isTunnel (h : Hub) (f : Parsed) : Bool :=
  bit (h.reg 0x0C) 15 && f.l4 == 17 && !f.frag && f.dport == h.reg 0x0D && h.toOwn f

/-- A request that the responder answers (R314). -/
def Hub.isNeighbour (h : Hub) (f : Parsed) : Bool := (f.arpReq && h.own4 f.target) || (f.icmp == some 135 && h.own6 f.target)

/-- Group membership. -/
def isGroup (f : Parsed) : Bool := f.igmp || f.icmp == some 130 || f.icmp == some 131 || f.icmp == some 132 || f.icmp == some 143

/-- The copies of the intercepts of pass 0. -/
def Hub.intercept (h : Hub) (id : Nat) (b : List Byte) (f : Parsed) : Hub :=
  let on := fun i => bit (h.reg (kCls 0x114)) i
  let h := if on 0 && h.isPtp f then h.modFly id fun x => { x with clock := true } else h
  let h := if on 1 && h.isNeighbour f then h.modFly id fun x => { x with answer := true } else h
  let h := if on 3 && isGroup f then h.copyFix id 1 2 f else h
  let mgmt := byteAt b f.pay % 16
  if on 4 && h.isPtp f && (mgmt == 12 || mgmt == 13) then h.copyFix id 1 2 f else h

/-! ### The passes (R332, R352, R354) -/

/-- Copies that earlier passes collected, joined with those of an action. -/
def Fly.collect (fl : Fly) (a : Action) : Action :=
  let old := (fl.copyTo.map Action.ofNat).getD {}
  { a with copy := a.copy || old.copy, hgrp := if a.copy then a.hgrp else old.hgrp, hq := if a.copy then a.hq else old.hq,
           mirror := a.mirror || old.mirror }

/-- The frames in a recirculation queue, in decision order (R372). -/
def Hub.recirc (h : Hub) (q : Nat) : List Nat := tget (fun _ => []) h.net.recircs q

/-- The frames of a recirculation queue changed. -/
def Hub.modRecirc (h : Hub) (q : Nat) (g : List Nat → List Nat) : Hub :=
  { h with net := { h.net with recircs := tput (fun _ => []) h.net.recircs q (g (h.recirc q)) } }

/-- A pass decides. -/
def Hub.passOnce (h : Hub) (id : Nat) (f : Parsed) (idle : Bool) : Hub :=
  match h.flyOf id with
  | none => h
  | some fl =>
    let h := (h.modFly id fun x => { x with recirc := 0 }).modRecirc fl.recirc (List.filter (· != id))
    let (h, act) := h.runPass fl f
    let a := fl.collect act
    if a.verb ≠ 5 then h.finish id a f idle
    else if fl.pass = 2 then h.malformed id 10 f
    else
      let q := 1020 + h.freeVal % 4
      match h.tookFree.offer q fl.cells with
      | (h, false) => h.modFly id fun x => { x with decided := true }
      | (h, true) => (h.modRecirc q (· ++ [id])).modFly id fun x =>
        { x with pass := fl.pass + 1, prof := a.q % 8, tag := a.tag, recirc := q,
                 copyTo := some ({ copy := a.copy, mirror := a.mirror, hgrp := a.hgrp, hq := a.hq } : Action).toNat }

/-- Pass 0: malformed frames, intercepts and fragments come before the lookup (R340, R356, R360). -/
def Hub.passZero (h : Hub) (id : Nat) (fl : Fly) (f : Parsed) (idle : Bool) : Hub :=
  match f.bad with
  | some c => (if c = 7 then h.freeFrag f else h).malformed id c f
  | none =>
    if bit (h.reg (kCls 0x114)) 2 && h.isTunnel f then h.modFly id fun x => { x with decided := true, tunnel := true }
    else
      let follow := !bit (h.reg 0x3C) 14
      let old := h.fragOf f
      if f.frag && follow && old.any (fun e => e.2.breaks f) then (h.freeFrag f).malformed id 7 f
      else
        let h := h.intercept id fl.bytes f
        if ! f.frag then h.passOnce id f idle
        else if ! follow then (h.clsCnt 2).toFragQ id f false
        else if f.fragOff = 0 then h.passOnce id f idle
        else match old with
          | none => ((h.clsCnt 3).issueLimited 0 50 1 f.ipVer (f.ident % 65536) fl.port).toFragQ id f true
          | some (i, e) =>
            let h := h.setFrag i (e.see f h.refMs)
            let h := h.addWrap (kCls 0x1212) 3 1
            h.dispose id (Action.ofNat e.action) f idle

/-- The next pass of the frame in flight at position `i` decides; `idle` says whether the transmitter that it may be cut
through to is idle. A frame in a recirculation queue decides once those before it have (R372). -/
def Hub.passDecision (h : Hub) (i : Nat) (idle : Bool) : Hub :=
  match h.net.fly[i]? with
  | none => h
  | some fl =>
    if fl.decided ∨ (fl.recirc ≠ 0 ∧ (h.recirc fl.recirc).head? ≠ some fl.id) then h
    else
      let f := fl.parsed.getD (h.parse fl.bytes)
      let h := h.modFly fl.id fun x =>
        { x with stamp := h.stamp, cells := cellsFor (f.declared.getD 2000), parsed := some f }
      if fl.pass = 0 then h.passZero fl.id { fl with stamp := h.stamp } f idle else h.passOnce fl.id f idle

/-! ### Table writes (R341, R346, R348, R349, R350, R358) -/

/-- A stored field of `m` words takes effect. -/
def Hub.enforceN (h : Hub) (k m : Nat) : Hub := iter m (fun i h => h.enforce (k + i)) h
/-- A refused field of `m` words returns to what is in force. -/
def Hub.revertN (h : Hub) (k m : Nat) : Hub := iter m (fun i h => h.revert (k + i)) h

/-- A write of word +15 of profile `p` (R341). -/
def Hub.profileWrite (h : Hub) (p w : Nat) : Hub :=
  let h := (h.clsFresh (kCls (16 * p + 15))).setReg (kCls (16 * p + 15)) (w &&& 0xE70F)
  let n := bits w 3 0
  let width := fun i => (h.field {} 0 0 0 0 (h.fld (kCls (16 * p + i)) 4 0)).map (·.1)
  if 12 < n ∨ (List.range n).any (fun i => (width i).isNone) ∨ 320 < ((List.range n).map fun i => (width i).getD 0).sum then
    (h.revertN (kCls (16 * p)) 16).failWin 3 (16 * p + 15)
  else h.enforceN (kCls (16 * p)) 16

/-- The count of valid entries of a table changes (R365). -/
def Hub.tblCnt (h : Hub) (e : Nat) (up : Bool) : Hub :=
  let k := kCls (0x11C + e / 8192)
  h.setReg k (if up then h.reg k + 1 else h.reg k - 1)

/-- A write of word 31 of an entry (R346). -/
def Hub.entryCtl (h : Hub) (e w : Nat) : Hub :=
  let h := h.clsFresh (kEnt e 31)
  let v := bit w 15
  let p := bits w 2 0
  let twin := (List.range 4).any fun i =>
    let o := e / 4 * 4 + i
    o != e && h.entV o && h.entProf o == p && h.entKey o == h.entKey e
  if h.entV e then
    if ! v then (h.setReg (kEnt e 31) p).tblCnt e false
    else if p = h.entProf e then h
    else h.failWin 3 (32 * e + 31)
  else if v then
    if twin then h.failWin 3 (32 * e + 31) else (h.setReg (kEnt e 31) (0x8000 + p)).tblCnt e true
  else h.setReg (kEnt e 31) p

/-- A write of word 23 of an entry: its action changes as one value, or VERB is bad (R346, R350). -/
def Hub.entryAction (h : Hub) (e w : Nat) : Hub :=
  let h := (h.clsFresh (kEnt e 23)).setReg (kEnt e 23) w
  if 6 ≤ h.fld (kEnt e 20) 3 0 then (h.revertN (kEnt e 20) 4).failWin 3 (32 * e + 23) else h.enforceN (kEnt e 20) 4

/-- A write of another word of an entry; KEY is in force once its word 19 is written (R113, R344, R346). -/
def Hub.entryWord (h : Hub) (e o w : Nat) : Hub :=
  let h' := (h.clsFresh (kEnt e o)).store 0x08 (32 * e + o) w
  if o < 20 then (if h.entV e then h.failWin 3 (32 * e + o) else if o = 19 then h'.enforceN (kEnt e 0) 20 else h')
  else if o < 23 then h'
  else h

/-- A write of the last word of a default action (R350, R355). -/
def Hub.defActWrite (h : Hub) (n w : Nat) : Hub :=
  let k := kCls (0x100 + 4 * n)
  let h := h.setReg (k + 3) w
  if 6 ≤ h.fld k 3 0 then (h.revertN k 4).failWin 3 (0x103 + 4 * n) else h.enforceN k 4

/-- A write of word +16 of pattern `k` (R358). -/
def Hub.patternWrite (h : Hub) (k w : Nat) : Hub :=
  let h := (h.clsFresh (kCls (0x210 + 32 * k))).setReg (kCls (0x210 + 32 * k)) w
  if 256 < bits w 7 0 + bits w 11 8 + 1 then (h.revertN (kCls (0x200 + 32 * k)) 17).failWin 3 (0x210 + 32 * k)
  else h.enforceN (kCls (0x200 + 32 * k)) 17

/-- A write of CLS_SEEDt: its upper word completes it (R349). -/
def Hub.seedWrite (h : Hub) (t w : Nat) : Hub :=
  let k := kCls (0x118 + 2 * t)
  if h.reg (kCls (0x11C + t)) = 0 then (h.setReg (k + 1) w).enforceN k 2
  else (h.revertN k 2).failWin 3 (0x119 + 2 * t)

/-- CLS_FENCE.GO: BUSY is set, and the fence waits for the frames in flight (R348). -/
def Hub.fenceGo (h : Hub) : Hub :=
  { h.setReg (kCls 0x11E) 0x8000 with net := { h.net with fence := h.net.fly.map (·.id) } }

/-- Every frame that was in flight at the fence has decided: BUSY clears. -/
def Hub.fenceDone (h : Hub) : Hub :=
  if h.net.fence.any fun i => (h.flyOf i).any fun f => !f.decided then h
  else { h.setReg (kCls 0x11E) 0 with net := { h.net with fence := [] } }

end Sys2Proof.Machine
end

