-- ==== Sys2Proof/Machine/Origin.lean ====
section
/-! DEFINITION. Origin.lean: the datagrams that the hub originates, and the tunnel's queue and answers (R103 to R107, R306,
R313, R314). -/

namespace Sys2Proof.Machine

/-! ### Datagrams (R306, R313, R314) -/

/-- A UDP datagram to a peer from the own address `own`, with the peer's tags. DESIGN CHOICE (log 140): the fields of the IP header
that the spec does not state are free, there are no options, and the UDP checksum is computed. -/
def Hub.datagram (h : Hub) (p : NetPeer) (own sport dport : Nat) (body : List Byte) : List Byte :=
  let o := Config.openByte
  let ip : List Byte :=
    if p.v6 then [0x86, 0xDD, 0x60 ||| (o 4 &&& 0x0F), o 5, o 6, o 7, 0, 0, 17, o 8] ++ beBytes 16 own ++ beBytes 16 p.addr
    else [0x08, 0x00, 0x45, o 0, 0, 0, o 1, o 2, o 3 &&& 0x40, 0, o 9, 17, 0, 0] ++ beBytes 4 own ++ beBytes 4 p.addr
  let t := beBytes 6 p.mac.toNat ++ beBytes 6 h.netMac ++ p.tags ++ ip ++ beBytes 2 sport ++ beBytes 2 dport ++ [0, 0, 0, 0]
  fillUdp (t ++ body) t.length true

/-! ### Frame errors (R123 to R126) -/

/-- The counter of an error (R126). -/
def errCounter (p code : Nat) : Option Nat :=
  if code = 5 then some 8
  else if code = 7 then none
  else some (if p = 1 then (if code = 1 then 4 else 6) else if code = 1 then 0 else 2)

/-- A frame error is recorded: CP_LASTERR, CP_ERRFLAG, its counter and FRAME_ERROR (R123 to R126). -/
def Hub.frameError (h : Hub) (p code : Nat) (w0 : Word) : Hub :=
  let h := (h.setReg 0x0A (256 * p + code)).setFlag 0x0B
  let h := match errCounter p code with | some c => h.addSat (spc 0x3F c) 2 1 | none => h
  h.issueLimited p 243 1 p code w0.toNat

/-! ### The tunnel (R103 to R106) -/

def Hub.modTun (h : Hub) (f : Tunnel → Tunnel) : Hub := { h with cp := { h.cp with tun := f h.cp.tun } }

/-- The payload of a tunnel datagram, as 16-bit words (R104). -/
def tunPayload (kind : Nat) (seq : Word) (ws : List Word) : List Word := [0x4C56, BitVec.ofNat 16 (256 + kind), seq, BitVec.ofNat 16 ws.length] ++ ws

/-- Does a request repeat the last executed one: the same source address, source port and SEQ (R105). -/
def Tunnel.repeats (t : Tunnel) (f : TunFrom) : Bool :=
  t.last.any fun l => l.peer.v6 == f.peer.v6 && l.peer.addr == f.peer.addr && l.udpPort == f.udpPort && l.seq == f.seq

/-- A datagram with payload `ws` is sent from CP_TPORT to where a request came from, out of the port and on the VLAN by which it
arrived (R105, R107, R314). -/
def Hub.tunSend (h : Hub) (f : TunFrom) (ws : List Word) : Hub :=
  let h := h.modTun fun t => { t with sentTo := some f, sent := ws }
  h.sendFrame (h.defTx f.port) (h.datagram f.peer f.own (h.reg 0x0D) f.udpPort (ws.flatMap fun w => beBytes 2 w.toNat))

/-- The stored response datagram is sent again. -/
def Hub.tunResend (h : Hub) (f : TunFrom) : Hub := h.tunSend f h.cp.tun.lastAnswer

/-- A word of a datagram's payload. -/
def tunWord (b : List Byte) (i : Nat) : Word := BitVec.ofNat 16 (256 * (lget 0 b (2 * i)).toNat + (lget 0 b (2 * i + 1)).toNat)

/-- Is a payload a well-formed request datagram (R103). -/
def tunWellFormed (b : List Byte) : Bool :=
  let len := (tunWord b 3).toNat
  decide (8 ≤ b.length) && tunWord b 0 == 0x4C56 && tunWord b 1 == 0x0100 && decide (3 ≤ len) && decide (len ≤ 131) && b.length == 8 + 2 * len

/-- A datagram of `b` from `f` reaches the tunnel (R103, R105, R106). -/
def Hub.tunDatagram (h : Hub) (f : TunFrom) (b : List Byte) : Hub :=
  let w0 := if 10 ≤ b.length then tunWord b 4 else 0
  if ! tunWellFormed b then h.frameError 1 11 w0
  else if 8 ≤ h.cp.tun.queue.length then h.frameError 1 12 w0
  else if h.cp.tun.repeats f then h.tunResend f
  else h.modTun fun t => { t with queue := t.queue ++ [{ from_ := f, words := (List.range (b.length / 2 - 4)).map fun i => tunWord b (4 + i) }] }

/-- Where a frame's datagram came from, and its payload. -/
def tunFrom (port : Nat) (b : List Byte) (f : Parsed) : TunFrom :=
  { peer := peerOf b f, udpPort := f.sport, port := port, own := f.dip, seq := tunWord (b.drop f.pay) 2 }

/-- A frame that the tunnel's intercept takes reaches the tunnel once its FCS is confirmed; while CP_TCFG.EN is 0 none does
(R103, R340). -/
def Hub.tunArrive (h : Hub) (port : Nat) (b : List Byte) (f : Parsed) : Hub :=
  if bit (h.reg 0x0C) 15 then h.tunDatagram (tunFrom port b f) ((b.drop f.pay).take f.payLen) else h

/-- A UDP datagram reaches the tunnel through the intercept of its frame, if it meets the conditions of R103; a frame that ends
before its declared length fails its FCS (R338). -/
def Hub.tunFrame (h : Hub) (port : Nat) (b : List Byte) : Hub :=
  let f := h.parse b
  if f.bad.isNone && bit (h.reg (kCls 0x114)) 2 && h.isTunnel f && decide (f.declared.getD 0 ≤ b.length + 4) then h.tunArrive port b f else h

end Sys2Proof.Machine
end

