-- ==== Sys2Proof/Machine/Switch.lean ====
section
/-! DEFINITION. Switch.lean: the external ports, cut-through and store, the transparent clock, frame ends and
transmission, links and the bypass relay (R304 to R314, R324 to R326, R331, R353, R370). -/

namespace Sys2Proof.Machine

/-! ### PTP messages in frames (R315, R324) -/

/-- The message of a residence entry. -/
def Residence.isOf (r : Residence) (v : PtpView) : Bool := r.ident == v.ident && r.seq == v.seq && r.dom == v.dom

/-- A message passes uncorrected: 1 table full, 2 no match, 3 IPv6 trailer missing (R325 to R327). -/
def Hub.noCorr (h : Hub) (cause port : Nat) : Hub :=
  ((h.addSat (kNet 0x623) 2 1).setFlag (kNet 0x633)).issueLimited cause 36 1 cause port 0

/-- `n` added to a correctionField, and the UDP checksum kept valid; none where an IPv6 message has no room after it
(R326). -/
def correct (b : List Byte) (f : Parsed) (v : PtpView) (n : BitVec 64) : Option (List Byte) :=
  let c := setBytes b (v.o + 8) (beBytes 8 (BitVec.ofNat 64 (beAt b (v.o + 8) 8) + n).toNat)
  if f.kind = 2 then some (setBytes c (f.l4At + 6) [0, 0])
  else
    let t := v.o + beAt b (v.o + 2) 2
    if f.pay + f.payLen < t + 2 then none
    else
      let d := fun (x : List Byte) => inetSum ((x.drop f.l4At).take (8 + f.payLen))
      let z := setBytes c t [0, 0]
      let s := (d b + 65535 - d z % 65535) % 65535
      some (setBytes z t (if (t - f.l4At) % 2 = 0 then beBytes 2 s else (beBytes 2 s).reverse))

/-- A frame passes from an ingress to an egress port of the switch, egress 2 for P2: the residence, in units of 0.25 ns, is added
to its message or held for its Follow_Up (R319, R324, R325). A message of the ordinary clock takes no correction. -/
def Hub.passSwitch (h : Hub) (b : List Byte) (ingress egress : Nat) (residence : BitVec 64) : Hub × List Byte :=
  let f := h.parse b
  match if ingress = 3 then none else ptpView b f with
  | none => (h, b)
  | some v =>
    let done := fun (h : Hub) (n : BitVec 64) =>
      match correct b f v n with
      | some b' => (h.addWrap (kNet 0x620) 3 1, b')
      | none => (h.noCorr 3 ingress, b)
    let r := residence <<< 14
    if v.oneStep f then done h r
    else if v.sync2 f then
      if 32 ≤ h.net.tc.length then (h.noCorr 1 ingress, b)
      else ({ h with net := { h.net with tc := h.net.tc ++ [⟨v.ident, v.seq, v.dom, r, egress⟩] } }, b)
    else if v.followUp f then
      match h.net.tc.find? fun r => r.isOf v && r.port == egress with
      | none => (h.noCorr 2 ingress, b)
      | some r => done { h with net := { h.net with tc := h.net.tc.erase r } } r.time
    else (h, b)

/-- A pending residence is released 1 s after its Sync (R325). -/
def Hub.tcTimeout (h : Hub) (i : Nat) : Hub := { h with net := { h.net with tc := h.net.tc.eraseIdx i } }

/-! ### Transmission (R309, R310, R370) -/

/-- A frame has been sent by port `p`; with an inverted FCS it counts in TXSTOMP. -/
def Hub.sent (h : Hub) (p : Nat) (b : List Byte) (stomp : Bool) : Hub :=
  let h := h.setWire p (some { bytes := b, stomp := stomp, since := none })
  if stomp then h.portErr p 5 else h.countSent p b.length

/-- The idle transmitter of port `p` starts the next frame of its queues; `residence` is what the switch measures
(R324, R370). The frame before it has left. -/
def Hub.transmit (h : Hub) (p : Nat) (residence : BitVec 64) : Hub :=
  if h.cutting p ∨ ¬ h.linkUp p then h
  else
    let h := h.sentDone p
    let ready := fun q => match (h.queue q).head? with
      | some f => f.fly.isNone && !h.waitsSync p f.bytes
      | none => false
    match h.nextQueue (h.boundQueues 1 p ready) p with
    | none => h
    | some q =>
      match h.queue q with
      | [] => h
      | f :: fs =>
        let h := (h.modQueue q fun _ => fs).served p q
        let (h, b) := h.passSwitch f.bytes f.port p residence
        h.setWire p (some { bytes := b, stomp := false, since := some h.refMs })

/-- A stored frame that has been sent for more than 2 ms has left: 2,000 bytes take 1.6 ms at 10 Mb/s. -/
def Hub.sentAll (h : Hub) : Hub :=
  iter 2 (fun p h => if (h.wire p).any fun w => w.since.any fun t => decide (t + 3 ≤ h.refMs) then h.sentDone p else h) h

/-! ### Frame ends (R307, R309, R314, R353) -/

/-- Neighbour advertisement or ARP reply to a request (R314). -/
def Hub.answerTo (h : Hub) (b : List Byte) : List Byte :=
  let f := h.parse b
  let mac := beBytes 6 h.netMac
  let l2 := (b.drop 6).take 6 ++ mac ++ (b.drop 12).take (f.l3 - 14)
  if f.arpReq then
    l2 ++ [0x08, 0x06] ++ (b.drop f.l3).take 6 ++ beBytes 2 2 ++ mac ++ beBytes 4 f.target ++ (b.drop (f.l3 + 8)).take 10
  else
    let flags : Nat := if f.sip = 0 then 0x20 else 0x60
    let dst := if f.sip = 0 then 0xFF020000000000000000000000000001 else f.sip
    let icmp := fun (s : Nat) => [0x88, 0x00] ++ beBytes 2 s ++ beBytes 4 (flags * 2 ^ 24) ++ beBytes 16 f.target ++ [0x02, 0x01] ++ mac
    let addrs := beBytes 16 f.target ++ beBytes 16 dst
    let s := checksum (inetSum (addrs ++ beBytes 4 32 ++ beBytes 4 58 ++ icmp 0))
    (if f.sip = 0 then [0x33, 0x33, 0, 0, 0, 1] ++ l2.drop 6 else l2) ++ [0x86, 0xDD, 0x60, 0, 0, 0] ++ beBytes 2 32 ++ [58, 255] ++ addrs ++ icmp s

/-- The stored copy of a frame in a queue changed, or taken out. -/
def Hub.storedDone (h : Hub) (q id : Nat) (ok : Bool) (cells : Nat) : Hub :=
  h.modQueue q fun l =>
    if ok then l.map fun f => if f.fly = some id then { f with fly := none, cells := cells } else f
    else l.filter fun f => f.fly != some id

/-- Host-side copies of a frame whose FCS is confirmed: to P2 through the transparent clock; a copy to a port's queue takes its
correction as it leaves there. -/
def Hub.hostCopies (h : Hub) (f : Fly) (l : List (Nat × Nat)) (cells : Nat) : Hub :=
  l.foldl (fun h x =>
    let (h, b) := if h.qKind x.1 = 1 then (h, f.bytes) else h.passSwitch f.bytes f.port 2 f.residence
    h.hostCopy x.1 { bytes := b, port := f.port, kind := x.2, stamp := f.stamp, cells := cells }) h

/-- A frame that has ended and whose last pass has decided leaves the switch (R331, R353): what it has still to do there. -/
def Hub.complete (h : Hub) (f : Fly) (ok : Bool) : Hub :=
  let h := { h with net := { h.net with fly := h.net.fly.filter fun x => x.id != f.id } }
  let n := cellsFor (f.bytes.length + 4)
  let h := match f.primary with
    | .none => h
    | .queued q => h.storedDone q f.id ok n
    | .cut _ p _ =>
      let (h, b) := h.passSwitch f.bytes f.port p f.residence
      if ok then (h.sent p b false).portCnt p 4 1 else h.sent p b true
    | .host q => if ok then h.hostCopies f [(q, 0)] n else h
    | .stream c => h.fcsResult c f.id ok
  if ok then
    let h := h.hostCopies f f.copies n
    let h := if f.answer then h.sendFrame (h.defTx f.port) (h.answerTo f.bytes) else h
    if f.tunnel then h.tunArrive f.port f.bytes (f.parsed.getD {}) else h
  else h

/-- A frame arrives at an external port: it enters flight, or is dropped whole (R331). A port whose link is down
receives none. -/
def Hub.frameArrival (h : Hub) (p : Nat) (b : List Byte) : Hub :=
  if ! h.linkUp p then h
  else if 256 ≤ h.flying then
    let h := (h.clsCnt 0).setFlag (kCls 0x121)
    h.issueLimited 0 49 1 (h.reg (kCls 0x1220)) p 0
  else
    let f : Fly := { id := h.net.nextId, port := p, bytes := b }
    { h.newId with net := { h.newId.net with fly := h.net.fly ++ [f] } }

/-! ### Links (R304, R305, R309) -/

/-- Frames that arrive on a port whose link fails are truncated, and frames being cut through to it are dropped. -/
def Hub.cutLoss (h : Hub) (p : Nat) (count : Bool) : Hub :=
  let h := (h.net.fly.filter fun f => match f.primary with | .cut _ q _ => q == p | _ => false).foldl (fun h f =>
    (if count then h.portErr p 6 else h).modFly f.id fun x => { x with primary := .none }) h
  (h.net.fly.filter fun f => f.port == p && f.ended.isNone).foldl (fun h f =>
    let h := h.modFly f.id fun x => { x with ended := some false }
    if f.decided then h.complete { f with ended := some false } false else h) h

/-- Can the link come up at a speed: what FORCE fixes, or an ability that ADV advertises (R304, R329). -/
def Hub.speedOk (h : Hub) (p speed : Nat) : Bool :=
  let w := h.reg (kNet (0x400 + 0x10 * p))
  match bits w 5 4 with
  | 0 => bit w speed
  | 1 => speed == 1
  | _ => speed == 0

/-- The PHY reports link: a full-duplex link at a speed of the port is up, a half-duplex one is refused. -/
def Hub.phyUp (h : Hub) (p speed : Nat) (mdix half : Bool) : Hub :=
  let forced := h.fld (kNet (0x400 + 0x10 * p)) 5 4 != 0
  if ! bit (h.reg 0x39) p ∨ h.linkUp p ∨ h.net.relay.closed then h
  else if half then h.issueLimited p (32 + p) 3 speed 0 0
  else if ! h.speedOk p speed then h
  else
    let h := h.setFld 0x38 (4 * p + 3) (4 * p) (8 + 2 * speed + b2n mdix)
    ((h.addWrap (kNet (0x401 + 0x10 * p)) 1 1).setFlag (kNet 0x630)).issue (32 + p) 1 speed (b2n mdix) (b2n forced)

/-- The port in use of the ordinary clock (R318, R328). -/
def Hub.ptpPort (h : Hub) : Nat := h.fld 0x3A 13 12

/-- A stored frame that port `p` still sends is lost with the link; where it counts, in TXDROP (R309). One that has left counts as
sent. -/
def Hub.sendLoss (h : Hub) (p : Nat) (sending count : Bool) : Hub :=
  if ! sending then h.sentDone p
  else if (h.wire p).any fun w => w.since.isSome then (if count then h.portErr p 6 else h).setWire p none
  else h

/-- A link goes down; `sending` says that the transmitter still sends the stored frame it started last. -/
def Hub.phyDown (h : Hub) (p : Nat) (sending count : Bool) : Hub :=
  if ! h.linkUp p then h
  else
    let speed := h.linkSpeed p
    let h := ((h.sendLoss p sending count).cutLoss p count).setFld 0x38 (4 * p + 3) (4 * p) 0
    let h := (h.addWrap (kNet (0x401 + 0x10 * p)) 1 1).setFlag (kNet 0x630)
    h.issue (32 + p) 2 speed (h.reg (kNet (0x401 + 0x10 * p))) 0

/-! ### The bypass relay (R311, R312) -/

/-- Frames in flight through the switch are lost and counted nowhere: those that arrive or are being sent (R312). -/
def Hub.flightLoss (h : Hub) : Hub :=
  let h := (h.net.fly).foldl (fun h f => match f.primary with
    | .queued q => h.storedDone q f.id false 0
    | .stream c => h.rejectOpen c f.id 0
    | _ => h) h
  let h := { h with net := { h.net with fly := [], recircs := [] } }
  (h.sendLoss 0 true false).sendLoss 1 true false

/-- The relay is commanded open: 1 start-up, 2 a write of BYP, 3 power loss are the causes. -/
def Hub.relayOpen (h : Hub) (cause : Nat) : Hub :=
  let h := h.flightLoss
  { h with net := { h.net with relay := { h.net.relay with closed := false, cause := cause, moving := true } } }

/-- The relay is commanded closed: both PHYs power down and their links go down. -/
def Hub.relayClose (h : Hub) (cause : Nat) : Hub :=
  let h := ((h.flightLoss).phyDown 0 false false).phyDown 1 false false
  { h with net := { h.net with relay := { h.net.relay with closed := true, cause := cause, moving := true } } }

/-- The contacts settle; the sense contact reports the position. -/
def Hub.relayChanged (h : Hub) (sensed : Bool) : Hub :=
  let h := { h with net := { h.net with relay := { h.net.relay with moving := false, sensed := sensed } } }
  (h.setFld 0x38 15 15 (b2n sensed)).issue 34 2 (b2n sensed) h.net.relay.cause 0

/-- The sense contact still disagrees with the command 20 ms after it. -/
def Hub.relayFault (h : Hub) : Hub :=
  let r := h.net.relay
  if r.sensed = r.closed then h else (h.setFlag (kNet 0x631)).issueLimited 0 34 1 (b2n r.closed) (b2n r.sensed) 0

end Sys2Proof.Machine
end

