-- ==== Sys2Proof/Machine/Ptp.lean ====
section
/-! DEFINITION. Ptp.lean: the ordinary clock: masters, states, servo, messages, time and capture (R315 to R323). -/

namespace Sys2Proof.Machine

/-! ### State and identity -/

/-- NET_PTPSTAT.STATE: the portState code. -/
def Hub.ptpState (h : Hub) : Nat := h.fld 0x3A 3 0
/-- CONV. -/
def Hub.ptpConv (h : Hub) : Bool := bit (h.reg 0x3A) 14
/-- PTPMODE: 0 disabled, 1 slave-only, 2 master-capable. -/
def Hub.ptpMode (h : Hub) : Nat := h.fld 0x39 9 8
/-- A PTP setting of 0x0580 to 0x0587 (R316). -/
def Hub.ptpSet (h : Hub) (i : Nat) : Nat := h.fld (kNet (0x580 + i)) 7 0

/-- The ordinary clock changed. -/
def Hub.modPtp (h : Hub) (f : Ptp → Ptp) : Hub := { h with net := { h.net with ptp := f h.net.ptp } }

/-- clockIdentity: NET_MAC with 0xFF and 0xFE after its third byte (R317). -/
def Hub.clockId (h : Hub) : Nat := h.netMac / 2 ^ 24 * 2 ^ 40 + 0xFFFE * 2 ^ 24 + h.netMac % 2 ^ 24
/-- The port identity: clockIdentity and port number 1. -/
def Hub.portId (h : Hub) : BitVec 80 := BitVec.ofNat 80 (h.clockId * 65536 + 1)

/-- REF0 is valid while the state is SLAVE and CONV is 1; reference 0 of the synthesizer follows it (R65, R322). -/
def Hub.refreshRef0 (h : Hub) : Hub :=
  let v := h.ptpState == 9 && h.ptpConv
  if v = bit (h.reg 0x3A) 15 then h
  else if v then (h.setFld 0x3A 15 15 1).refAppears 0
  else (h.setFld 0x3A 15 15 0).refGone 0 1

/-- The offset last computed, in ns, saturated for an event. -/
def Hub.offsetSat (h : Hub) : Nat := wordOf (clampI (-32767) 32767 (sgn 48 (h.regN (kNet 0x5C0) 3)))

/-- CONV is gained or lost (R321, R327). -/
def Hub.setConv (h : Hub) (c : Bool) : Hub :=
  if h.ptpConv = c then h else ((h.setFld 0x3A 14 14 (b2n c)).refreshRef0).issue 35 4 (b2n c) h.offsetSat 0

/-- The port state changes; leaving SLAVE loses CONV (R321). -/
def Hub.setPtpState (h : Hub) (s : Nat) : Hub :=
  let old := h.ptpState
  if old = s then h
  else
    let h := if old = 9 then h.setConv false else h
    let h := (((h.setFld 0x3A 3 0 s).refreshRef0).setFlag (kNet 0x632)).issue 35 1 s old h.ptpPort
    h.modPtp fun p => { p with small := 0, good := 0, bad := 0 }

/-- The ordinary clock restarts in INITIALIZING, or is DISABLED where PTPMODE is 0 (R316). -/
def Hub.ptpRestart (h : Hub) : Hub :=
  let h := (h.setFld 0x3A 13 12 3).modPtp fun p => { time := p.time, part := p.part, steered := p.steered, seqAnn := p.seqAnn, seqSync := p.seqSync, reqSeq := p.reqSeq }
  if h.ptpMode = 0 then h.setPtpState 3 else h.setPtpState 1

/-- Initialisation is over: LISTENING. -/
def Hub.ptpListen (h : Hub) : Hub := if h.ptpState = 1 then h.setPtpState 4 else h

/-! ### Best master selection (R315, R317) -/

/-- What data sets are compared by, in order: priority1, class, accuracy, variance, priority2, identity. -/
def Foreign.rank (m : Foreign) : List Nat := [m.prio1.toNat, m.cls.toNat, m.acc.toNat, m.var.toNat, m.prio2.toNat, m.gm.toNat]

/-- The hub's own data set (R317). -/
def Hub.ownRank (h : Hub) : List Nat := [h.ptpSet 5, if h.ptpMode = 1 then 255 else 248, 0xFE, 0xFFFF, h.ptpSet 6, h.clockId]

/-- Lists compared from their first element on. -/
def lexLt : List Nat → List Nat → Bool
  | [], [] => false
  | [], _ => true
  | _, [] => false
  | a :: as, b :: bs => decide (a < b) || (a == b && lexLt as bs)

/-- Is one foreign master better than another. -/
def Foreign.better (a b : Foreign) : Bool := lexLt (a.rank ++ [a.steps.toNat, a.ident.toNat]) (b.rank ++ [b.steps.toNat, b.ident.toNat])

/-- Milliseconds of `n` announce intervals. -/
def Hub.announceMs (h : Hub) (n : Nat) : Nat := n * 1000 * 2 ^ h.ptpSet 1

/-- A master is forgotten: an unqualified one once no Announce has come for the window of 4 announce intervals, a qualified one,
but for the master in use, after the announce receipt timeout. The window is PRESUMED (log 142, IEEE 1588-2019). -/
def Hub.forgotten (h : Hub) (m : Foreign) : Bool :=
  h.net.ptp.parent != some m.ident && decide (m.last + h.announceMs (if m.bound then max 4 (h.ptpSet 4) else 4) < h.refMs)

/-- The foreign masters that are heard no more leave the table. -/
def Hub.ageMasters (h : Hub) : Hub := h.modPtp fun p => { p with masters := p.masters.filter fun m => !h.forgotten m }

/-- The best qualified foreign master. -/
def Ptp.best (p : Ptp) : Option Foreign :=
  (p.masters.filter fun m => m.bound && decide (m.steps.toNat < 255)).foldl (fun b m => match b with
    | none => some m
    | some x => if m.better x then some m else b) none

/-- The hub takes a master: port in use, grandmaster identity, UNCALIBRATED (R318, R321). -/
def Hub.takeMaster (h : Hub) (m : Foreign) : Hub :=
  let h := (h.setFld 0x3A 13 12 m.port).setRegN (kNet 0x5C5) 4 m.gm.toNat
  if h.net.ptp.parent = some m.ident then h
  else
    let h := h.modPtp fun p => { p with parent := some m.ident, wait := none, haveSync := false, fresh := false, t3 := none, haveMpd := false, first := true }
    (h.setPtpState 8).issue 35 3 (m.gm.toNat % 65536) m.steps.toNat m.port

/-- The hub has no master: it becomes MASTER where it may, else it listens. -/
def Hub.noMaster (h : Hub) (master : Bool) : Hub :=
  let h := (h.modPtp fun p => { p with parent := none, wait := none, haveSync := false, fresh := false, t3 := none, haveMpd := false }).setFld 0x3A 13 12 3
  if master then h.setPtpState 6 else h.setPtpState 4

/-- The best master algorithm decides; `expired` says that the announce receipt timeout has run out. -/
def Hub.decideMaster (h : Hub) (expired : Bool) : Hub :=
  let h := h.ageMasters
  match h.net.ptp.best with
  | some m =>
    if h.ptpMode = 2 ∧ lexLt h.ownRank m.rank then h.noMaster true else h.takeMaster m
  | none =>
    if h.ptpMode = 2 ∧ (expired ∨ h.ptpState = 6) then h.noMaster true
    else if h.net.ptp.parent.isSome ∨ expired then h.noMaster false
    else h

/-- Does the ordinary clock run. -/
def Hub.ptpOn (h : Hub) : Bool := h.ptpMode != 0 && h.ptpState != 3

/-- Does the ordinary clock receive messages: the PTP intercept copies them to it (R340). -/
def Hub.ptpHears (h : Hub) : Bool := h.ptpOn && bit (h.reg (kCls 0x114)) 0

/-- The entry of a master after an Announce; the second one within the window of 4 announce intervals qualifies it, and binds it
to the port (R318). -/
def Hub.heard (h : Hub) (m : PtpAnn) (old : Option Foreign) : Foreign :=
  { ident := m.ident, port := m.port, last := h.refMs, bound := old.any fun x => x.bound || decide (h.refMs ≤ x.last + h.announceMs 4),
    gm := m.gm, prio1 := m.prio1, cls := m.cls, acc := m.acc, var := m.var, prio2 := m.prio2, steps := m.steps }

/-- The table of 8 foreign masters after an Announce. A master is listed by port until one of its entries is bound. -/
def Hub.hearMaster (h : Hub) (m : PtpAnn) : List Foreign :=
  let l := h.net.ptp.masters
  let here := fun (x : Foreign) => x.ident == m.ident && x.port == m.port.val
  let e := h.heard m (l.find? here)
  if l.any here then (l.map fun x => if here x then e else x).filter fun x => here x || !(e.bound && x.ident == m.ident)
  else if 8 ≤ l.length then l else l ++ [e]

/-- A received Announce (R318): one from a master that is bound to the other port is ignored. -/
def Hub.announceRx (h : Hub) (m : PtpAnn) : Hub :=
  if ! h.ptpHears ∨ m.dom.toNat ≠ h.ptpSet 0 ∨ m.ident.toNat / 65536 = h.clockId then h
  else
    let h := (h.ptpListen).ageMasters
    if h.net.ptp.masters.any fun x => x.ident == m.ident && x.bound && x.port != m.port.val then h
    else (h.modPtp fun p => { p with masters := h.hearMaster m }).decideMaster false

/-- The announce receipt timeout expires for the master in use, or for a hub that hears none. -/
def Hub.announceTimeout (h : Hub) : Hub :=
  if ! h.ptpOn ∨ h.ptpState = 6 then h
  else
    let gone := h.net.ptp.parent
    ((h.ptpListen).modPtp fun p => { p with masters := p.masters.filter fun m => some m.ident != gone }).decideMaster true

/-- The link of a port goes down: masters heard there are lost (R318). -/
def Hub.ptpLinkDown (h : Hub) (port : Nat) : Hub :=
  if ! h.ptpOn then h
  else
    let h := h.modPtp fun p => { p with masters := p.masters.filter fun m => m.port != port }
    if h.ptpPort = port ∧ h.net.ptp.parent.isSome then h.decideMaster true else h

/-- A port loses its link, and with it the masters heard there (R309, R318). -/
def Hub.linkLost (h : Hub) (p : Nat) (sending : Bool) : Hub := (h.phyDown p sending true).ptpLinkDown p

/-- A port whose PHY powers down loses its link (R304); whether it still sends a stored frame then is open. -/
def Hub.portOff (h : Hub) (p : Nat) : Hub := if h.linkUp p then h.tookFree.linkLost p (bit h.freeVal 0) else h

/-- The network relay opens from the start-up point on, PHASE 3 (R28, R312, R592). -/
def Hub.netOpen (h : Hub) (cause : Nat) : Hub := if 3 ≤ h.fld 0x04 15 12 then h.relayOpen cause else h

/-- The bypass relay closes: both links go down (R312, R318). -/
def Hub.bypass (h : Hub) (cause : Nat) : Hub := ((h.relayClose cause).ptpLinkDown 0).ptpLinkDown 1

/-! ### The servo (R320, R321) -/

/-- A timestamp of the hub, in units of 0.25 ns (R319), in units of 2^-16 ns. -/
def quarterNs (t : Int) : Int := t * 2 ^ 14

/-- Whole ns of a time difference. -/
def nsOf (x : Int) : Int := divOpen x 65536

/-- The local clock steps by the negated offset (R321). -/
def Hub.ptpStep (h : Hub) (o : Int) : Hub :=
  let s := (BitVec.ofInt 48 (-nsOf o)).toNat
  let h := ((h.addWrap (kNet 0x5CA) 2 1).setFlag (kNet 0x632)).issueLimited 0 35 2 (s % 65536) (s / 65536 % 65536) (s / 2 ^ 32)
  h.modPtp fun p => { p with time := p.time - o, first := false, haveSync := false, fresh := false, t3 := none, small := 0 }

/-- The servo steers the rate, else free: within 250 ppm, and changed by at most 50 ppm for each second since its last change; RATE
counts 1/128 ppm (R320). -/
def Hub.ptpSteer (h : Hub) : Hub :=
  let d := 6400 * (h.refMs - h.net.ptp.steered) / 1000
  let r := clampI (-32000) 32000 (sgn 16 (h.reg (kNet 0x5C9)) - (d : Int) + (h.freeVal % (2 * d + 1) : Nat))
  ((h.setReg (kNet 0x5C9) (wordOf r)).tookFree).modPtp fun p => { p with steered := h.refMs }

/-- A millisecond of reference time passes for the local clock: the TCXO drives it at the rate in force unless the state is MASTER
(R320). -/
def Hub.ptpMs (h : Hub) : Hub :=
  if h.ptpState = 6 then h else h.modPtp fun p => { p with time := p.time + (10 ^ 6 * 65536 + 512 * sgn 16 (h.reg (kNet 0x5C9))) }

/-- The local PTP time in ns: where it stands between what drives it, the TCXO's milliseconds or core A's base ticks, is open. -/
def Hub.ptpNow (h : Hub) : Nat :=
  (h.net.ptp.time / 65536).toNat + h.freeVal % (if h.ptpState = 6 then (if (h.core 0).fam then 90703 else 125000) else 10 ^ 6)

/-- A time in ns as 48 bits of seconds below 32 bits of ns (R329). -/
def ptpField (n : Nat) : Nat := n / 10 ^ 9 % 2 ^ 48 + 2 ^ 48 * (n % 10 ^ 9)

/-- The servo works on an offsetFromMaster (R321). -/
def Hub.servo (h : Hub) (o : Int) : Hub :=
  let a := |o|
  let h := h.setRegN (kNet 0x5C0) 3 (BitVec.ofInt 48 (nsOf o)).toNat
  if h.ptpState = 8 then
    if h.net.ptp.first then h.ptpStep o
    else
      let h := h.ptpSteer
      let n := if a < 10000 * 65536 then h.net.ptp.small + 1 else 0
      let h := h.modPtp fun p => { p with small := n }
      if 4 ≤ n then h.setPtpState 9 else h
  else if h.ptpState = 9 then
    if (h.fld (kNet 0x589) 9 0 : Int) * 1000 * 65536 < a then (h.setPtpState 8).ptpStep o
    else
      let h := h.ptpSteer
      if a ≤ (h.reg (kNet 0x588) : Int) * 65536 then
        let h := h.modPtp fun p => { p with good := p.good + 1, bad := 0 }
        if 16 ≤ h.net.ptp.good then h.setConv true else h
      else
        let h := h.modPtp fun p => { p with good := 0, bad := p.bad + 1 }
        if 4 ≤ h.net.ptp.bad then h.setConv false else h
  else h

/-- The mean path delay in force, in units of 2^-16 ns. -/
def Hub.mpd (h : Hub) : Int := (sgn 32 (h.regN (kNet 0x5C3) 2)) * 65536

/-- A Sync is complete: with a path delay, an offset is computed. -/
def Hub.syncDone (h : Hub) (t1 t2 : Int) : Hub :=
  let h := h.modPtp fun p => { p with t1 := t1, t2 := t2, haveSync := true, fresh := !p.haveMpd, wait := none }
  if h.net.ptp.haveMpd then h.servo (t2 - t1 - h.mpd) else h

/-- Is a message one that the ordinary clock takes from its master through the port in use (R318). -/
def Hub.fromMaster (h : Hub) (m : PtpMsg) : Bool :=
  h.ptpHears && (h.ptpState == 8 || h.ptpState == 9) && h.net.ptp.parent == some m.ident && h.ptpPort == m.port.val && m.dom.toNat == h.ptpSet 0

/-- A received Sync: at most 128 a second are accepted (R318). -/
def Hub.syncRx (h : Hub) (m : PtpMsg) : Hub :=
  if ! h.fromMaster m then h
  else
    let sec := h.refMs / 1000
    let p := h.net.ptp
    let n := if p.syncSec = sec then p.syncs else 0
    if 128 ≤ n then h.addSat (kNet 0x5CC) 2 1
    else
      let h := h.modPtp fun p => { p with syncSec := sec, syncs := n + 1 }
      if m.twoStep then h.modPtp fun p => { p with wait := some ⟨m.seq, quarterNs m.stamp, m.corr⟩ }
      else h.syncDone (m.time + m.corr) (quarterNs m.stamp)

/-- A received Follow_Up completes a two-step Sync. -/
def Hub.followUpRx (h : Hub) (m : PtpMsg) : Hub :=
  if ! h.fromMaster m then h
  else match h.net.ptp.wait with
    | none => h
    | some w => if w.seq = m.seq then h.syncDone (m.time + w.corr + m.corr) w.rx else h

/-- A PTP message of the ordinary clock: its header of 34 bytes and its body (IEEE 1588-2019, PRESUMED, log 142). `corr` is the
correctionField, `ctl` the controlField, `logi` the logMessageInterval. -/
def Hub.ptpMessage (h : Hub) (kind flags : Nat) (corr : Int) (seq : Word) (ctl logi : Nat) (body : List Byte) : List Byte :=
  [BitVec.ofNat 8 kind, 0x12] ++ beBytes 2 (34 + body.length) ++ [BitVec.ofNat 8 (h.ptpSet 0), 0] ++ beBytes 2 flags ++
    beBytes 8 (BitVec.ofInt 64 corr).toNat ++ [0, 0, 0, 0] ++ beBytes 10 h.portId.toNat ++ beBytes 2 seq.toNat ++
    [BitVec.ofNat 8 ctl, BitVec.ofNat 8 logi] ++ body

/-- The timestamp field of a time: whole seconds and ns. -/
def ptpStampBytes (t : Int) : List Byte :=
  let n := (t / 65536).toNat
  beBytes 6 (n / 10 ^ 9) ++ beBytes 4 (n % 10 ^ 9)

/-- The first enabled own address of a family, else 0: the source of what the ordinary clock sends. DESIGN CHOICE (log 142). -/
def Hub.ownAddr (h : Hub) (v6 : Bool) : Nat :=
  match firstBelow 4 fun i => bit (h.reg (kNet 0x540)) (if v6 then 4 + i else i) with
  | some i => if v6 then h.effN (kNet (0x520 + 8 * i)) 8 else h.effN (kNet (0x510 + 2 * i)) 2
  | none => 0

/-- Messages to the multicast address go over IPv6 where only IPv6 addresses are enabled. DESIGN CHOICE (log 142). -/
def Hub.ptpOverV6 (h : Hub) : Bool := h.fld (kNet 0x540) 3 0 == 0 && h.fld (kNet 0x540) 7 4 != 0

/-- The PTP multicast address as a peer. -/
def ptpGroup (v6 : Bool) : NetPeer :=
  if v6 then { v6 := true, addr := (0xFF00 + (Config.openByte 10).toNat % 16) * 2 ^ 112 + 0x181, mac := 0x333300000181, tags := [] }
  else { v6 := false, addr := 0xE0000181, mac := 0x01005E000181, tags := [] }

/-- A message of the ordinary clock goes to the transmit queue of an external port; its UDP ports are 319 or 320 (R315). -/
def Hub.ptpSend (h : Hub) (port : Nat) (event : Bool) (peer : Option NetPeer) (msg : List Byte) : Hub :=
  let u := if event then 319 else 320
  let p := peer.getD (ptpGroup h.ptpOverV6)
  h.sendFrom (h.defTx port) 3 (h.datagram p (h.ownAddr p.v6) u u msg)

/-- Delay_Req goes out on the port in use (R318); `t` is its timestamp. -/
def Hub.delayReqTx (h : Hub) (t : Int) : Hub :=
  if ! h.ptpOn ∨ ¬ (h.ptpState = 8 ∨ h.ptpState = 9) then h
  else
    let h := h.modPtp fun p => { p with reqSeq := p.reqSeq + 1, t3 := some (quarterNs t) }
    h.ptpSend h.ptpPort true none (h.ptpMessage 1 0 0 h.net.ptp.reqSeq 1 0x7F (beBytes 10 0))

/-- A received Delay_Resp gives the mean path delay, and a Sync that waits for it its offset. -/
def Hub.delayRespRx (h : Hub) (m : PtpMsg) : Hub :=
  let p := h.net.ptp
  if ! h.fromMaster m ∨ m.req ≠ h.portId ∨ m.seq ≠ p.reqSeq then h
  else match p.t3 with
    | none => h
    | some t3 =>
      let h := h.modPtp fun p => { p with t3 := none }
      if ! p.haveSync then h
      else
        let d := divOpen ((p.t2 - t3) + (m.time - m.corr - p.t1)) 2
        let h := (h.setRegN (kNet 0x5C3) 2 (BitVec.ofInt 32 (nsOf d)).toNat).modPtp fun p => { p with haveMpd := true, fresh := false }
        if p.fresh then h.servo (p.t2 - p.t1 - h.mpd) else h

/-! ### As master (R317, R318) -/

/-- The external ports with a link. -/
def Hub.livePorts (h : Hub) : List Nat := (List.range 2).filter h.linkUp

/-- As master, a Delay_Req is answered on the port that carried it, to the sender of the frame that brought it (R314, R318). The
correctionField is the request's, less the fraction of a ns that the timestamp leaves. -/
def Hub.delayReqRx (h : Hub) (m : PtpMsg) : Hub :=
  if ! h.ptpHears ∨ h.ptpState ≠ 6 ∨ m.dom.toNat ≠ h.ptpSet 0 then h
  else
    let t := quarterNs m.stamp
    h.ptpSend m.port false (some m.peer)
      (h.ptpMessage 9 0 (m.corr - t % 65536) m.seq 3 (h.ptpSet 3) (ptpStampBytes t ++ beBytes 10 m.ident.toNat))

/-- The body of the Announce that the hub sends (R317). -/
def Hub.announceBody (h : Hub) : List Byte :=
  ptpStampBytes h.net.ptp.time ++ beBytes 2 (h.ptpSet 7) ++ [0, BitVec.ofNat 8 (h.ptpSet 5), 248, 0xFE, 0xFF, 0xFF, BitVec.ofNat 8 (h.ptpSet 6)] ++
    beBytes 8 h.clockId ++ [0, 0, 0xA0]

/-- As master, the hub sends Announce on both external ports. -/
def Hub.announceTx (h : Hub) : Hub :=
  if ! h.ptpOn ∨ h.ptpState ≠ 6 then h
  else
    let msg := h.ptpMessage 11 0x0008 0 h.net.ptp.seqAnn 5 (h.ptpSet 1) h.announceBody
    h.livePorts.foldl (fun h i => h.ptpSend i false none msg) (h.modPtp fun p => { p with seqAnn := p.seqAnn + 1 })

/-- As master, the hub sends a two-step Sync and its Follow_Up on both external ports; `ts` are the timestamps of the Syncs, one per
port (R315, R318, R319). -/
def Hub.syncTx (h : Hub) (ts : List Int) : Hub :=
  if ! h.ptpOn ∨ h.ptpState ≠ 6 then h
  else
    let seq := h.net.ptp.seqSync
    let h := h.modPtp fun p => { p with seqSync := seq + 1 }
    h.livePorts.foldl (fun h i =>
      let t := quarterNs (lget 0 ts i)
      let h := h.ptpSend i true none (h.ptpMessage 0 0x0200 0 seq 0 (h.ptpSet 2) (ptpStampBytes h.net.ptp.time))
      h.ptpSend i false none (h.ptpMessage 8 0 (t % 65536) seq 2 (h.ptpSet 2) (ptpStampBytes t))) h

/-! ### Messages in frames (R340) -/

/-- A PTP message that a frame brings to the ordinary clock; `rx` is the frame's timestamp. Management, Signalling and Pdelay
messages are not its own. -/
def Hub.clockCopy (h : Hub) (port : Nat) (b : List Byte) (f : Parsed) (rx : Int) : Hub :=
  match ptpView b f with
  | none => h
  | some v =>
    let num := fun o k => beAt b (v.o + o) k
    let m : PtpMsg :=
      { port := Fin.ofNat 2 port, ident := v.ident, dom := v.dom, seq := v.seq, twoStep := v.twoStep,
        time := ((num 34 6 * 10 ^ 9 + num 40 4 : Nat) : Int) * 65536, corr := sgn 64 (num 8 8), stamp := rx, req := BitVec.ofNat 80 (num 44 10),
        peer := peerOf b f }
    let whole := fun n => decide (n ≤ f.payLen)
    match v.kind with
    | 0 => if f.dport = 319 ∧ whole 44 then h.syncRx m else h
    | 1 => if f.dport = 319 ∧ whole 44 then h.delayReqRx m else h
    | 8 => if f.dport = 320 ∧ whole 44 then h.followUpRx m else h
    | 9 => if f.dport = 320 ∧ whole 54 then h.delayRespRx m else h
    | 11 =>
      if f.dport = 320 ∧ whole 64 then
        h.announceRx { port := Fin.ofNat 2 port, ident := v.ident, dom := v.dom, gm := BitVec.ofNat 64 (num 53 8), prio1 := BitVec.ofNat 8 (num 47 1),
                       cls := BitVec.ofNat 8 (num 48 1), acc := BitVec.ofNat 8 (num 49 1), var := BitVec.ofNat 16 (num 50 2),
                       prio2 := BitVec.ofNat 8 (num 52 1), steps := BitVec.ofNat 16 (num 61 2) }
      else h
    | _ => h

/-- A frame that has ended and whose last pass has decided: what the switch does with it, and the copy that its PTP intercept
made for the ordinary clock (R340, R353). -/
def Hub.finishFrame (h : Hub) (f : Fly) (ok : Bool) : Hub :=
  let h := h.complete f ok
  if ok ∧ f.clock then h.clockCopy f.port f.bytes (f.parsed.getD {}) f.rx else h

/-- The next pass decides; where the frame has already ended it leaves the switch with its last pass. -/
def Hub.passStep (h : Hub) (i : Nat) (idle : Bool) : Hub :=
  match h.net.fly[i]? with
  | none => h
  | some f0 =>
    let h := h.passDecision i idle
    match h.flyOf f0.id with
    | some f =>
      match f.ended with
      | some ok => if f.decided then h.finishFrame f ok else h
      | none => h
    | none => h

/-- The FCS result of the frame at position `i`: `fate` is 0 good, 1 FCS fails, 2 symbol error, 3 truncated by loss of link; a frame
that ends before its declared length fails its FCS (R307, R309, R338). -/
def Hub.frameEnd (h : Hub) (i fate : Nat) (residence : BitVec 64) (rx : Int) : Hub :=
  match h.net.fly[i]? with
  | none => h
  | some f =>
    if f.ended.isSome then h
    else
      let n := f.bytes.length + 4
      let short := n < ((h.parse f.bytes).declared.getD 0)
      let (h, ok) :=
        if n < 64 then (h.portErr f.port 1, false)
        else if 2000 < n then (h.portErr f.port 2, false)
        else if fate = 2 then (h.portErr f.port 3, false)
        else if fate = 3 then (h, false)
        else if fate = 1 ∨ short then (h.portErr f.port 0, false)
        else
          let h := (h.portCnt f.port 0 1).portCnt f.port 1 n
          (if isPause f.bytes then h.portErr f.port 4 else h, true)
      let g := fun (x : Fly) => { x with ended := some ok, residence := residence, rx := rx }
      let h := h.modFly f.id g
      if f.decided then h.finishFrame (g f) ok else h

/-! ### Settings, time and capture (R316, R320, R323) -/

/-- The values that a profile gives to the settings of 0x0580 to 0x0586 (R316). -/
def profileValues (media : Bool) : List Nat := [0, 1, if media then 0xFD else 0, if media then 0xFD else 0, 3, 128, 128]

/-- A write of NET_CTL.PROFILE (R316). -/
def Hub.profileChange (h : Hub) (p : Nat) : Hub :=
  if 2 ≤ p ∨ h.fld 0x39 5 4 = p then h
  else
    let h := h.setFld 0x39 5 4 p
    (iter 7 (fun i h => h.setReg (kNet (0x580 + i)) (lget 0 (profileValues (p == 1)) i)) h).ptpRestart

/-- A write of a PTP setting: one outside its range is ignored (R316). -/
def Hub.ptpSetting (h : Hub) (i w : Nat) : Hub :=
  let v := sgn 8 w
  let low : Int := if h.fld 0x39 5 4 = 1 then -4 else 0
  let ok : Bool := match i with
    | 0 => decide (w < 128)
    | 1 => decide (0 ≤ v ∧ v ≤ 4)
    | 2 => decide ((if low = 0 then -1 else low) ≤ v ∧ v ≤ 1)
    | 3 => decide (low ≤ v ∧ v ≤ 5)
    | 4 => decide (2 ≤ w ∧ w ≤ 10)
    | _ => true
  if ok then h.setReg (kNet (0x580 + i)) (w % 256) else h

/-- A time of seconds and ns. -/
def ptpTime (sec ns : Nat) : Int := ((sec * 1000000000 + ns : Nat) : Int) * 65536

/-- A write of NET_PTPTIME (R320). -/
def Hub.timeSet (h : Hub) (sec ns : Nat) : Hub :=
  if h.ptpState = 8 ∨ h.ptpState = 9 then h else h.modPtp fun p => { p with time := ptpTime sec ns, part := 0 }

/-- A write of 1 to NET_CAPT: DOM0's counter and the local PTP time of one tick are latched (R323). -/
def Hub.timeCapture (h : Hub) : Hub :=
  (((h.setRegN (kNet 0x611) 2 h.stamp.toNat).setRegN (kNet 0x613) 5 (ptpField h.ptpNow)).setReg (kNet 0x610) 0x8000).tookFree

/-- A write of NET_CTL (R316, R328): BYP commands the relay, PTPMODE and PROFILE restart the ordinary clock, a port whose
EN is 0 is powered down. -/
def Hub.netCtl (h : Hub) (w : Nat) : Hub :=
  let old := h.reg 0x39
  let mode := if bits w 9 8 = 3 then bits old 9 8 else bits w 9 8
  let h := h.setReg 0x39 (putBits (putBits (putBits old 15 15 (bits w 15 15)) 9 8 mode) 1 0 (bits w 1 0))
  let h := if bits old 15 15 = bits w 15 15 then h else if bit w 15 then h.bypass 2 else h.netOpen 2
  let h := iter 2 (fun p h => if bit w p then h else h.portOff p) h
  let h := if bits old 9 8 = mode then h else h.ptpRestart
  h.profileChange (bits w 5 4)

end Sys2Proof.Machine
end

