-- ==== Sys2Proof/Machine/Otp.lean ====
section
/-! DEFINITION. Otp.lean: the one-time-programmable memory: the array and its margins, the load at start-up, the slot
map and the Roast (R560 to R583). -/

namespace Sys2Proof.Machine

/-- A word of space 0x01. -/
def kOtp (o : Nat) : Nat := spc 0x01 o

/-- The number of a word of the array. -/
def otpAt (s g w : Nat) : Nat := 136 * s + 34 * g + w

/-- A word of the array at the three margins (R561). -/
def Hub.otpWord (h : Hub) (s g w : Nat) : OtpWord := tget (fun _ => {}) h.otp.words (otpAt s g w)

/-- A word of the array programmed. -/
def Hub.setOtp (h : Hub) (s g w : Nat) (x : OtpWord) : Hub :=
  { h with otp := { h.otp with words := tput (fun _ => {}) h.otp.words (otpAt s g w) x } }

/-- A word read at margin `m`: 0 weak, 1 normal, else strict (R561). -/
def OtpWord.margin (x : OtpWord) (m : Nat) : Word := if m = 0 then x.weak else if m = 1 then x.normal else x.strict

/-- The check word of a generation (R562). -/
def otpCheck (s g : Nat) (payload : List Word) : Word :=
  BitVec.ofNat 16 (crcBytes 16 0x1021 0xFFFF
    ((BitVec.ofNat 8 s :: BitVec.ofNat 8 g :: payload.flatMap fun w => [BitVec.ofNat 8 (w.toNat / 256), BitVec.ofNat 8 w.toNat])))

/-- Does a seal word read a valid value (R563). -/
def sealValid (w : Word) : Bool := w == 0x5C3A || w == 0x5CA3

/-- The payload of a generation at normal margin. -/
def Hub.otpPayload (h : Hub) (s g : Nat) : List Word := (List.range 32).map fun w => (h.otpWord s g w).normal

/-- Does every word of a generation read 0 at weak margin. -/
def Hub.otpBlank (h : Hub) (s g : Nat) : Bool := (List.range 34).all fun w => (h.otpWord s g w).weak == 0

/-- The class of a generation (R565). -/
def Hub.otpClass (h : Hub) (s g : Nat) : Nat :=
  if h.otpBlank s g then 0
  else if sealValid (h.otpWord s g 33).strict then
    if (h.otpWord s g 32).normal = otpCheck s g (h.otpPayload s g) then 1 else 4
  else if (h.otpWord s g 33).weak = 0 then 2 else 3

/-- The class word of a slot as stored (R583). -/
def Hub.classOf (h : Hub) (s g : Nat) : Nat := h.fld (kOtp (0x1101 + 2 * s)) (3 * g + 2) (3 * g)

/-- The class of a generation stored. -/
def Hub.setClass (h : Hub) (s g c : Nat) : Hub := h.setFld (kOtp (0x1101 + 2 * s)) (3 * g + 2) (3 * g) c

/-- Is a slot locked (R580). -/
def Hub.otpLocked (h : Hub) (s : Nat) : Bool := (List.range 4).any fun g => (h.otpWord s g 33).strict == 0x5CA3

/-- The target of a Roast by the classes: the lowest generation that is BLANK and above every one that is not; none when
the slot is exhausted (R577). -/
def Hub.otpTarget (h : Hub) (s : Nat) : Option Nat :=
  (List.range 4).find? fun g => (List.range 4).all fun i => i < g || h.classOf s i == 0

/-- LOCKED and EXH of a slot (R580). -/
def Hub.slotState (h : Hub) (s : Nat) : Hub :=
  (h.setFld (kOtp (0x1100 + 2 * s)) 14 14 (b2n (h.otpLocked s))).setFld (kOtp (0x1100 + 2 * s)) 13 13
    (b2n (h.otpTarget s).isNone)

/-! ### The load (R564 to R571) -/

/-- The selected generation of a slot (R566). -/
def Hub.otpSel (h : Hub) (s : Nat) : Option Nat :=
  if bit (h.reg (kOtp (0x1100 + 2 * s))) 15 then some (h.fld (kOtp (0x1100 + 2 * s)) 1 0) else none

/-- Payload word `w` of the selected generation of a slot; `d` where the slot has none (R567). -/
def Hub.otpFeed (h : Hub) (s w d : Nat) : Nat :=
  match h.otpSel s with
  | some g => (h.otpWord s g w).normal.toNat
  | none => d

/-- The load classifies a generation (R565). -/
def Hub.loadGen (h : Hub) (s g : Nat) : Hub :=
  let c := h.otpClass s g
  let h := h.setClass s g c
  if c = 2 then h.issue 216 3 s g 0
  else if c = 3 then (h.setFlag (kOtp 0x1310)).issue 216 4 s g (h.otpWord s g 33).normal.toNat
  else if c = 4 then h.issue 216 5 s g 0
  else h

/-- The load classifies a slot and selects its generation (R565, R566). -/
def Hub.loadSlot (h : Hub) (s : Nat) : Hub :=
  let h := iter 4 (fun g h => h.loadGen s g) h
  let k := kOtp (0x1100 + 2 * s)
  let h := match [3, 2, 1, 0].find? fun g => h.classOf s g == 1 with
    | some g => h.setReg k (0x8000 + g)
    | none => (h.setReg k 0).issue 216 2 s ((List.range 4).filter fun g => h.classOf s g != 0).length 0
  h.slotState s

/-- A hop table entry loaded from slot 4 (R75). -/
def Hub.loadHop (h : Hub) (i : Nat) : Hub :=
  let a := h.otpFeed 4 (2 * i) 0
  let b := h.otpFeed 4 (2 * i + 1) 0
  let k := kHop (i / 8) (i % 8)
  let h := (h.setEffN (k 0) 2 (multNominal (bit a 12))).setReg (k 2) (putBits a 14 13 0)
  (h.setReg (k 3) (bits b 9 0)).setReg (k 4) (wordOf (sgn 6 (bits b 15 10)))

/-- A field of slot 8's word 10 whose register would ignore the value takes its value for an empty slot, and the load
says so (R571). -/
def Hub.feedRange (h : Hub) (hi lo top d : Nat) : Nat × Hub :=
  match h.otpSel 8 with
  | none => (d, h)
  | some g =>
    let v := bits (h.otpFeed 8 10 0) hi lo
    if top < v then (d, h.issue 216 5 8 g 1) else (v, h)

/-- Slot 8 feeds the network and tunnel settings (R570, R571). -/
def Hub.loadNet (h : Hub) : Hub :=
  let h := iter 2 (fun i h => h.setEff (kNet (0x510 + i)) (h.otpFeed 8 i 0)) h
  let h := iter 8 (fun i h => h.setEff (kNet (0x520 + i)) (h.otpFeed 8 (2 + i) 0)) h
  let w := h.otpFeed 8 10 0
  let h := h.setReg (kNet 0x540) (putBits (putBits (h.reg (kNet 0x540)) 0 0 (bits w 15 15)) 4 4 (bits w 14 14))
  let (mode, h) := h.feedRange 9 8 2 1
  let (prof, h) := h.feedRange 5 4 1 1
  let h := h.setReg 0x39 (putBits (putBits (putBits (h.reg 0x39) 15 15 (bits w 13 13)) 9 8 mode) 5 4 prof)
  let h := iter 7 (fun i h => h.setReg (kNet (0x580 + i)) (lget 0 (profileValues (prof == 1)) i)) h
  let h := (h.setReg 0x0C (flagAt (bit w 0) 15 + flagAt (bit w 1) 14)).setReg 0x0D (h.otpFeed 8 11 45256)
  h.ptpRestart

/-- NET_MAC: slot 2, or 02-4C-56 and the serial number (R313). -/
def Hub.loadMac (h : Hub) : Hub :=
  let v := match h.otpSel 2 with
    | some _ => h.otpFeed 2 0 0 * 2 ^ 32 + h.otpFeed 2 1 0 * 2 ^ 16 + h.otpFeed 2 2 0
    | none => 0x024C56 * 2 ^ 24 + h.regN 0x02 2 % 2 ^ 24
  h.setRegN (kNet 0x500) 3 v

/-- The OTP load (R564 to R567): LOADED is set, and LOAD_DONE raised with its time. -/
def Hub.otpLoad (h : Hub) (us : Nat) : Hub :=
  let h := iter 16 (fun s h => h.loadSlot s) h
  let h := (h.setReg 0x02 (h.otpFeed 0 0 0)).setReg 0x03 (h.otpFeed 0 1 0)
  let h := iter 16 (fun i h => h.loadHop i) h
  let h := h.loadMac.loadNet
  let h : Hub := { h with otp := { h.otp with loaded := true } }
  let odd := (List.range 64).filter fun (i : Nat) => decide (1 < h.classOf (i / 4) (i % 4))
  h.issue 216 1 ((List.range 16).map fun s => flagAt (h.otpSel s).isSome s).sum us odd.length

/-! ### The Roast (R572 to R579) -/

/-- How a word reads whose programming did not finish: no bit beyond the target's, no bit at a stricter margin that a
weaker one does not show (R561). -/
def partly (b : RoastBad) (target : Word) : OtpWord :=
  { weak := b.weak &&& target, normal := b.weak &&& b.normal &&& target,
    strict := b.weak &&& b.normal &&& b.strict &&& target }

/-- Words programmed from word `w` on, until one fails its strict-margin verification: the array and the failing word. -/
def Hub.burn (h : Hub) (s g : Nat) (hit : Option RoastBad) : List Word → Nat → Hub × Option Nat
  | [], _ => (h, none)
  | t :: r, w =>
    match hit with
    | none => (h.setOtp s g w (.full t)).burn s g hit r (w + 1)
    | some b =>
      if b.word.val ≠ w then (h.setOtp s g w (.full t)).burn s g hit r (w + 1)
      else if (partly b t).strict = t then (h.setOtp s g w (.full t)).burn s g hit r (w + 1)
      else (h.setOtp s g w (partly b t), some w)

/-- The 34 words that a Roast programs (R575). -/
def Roast.words (r : Roast) : List Word := r.payload ++ [r.check, if r.lock then 0x5CA3 else 0x5C3A]

/-- The cause that refuses a Roast before its arm step (R573). -/
def Hub.roastCause (h : Hub) (s : Nat) : Option Nat :=
  if h.otp.roast.isSome then some 1
  else if !h.otp.loaded then some 2
  else if 5 ≤ s ∧ s ≤ 7 then some 3
  else if h.otpLocked s then some 4
  else if (h.otpTarget s).isNone then some 5
  else none

/-- A Roast request is refused (R573). -/
def Hub.refuseRoast (h : Hub) (w cause : Nat) : Hub :=
  let s := bits w 3 0
  let (g, h) := match h.otpTarget s with
    | some g => (g, h)
    | none => (h.freeVal % 4, h.tookFree)
  let h := h.setReg 0x72 (0x2000 + 256 * s + 64 * g + cause)
  (h.setFlag (kOtp 0x1311)).issue 217 2 cause w (h.reg (kOtp 0x1001))

/-- Does the hold-up proof hold (R574). -/
def Hub.holdupProof (h : Hub) : Bool := (h.pwr.dc || h.pwr.ac) && !h.pwr.loss && decide (250 ≤ h.reg 0x75)

/-- A Roast request, judged, and its arm step (R572 to R575). -/
def Hub.roastRequest (h : Hub) (w : Nat) : Hub :=
  if bits w 15 12 ≠ 0xB then h
  else
    let s := bits w 3 0
    match h.roastCause s, h.otpTarget s with
    | some c, _ => h.refuseRoast w c
    | none, none => h
    | none, some g =>
      let h := h.setReg (kOtp 0x1001) (h.reg 0x75)
      if !h.holdupProof then h.refuseRoast w 6
      else if !h.otpBlank s g then ((h.setClass s g 2).slotState s).refuseRoast w 7
      else
        let p := (List.range 32).map fun i => BitVec.ofNat 16 (h.reg (kOtp (0x1200 + i)))
        let r : Roast := { slot := s, gen := g, lock := bit w 8, payload := p, check := otpCheck s g p }
        { h with otp := { h.otp with slot := s, roast := some r } }

/-- A Roast ends with a failing word at a step (R576). -/
def Hub.roastFail (h : Hub) (r : Roast) (step w : Nat) : Hub :=
  let h := h.setReg 0x72 (0x3000 + 256 * r.slot + 64 * r.gen + w)
  (h.setFlag (kOtp 0x1312)).issue 217 3 step w (256 * r.slot + r.gen)

/-- The end of a Roast: sealed, or stopped at a word that fails verification or at the final read (R575, R576). -/
def Hub.roastDone (h : Hub) (hit final : Option RoastBad) : Hub :=
  match h.otp.roast with
  | none => h
  | some r =>
    let (h, bad) := h.burn r.slot r.gen hit r.words 0
    let h := match bad, final with
      | none, some b => h.setOtp r.slot r.gen b.word.val (partly b (lget 0 r.words b.word.val))
      | _, _ => h
    let c := h.otpClass r.slot r.gen
    let h := { h with otp := { h.otp with roast := none } }
    let h := (h.setClass r.slot r.gen c).slotState r.slot
    match bad with
    | some w => h.roastFail r (if w < 32 then 2 else if w = 32 then 3 else 4) w
    | none =>
      if c ≠ 1 then h.roastFail r 5 (match final with | some b => b.word.val | none => 0)
      else
        let h := (h.setReg 0x72 (0x1000 + 256 * r.slot + 64 * r.gen)).addSat (kOtp 0x1300) 2 1
        h.issue 217 1 r.slot r.gen r.check.toNat

/-- The logic supply collapses during a Roast: the words before `cut` are programmed, its word partly, none after it
(R579). -/
def Hub.roastCut (h : Hub) (cut : RoastBad) : Hub :=
  match h.otp.roast with
  | none => h
  | some r =>
    let w := cut.word.val
    let (h, _) := h.burn r.slot r.gen none (r.words.take w) 0
    h.setOtp r.slot r.gen w (partly cut (lget 0 r.words w))

/-- OTP_STAT (R582). The step in progress is one of 1 to 5; which one is open until the Roast ends. -/
def Hub.otpStat (h : Hub) : Nat :=
  flagAt h.otp.loaded 15 + (if h.otp.roast.isSome then 0x4000 + 2048 * (1 + h.freeVal % 5) else 0) + h.otp.slot

/-- A word of the array as software reads it: at OTP_MARGIN; of the target generation of a running Roast as far as it is
programmed, which is open (R578). -/
def Hub.otpRead (h : Hub) (s g w : Nat) : Nat :=
  let x := ((h.otpWord s g w).margin (h.fld (kOtp 0x1000) 1 0)).toNat
  match h.otp.roast with
  | some r => if r.slot = s ∧ r.gen = g then h.freeVal &&& (lget 0 r.words w).toNat else x
  | none => x

end Sys2Proof.Machine
end

