-- ==== Sys2Proof/Machine/Nand.lean ====
section
/-! DEFINITION. Nand.lean: the Carafe store: blocks and their management, objects, sessions, the two-phase commit and the
store commands (R533 to R543). -/

namespace Sys2Proof.Machine

/-- A word of space 0x30 (R557). -/
def kCar (o : Nat) : Nat := spc 0x30 o

/-! ### Partitions, objects and blocks (R533) -/

/-- First block of a partition and the block after its last. -/
def partFirst (p : Nat) : Nat := [0, 64, 128, 1664, 3712].getD p 4096
def partEnd (p : Nat) : Nat := [64, 128, 1664, 3712, 4096].getD p 4096
/-- The partition of a block. -/
def partOf (b : Nat) : Nat := if b < 64 then 0 else if b < 128 then 1 else if b < 1664 then 2 else if b < 3712 then 3 else 4
/-- Largest object of a partition in bytes; 0 for the log. -/
def partMax (p : Nat) : Nat := [14, 14, 16, 0, 1].getD p 0 * 2 ^ 20
/-- Does a partition hold objects of an ID. -/
def idOk (p id : Nat) : Bool :=
  match p with
  | 0 => id == 0
  | 1 => id == 0
  | 2 => decide (id < 4096)
  | 4 => decide (id < 256)
  | _ => false

def Store.block (n : Store) (b : Nat) : NBlock := tget (fun _ => {}) n.blocks b
def Store.modBlock (n : Store) (b : Nat) (f : NBlock → NBlock) : Store := { n with blocks := tput (fun _ => {}) n.blocks b (f (n.block b)) }
def Store.obj (n : Store) (o : Nat) : Option NandObj := tget (fun _ => none) n.objs o
def Store.current (n : Store) (p : Nat) : Option Nat := tget (fun _ => none) n.cur p
def Store.setCurrent (n : Store) (p : Nat) (b : Option Nat) : Store := { n with cur := tput (fun _ => none) n.cur p b }

/-- Blocks of a partition. -/
def partBlocks (p : Nat) : List Nat := (List.range (partEnd p - partFirst p)).map fun i => partFirst p + i
/-- Good blocks; two of the configuration partition hold the bad-block table (R534). -/
def Store.good (n : Store) (p : Nat) : List Nat := (partBlocks p).filter fun b => !(n.block b).bad
def Store.usable (n : Store) (p : Nat) : List Nat := if p = 4 then (n.good p).drop 2 else n.good p
/-- Free good blocks. -/
def Store.free (n : Store) (p : Nat) : List Nat := (n.usable p).filter fun b => (n.block b).pages.isEmpty && n.current p != some b

/-- Is a programmed page live: its version is committed or being written (R540). -/
def Store.liveTag (n : Store) (t : Nat × Nat × Nat) : Bool :=
  ((n.obj t.1).any fun o => o.gen == t.2.2) || n.sess.any fun s => s.obj == t.1 && s.gen == t.2.2
def Store.live (n : Store) (b : Nat) : List (Nat × Nat × Nat) := (n.block b).pages.filter n.liveTag

/-- The block with the least erase count, the lowest of several. -/
def Store.leastWorn (n : Store) (l : List Nat) : Option Nat :=
  l.foldl (fun a b => match a with | none => some b | some a => if (n.block b).erased < (n.block a).erased then some b else some a) none
/-- The block with the highest erase count. -/
def Store.mostWorn (n : Store) (l : List Nat) : Option Nat :=
  l.foldl (fun a b => match a with | none => some b | some a => if (n.block a).erased < (n.block b).erased then some b else some a) none

/-- A page goes to the block being filled, or to the free block with the lowest erase count; new data leaves 8 blocks
free (R533, R535). -/
def Store.addPage (n : Store) (p : Nat) (t : Nat × Nat × Nat) (reserve : Bool) : Option Store :=
  let put := fun (n : Store) (b : Nat) => (n.modBlock b fun k => { k with pages := k.pages ++ [t] }).setCurrent p (some b)
  let fresh := if !reserve && decide ((n.free p).length ≤ 8) then none else (n.leastWorn (n.free p)).map fun b => put n b
  match n.current p with
  | some b => if (n.block b).pages.length < 64 && !(n.block b).bad then some (put n b) else fresh
  | none => fresh

/-- The live pages of a block are copied. -/
def Store.copyLive (n : Store) (p b : Nat) : Store :=
  let n' := if n.current p = some b then n.setCurrent p none else n
  (n.live b).foldl (fun n t => (n.addPage p t true).getD n) n'

/-- A block is erased. -/
def Store.erase (n : Store) (b : Nat) : Store := n.modBlock b fun k => { k with erased := k.erased + 1, reads := 0, pages := [] }

/-- Wear levelling: the least worn block moves into the most worn free block (R535). -/
def Store.level (n : Store) (p : Nat) : Store :=
  match n.leastWorn (n.usable p), n.mostWorn (n.usable p), n.mostWorn (n.free p) with
  | some lo, some hi, some f =>
    if (n.block lo).erased + 2000 < (n.block hi).erased ∧ ¬ (n.block lo).pages.isEmpty ∧ n.current p ≠ some lo then
      (n.modBlock f fun k => { k with pages := n.live lo }).erase lo
    else n
  | _, _, _ => n

/-- One round of garbage collection: the block with the fewest live pages is copied and erased (R535). -/
def Store.collect (n : Store) (p : Nat) : Store :=
  if 16 ≤ (n.free p).length then n
  else
    let c := (n.usable p).filter fun b => n.current p != some b && decide ((n.live b).length < (n.block b).pages.length)
    match c.foldl (fun a b => match a with | none => some b | some a => if (n.live b).length < (n.live a).length then some b else some a) none with
    | some b => ((n.copyLive p b).erase b).level p
    | none => n

/-- Highest and lowest erase counts of a partition. -/
def Store.maxErase (n : Store) (p : Nat) : Nat := (n.good p).foldl (fun m b => max m (n.block b).erased) 0
def Store.minErase (n : Store) (p : Nat) : Nat :=
  match n.leastWorn (n.good p) with
  | some b => (n.block b).erased
  | none => 0

/-- The words of partition `p` (R557): GOOD, FREE, MAXERASE, MINERASE, OBJECTS. -/
def Store.partWord (n : Store) (p w : Nat) : Nat :=
  match w with
  | 0 => (n.good p).length
  | 1 => if p = 3 then ((n.good 3).filter fun b => !n.log.any fun l => l.1 == b).length else (n.free p).length
  | 2 => n.maxErase p
  | 3 => n.minErase p
  | _ => (n.objs.filter fun e => e.2.isSome && e.1 / 4096 == p).length

/-! ### Retiring and refreshing blocks (R534, R536) -/

def Hub.modNand (h : Hub) (f : Store → Store) : Hub := { h with nand := f h.nand }

/-- SPARE_LOW where fewer than 8 good blocks are free. -/
def Hub.spareLow (h : Hub) (p : Nat) : Hub :=
  let f := (h.nand.free p).length
  if p ≠ 3 ∧ f < 8 then (h.setFlag (kCar 0x1312)).issueLimited p 186 5 p f 0 else h

/-- A block is retired: 1 program, 2 erase, 3 uncorrectable. -/
def Hub.retireBlock (h : Hub) (b cause : Nat) : Hub :=
  let p := partOf b
  let h := h.modNand fun n =>
    let n := n.modBlock b fun k => { k with bad := true }
    if p = 3 then n else (n.copyLive p b).modBlock b fun k => { k with pages := [] }
  (((h.addSat (kCar 0x1202) 2 1).setFlag (kCar 0x1310)).issue 186 3 p b cause).spareLow p

/-- A block is refreshed: 1 reads, 2 bits, 3 patrol. -/
def Hub.refreshBlock (h : Hub) (b why : Nat) : Hub :=
  let p := partOf b
  ((h.modNand fun n => (n.copyLive p b).erase b).addSat (kCar 0x1204) 2 1).issueLimited 0 186 2 p b why

/-- The first block erased by a partition's background work fails its erase. -/
def Hub.eraseFails (h : Hub) (p : Nat) (fails : Bool) : Hub :=
  match fails, h.nand.free p with
  | true, b :: _ => h.retireBlock b 2
  | _, _ => h

/-- The block that holds a page of an object's version in use. -/
def Hub.pageBlock (h : Hub) (o page : Nat) : Nat :=
  match h.nand.obj o with
  | none => 0
  | some x => ((partBlocks (o / 4096)).find? fun b => (h.nand.block b).pages.contains (o, page, x.gen)).getD 0

/-- A sector is uncorrectable: it reads as zeros, and its object is DAMAGED; NAND_UNCORRECTABLE names the block and the page in
it (R534). -/
def Hub.nandBad (h : Hub) (o page sector : Nat) : Hub :=
  match h.nand.obj o with
  | none => h
  | some x =>
    let zero := fun (b : List Byte) => b.take (512 * sector) ++ List.replicate 512 0 ++ b.drop (512 * sector + 512)
    let b := h.pageBlock o page
    let place := (h.nand.block b).pages.findIdx fun t => t == (o, page, x.gen)
    let h := h.modNand fun n => { n with objs := tput (fun _ => none) n.objs o (some { x with damaged := true, pages := lmod x.pages page zero }) }
    ((h.addSat (kCar 0x1200) 2 1).setFlag (kCar 0x1310)).issueLimited b 186 4 (o / 4096) b place

/-- Pages of an object are read, with sectors that are uncorrectable: each block that holds one is retired (R534); of the
others, the first is refreshed where a sector needed 6 or more bits corrected, and each whose read count is reached (R536).
While the NAND is write-protected no block is copied (R541). -/
def Hub.nandRead (h : Hub) (o : Nat) (pages : List Nat) (bad : List (Nat × Nat)) (soft : Bool) : Hub :=
  let bs := pages.map fun i => h.pageBlock o i
  let gone := (bad.map fun e => h.pageBlock o e.1).eraseDups
  let h := bs.foldl (fun h b => h.modNand fun n => n.modBlock b fun k => { k with reads := k.reads + 1 }) h
  let h := bad.eraseDups.foldl (fun h e => h.nandBad o e.1 e.2) h
  if h.nand.closed then h
  else
  let h := gone.foldl (fun h b => h.retireBlock b 3) h
  ((bs.eraseDups.filter fun b => !gone.contains b).zipIdx).foldl (fun h e =>
    if soft && e.2 == 0 then h.refreshBlock e.1 2 else if 100000 ≤ (h.nand.block e.1).reads then h.refreshBlock e.1 1 else h) h

/-- The patrol of a mounted store reads every programmed block of the object stores (R536): `soft` names those with 6 or more
corrected bits. -/
def Hub.patrol (h : Hub) (soft : List Nat) : Hub :=
  if h.nand.avail ≠ some true ∨ h.nand.closed then h
  else
  let bs := (h.nand.blocks.filter fun e => !e.2.pages.isEmpty && !e.2.bad && partOf e.1 != 3).map (·.1)
  let h := bs.foldl (fun h b => h.modNand fun n => n.modBlock b fun k => { k with reads := k.reads + k.pages.length }) h
  bs.foldl (fun h b => if soft.contains b then h.refreshBlock b 3 else if 100000 ≤ (h.nand.block b).reads then h.refreshBlock b 1 else h) h

/-! ### Commands (R538 to R540) -/

/-- CRC-32, reflected, initial value and final XOR of ones (R540). -/
def crc32 (b : List Byte) : BitVec 32 :=
  ~~~ (b.foldl (fun c x => iter 8 (fun _ (c : BitVec 32) => if c.getLsbD 0 then (c >>> 1) ^^^ 0xEDB88320 else c >>> 1) (c ^^^ x.setWidth 32)) (0xFFFFFFFF : BitVec 32))

/-- Pages that a length needs. -/
def pagesFor (len : Nat) : Nat := ceilDiv len 4096

/-- The object that PART and ID name. -/
def Hub.carObj (h : Hub) : Nat := 4096 * h.reg (kCar 0x1001) + h.reg (kCar 0x1002)
def Hub.carOk (h : Hub) : Bool := idOk (h.reg (kCar 0x1001)) (h.reg (kCar 0x1002))
def Hub.carArg (h : Hub) : Nat := h.effN (kCar 0x1003) 2

/-- The transfer buffer as bytes, and bytes put into it. -/
def Hub.carBuf (h : Hub) : List Byte := (List.range 2048).flatMap fun i => beBytes 2 (h.reg (kCar i))
def Hub.setCarBuf (h : Hub) (b : List Byte) : Hub := iter 2048 (fun i h => h.setReg (kCar i) (beAt b (2 * i) 2)) h

def Hub.carOpen (h : Hub) : Hub × Nat :=
  if ! h.carOk then (h, 1)
  else if h.nand.sess.isSome then (h, 2)
  else if h.carArg = 0 ∨ partMax (h.reg (kCar 0x1001)) < h.carArg then (h, 3)
  else (((h.modNand fun n => { n with gen := n.gen + 1, sess := some { obj := h.carObj, len := h.carArg, gen := n.gen + 1 } })).setReg (kCar 0x100B) 0, 0)

/-- Page `i` of an object of `len` bytes: the buffer's bytes, those past the length zero (R537). -/
def sessionPage (len i : Nat) (buf : List Byte) : List Byte :=
  let n := min 4096 (len - 4096 * i)
  buf.take n ++ List.replicate (4096 - n) 0

/-- CAR_WRITE: the buffer becomes the session's next page; a stalled write is dropped (R53). -/
def Hub.carWrite (h : Hub) (x : NandIn) : Hub × Nat :=
  match h.nand.sess with
  | none => (h, 2)
  | some s =>
    let p := s.obj / 4096
    let i := s.pages.length
    if pagesFor s.len ≤ i then (h, 3)
    else
      let (h, lost) := h.stallTaken 8 0 186
      if lost then (h, 0)
      else match h.nand.addPage p (s.obj, i, s.gen) false with
      | none => (h.spareLow p, 11)
      | some n =>
        let h := { h with nand := { n with sess := some { s with pages := s.pages ++ [sessionPage s.len i h.carBuf] } } }
        let h := if x.progFail then (match h.nand.current p with | some b => h.retireBlock b 1 | none => h) else h
        (((h.modNand fun n => n.collect p).eraseFails p x.eraseFail).setReg (kCar 0x100B) (i + 1), 0)

def Hub.carCommit (h : Hub) : Hub × Nat :=
  match h.nand.sess with
  | none => (h, 2)
  | some s =>
    if s.pages.length < pagesFor s.len then (h, 7)
    else
      let o : NandObj := { len := s.len, pages := s.pages, gen := s.gen, crc := crc32 (s.pages.flatten.take s.len) }
      (h.modNand fun n => { n with sess := none, objs := tput (fun _ => none) n.objs s.obj (some o) }, 0)

def Hub.carAbort (h : Hub) : Hub × Nat :=
  if h.nand.sess.isNone then (h, 2) else (h.modNand fun n => { n with sess := none }, 0)

/-- CAR_READ: a page of an object; a stalled read gives zeros (R53). -/
def Hub.carRead (h : Hub) (x : NandIn) : Hub × Nat :=
  let o := h.carObj
  let i := h.carArg
  if ! h.carOk then (h, 1)
  else match h.nand.obj o with
    | none => (h, 4)
    | some v =>
      if v.pages.length ≤ i then (h, 5)
      else
        let bad := x.bad.filter fun e => e.1 == i && decide (e.2 < 8)
        let (h, lost) := h.stallTaken 8 0 186
        if lost then (h.setCarBuf [], 0)
        else
          let h := h.nandRead o [i] bad x.soft
          let page := match h.nand.obj o with | some v => lget [] v.pages i | none => []
          (h.setCarBuf page, if bad.isEmpty then 0 else 6)

def Hub.carDelete (h : Hub) : Hub × Nat :=
  if ! h.carOk then (h, 1)
  else if (h.nand.obj h.carObj).isNone then (h, 4)
  else (h.modNand fun n => { n with objs := tput (fun _ => none) n.objs h.carObj none }, 0)

def Hub.carInfo (h : Hub) : Hub × Nat :=
  if ! h.carOk then (h, 1)
  else match h.nand.obj h.carObj with
    | none => (h, 4)
    | some v => (((h.setRegN (kCar 0x1006) 2 v.len).setRegN (kCar 0x1008) 2 v.crc.toNat).setFld (kCar 0x100A) 15 15 (b2n v.damaged), 0)

def Hub.carLog (h : Hub) : Hub × Nat :=
  match h.nand.log[h.carArg]? with
  | some (_, b) => let (h, lost) := h.stallTaken 8 0 186; (h.setCarBuf (if lost then [] else b), 0)
  | none => (h, 8)

/-- One word stored through an engine's translation, or the cause of its fault (R538). -/
def Hub.farPut (h : Hub) (n far : Nat) (w : Word) : Hub × Option Nat :=
  let r : FarReq := { store := true, far := far, x := 0, n := 1, data := [w], bg := true, tr := ((h.engine n).walk.find? fun t => t.1 == far / 4096).map fun t => t.2 }
  match h.translate n r ⟨.ok, .ok, []⟩ with
  | (h, .error (c, a)) => (h.farFault n r c a, some c)
  | (h, .ok a) => let (h, lost) := h.stallTaken 7 0 186; (if lost then h else h.writeDram (a / 2) [w], none)

/-- An object copied into a far space; a stalled read of the NAND gives zeros, a stalled write of DRAM is dropped (R53). -/
def Hub.carFload (h : Hub) (x : NandIn) : Hub × Nat :=
  let o := h.carObj
  let n := h.fld (kCar 0x1005) 3 0
  if ! h.carOk then (h, 1)
  else match h.nand.obj o with
    | none => (h, 4)
    | some v =>
      let bad := x.bad.filter fun e => decide (e.1 < v.pages.length) && decide (e.2 < 8)
      let (h, lost) := h.stallTaken 8 0 186
      let bad := if lost then [] else bad
      let h := if lost then h else h.nandRead o (List.range v.pages.length) bad x.soft
      let bytes := match lost, h.nand.obj o with | false, some v => v.pages.flatten.take v.len | _, _ => []
      let a := h.carArg
      let (h, c) := iter (ceilDiv v.len 2) (fun k (s : Hub × Option Nat) =>
        let r := s.1.farPut n ((a + k) % 2 ^ 24) (BitVec.ofNat 16 (beAt bytes (2 * k) 2))
        (r.1, s.2.orElse fun _ => r.2)) (h, none)
      match c with
      | some c => (h.setFld (kCar 0x100A) 2 0 c, if bad.isEmpty then 9 else 6)
      | none => (h, if bad.isEmpty then 0 else 6)

/-- A store command with its result: 12 while the store is unavailable, 10 once power loss has closed it. -/
def Hub.carRun (h : Hub) (cmd : Nat) (x : NandIn) : Hub × Nat :=
  if h.nand.avail ≠ some true then (h, 12)
  else if h.nand.closed then (h, 10)
  else match cmd with
    | 1 => h.carOpen
    | 2 => h.carWrite x
    | 3 => h.carCommit
    | 4 => h.carAbort
    | 5 => h.carRead x
    | 6 => h.carDelete
    | 7 => h.carInfo
    | 8 => h.carLog
    | _ => h.carFload x

/-- A write of CARCMD with KEY 0xC: it fails while a command runs (R538). -/
def Hub.carCmd (h : Hub) (cmd : Nat) (x : NandIn) : Hub :=
  if h.nand.busy.isSome then h.failWin 3 0x1000
  else if cmd = 0 ∨ 9 < cmd then h
  else
    let id := h.reg (kCar 0x1002)
    let (h, r) := h.carRun cmd x
    h.modNand fun n => { n with busy := some (cmd, r, id), done := false, cmd := cmd }

/-- The command that runs completes. -/
def Hub.carDone (h : Hub) : Hub :=
  match h.nand.busy with
  | none => h
  | some (cmd, r, id) =>
    ((h.modNand fun n => { n with busy := none, done := true, result := r }).addSat (kCar 0x1206) 2 1).issue 186 1 cmd r id

/-- BGS_CARSTAT (R556). -/
def Hub.carStat (h : Hub) : Nat :=
  flagAt h.nand.busy.isSome 15 + flagAt h.nand.done 14 + flagAt h.nand.sess.isSome 13 + 256 * h.nand.cmd + h.nand.result

end Sys2Proof.Machine
end

