-- ==== Sys2Proof/Machine/Recorder.lean ====
section
/-! DEFINITION. Recorder.lean: the incident log: its pages, the ring of blocks, freezing and marking (R545 to R550). -/

namespace Sys2Proof.Machine

def Hub.modRcd (h : Hub) (f : Recorder → Recorder) : Hub := { h with rcd := f h.rcd }

/-! ### IMA ADPCM (R545) -/

/-- The step table and the index table of the algorithm. -/
def imaSteps : List Nat :=
  [7, 8, 9, 10, 11, 12, 13, 14, 16, 17, 19, 21, 23, 25, 28, 31, 34, 37, 41, 45, 50, 55, 60, 66, 73, 80, 88, 97, 107, 118,
   130, 143, 157, 173, 190, 209, 230, 253, 279, 307, 337, 371, 408, 449, 494, 544, 598, 658, 724, 796, 876, 963, 1060,
   1166, 1282, 1411, 1552, 1707, 1878, 2066, 2272, 2499, 2749, 3024, 3327, 3660, 4026, 4428, 4871, 5358, 5894, 6484,
   7132, 7845, 8630, 9493, 10442, 11487, 12635, 13899, 15289, 16818, 18500, 20350, 22385, 24623, 27086, 29794, 32767]
def imaIndex : List Int := [-1, -1, -1, -1, 2, 4, 6, 8]

/-- One sample encoded: the predictor and step index after it, and its nibble. -/
def imaEncode (pred : Int) (idx : Nat) (v : Int) : Int × Nat × Nat :=
  let step := imaSteps.getD idx 7
  let d := (v - pred).natAbs
  let b2 := decide (step ≤ d)
  let d := if b2 then d - step else d
  let b1 := decide (step / 2 ≤ d)
  let d := if b1 then d - step / 2 else d
  let b0 := decide (step / 4 ≤ d)
  let q := step / 8 + (if b2 then step else 0) + (if b1 then step / 2 else 0) + (if b0 then step / 4 else 0)
  let code := flagAt b2 2 + flagAt b1 1 + flagAt b0 0
  let neg := decide (v < pred)
  (clampI (-32768) 32767 (if neg then pred - q else pred + q), (clampI 0 88 (idx + imaIndex.getD code 0)).toNat, code + flagAt neg 3)

/-- A channel block: the state at the first sample and 1,000 nibbles, with the state after the last sample. -/
def imaBlock (pred : Int) (idx : Nat) (vs : List Int) : List Byte × Int × Nat :=
  let r := vs.foldl (fun (a : Int × Nat × List Nat) v => let e := imaEncode a.1 a.2.1 v; (e.1, e.2.1, a.2.2 ++ [e.2.2])) (pred, idx, [])
  let bytes := (List.range 500).map fun i => BitVec.ofNat 8 (16 * r.2.2.getD (2 * i) 0 + r.2.2.getD (2 * i + 1) 0)
  (beBytes 2 (wordOf pred) ++ [BitVec.ofNat 8 idx, 0] ++ bytes, r.1, r.2.1)

/-- A 24-bit sample reduced to 16 bits. -/
def to16 (v : BitVec 24) : Int := clampI (-32768) 32767 (convergent ((v.toInt : Rat) / 256))

/-! ### Pages (R546) -/

/-- The channels that record zeros: their name is not allocated or its domain produces no ticks. -/
def Hub.noSig (h : Hub) : Byte :=
  BitVec.ofNat 8 ((List.range 8).map fun n => flagAt (match h.slotOf 9 n with
    | some s => !(h.dom (h.slotDom s)).run
    | none => true) n).sum

/-- What the header of the next page takes at its first sample; MARK is used up (R546, R549). -/
def Hub.recStart (h : Hub) : Hub :=
  let t := h.ptpNow
  let h := h.tookFree
  (h.modRcd fun r =>
    { r with tick := h.stamp, epoch := (h.dom 0).epoch, sec := BitVec.ofNat 48 (t / 10 ^ 9), ns := BitVec.ofNat 32 (t % 10 ^ 9), ptpv := bit (h.reg 0x3A) 14,
             mark := h.fld 0x6A 7 0, nosig := h.noSig }).setFld 0x6A 7 0 0

/-- The page's bytes, and the recorder with the ADPCM states after it. -/
def Hub.logPage (h : Hub) (samples : List (List (BitVec 24))) (last : Bool) : List Byte × Recorder :=
  let r := h.rcd
  let nosig := r.nosig ||| h.noSig
  let n := min 1000 (samples.foldl (fun m l => max m l.length) 0)
  let n := if last then max 1 n else 1000
  let quiet := r.nosig &&& h.noSig
  let chan := fun c => if quiet.getLsbD c then List.replicate n 0 else (List.range n).map fun i => to16 (lget 0 (lget [] samples c) i)
  let blocks := (List.range 8).map fun c => let s := r.chans.get (0, 0) c; imaBlock s.1 s.2 (chan c)
  let flags := flagAt r.ptpv 15 + flagAt last 9 + flagAt (r.mark != 0) 8 + nosig.toNat
  let head := beBytes 2 0x4C47 ++ beBytes 2 1 ++ beBytes 6 (h.nand.pseq + h.rcd.buffer.length) ++ beBytes 4 r.tick.toNat ++ beBytes 6 r.epoch.toNat ++
    beBytes 6 r.sec.toNat ++ beBytes 4 r.ns.toNat ++ beBytes 2 flags ++ beBytes 2 r.mark ++ beBytes 2 n ++ List.replicate 26 0
  let body := blocks.flatMap (·.1)
  (head ++ beBytes 2 (crcBytes 16 0x1021 0xFFFF (head ++ body)) ++ body, { r with chans := .ofFn fun c => (lget ([], 0, 0) blocks c).2 })

/-! ### The ring (R547, R548) -/

/-- The next good block of the log's ring. -/
def Store.logNext (n : Store) (b : Nat) : Nat :=
  let g := n.good 3
  ((g.find? fun x => decide (b < x)).orElse fun _ => g.head?).getD b

/-- Pages in the block at the write point. -/
def Store.logFill (n : Store) : Nat := (n.log.filter fun e => e.1 == n.logBlock).length

/-- The write point moves to a block, and the block after it is erased ahead. -/
def Store.logMove (n : Store) (b : Nat) : Store :=
  let a := n.logNext b
  { n.erase a with logBlock := b, log := n.log.filter fun e => e.1 != a }

/-- A page is programmed; a failing block is replaced by the next one, with its pages. A stalled write loses the page, whose
sequence number is spent (R53). -/
def Hub.logProgram (h : Hub) (page : List Byte) (fails : Bool) : Hub :=
  let h := if 64 ≤ h.nand.logFill then h.modNand fun n => n.logMove (n.logNext n.logBlock) else h
  let h := if fails then
      let b := h.nand.logBlock
      (h.retireBlock b 1).modNand fun n =>
        let c := n.logNext b
        let l := n.log.map fun (e : Nat × List Byte) => if e.1 = b then (c, e.2) else e
        ({ n with log := l }).logMove c
    else h
  let (h, lost) := h.stallTaken 8 0 187
  let h := h.modNand fun n => { n with log := if lost then n.log else (n.logBlock, page) :: n.log, pseq := n.pseq + 1 }
  h.setRegN (kCar 0x1300) 3 (h.nand.pseq - 1)

/-- RETAIN in seconds. -/
def Store.retain (n : Store) : Nat := ((n.good 3).length - 1) * 4 + n.logFill / 16

/-- Seconds lost are counted by sixteenths, one page each. -/
def Hub.lostPage (h : Hub) : Hub :=
  let n := h.rcd.lost + 1
  if n = 16 then (h.modRcd fun r => { r with lost := 0 }).addSat (kCar 0x1305) 2 1 else h.modRcd fun r => { r with lost := n }
def Hub.gapPage (h : Hub) : Hub :=
  let n := h.rcd.gap + 1
  if n = 16 then (h.modRcd fun r => { r with gap := 0 }).addSat (kCar 0x1307) 2 1 else h.modRcd fun r => { r with gap := n }

/-- Audio cannot be kept: LOG_GAP with the seconds lost, rounded up (R548). -/
def Hub.logGap (h : Hub) : Hub := (h.gapPage.setFlag (kCar 0x1311)).issueLimited 0 187 2 1 (h.nand.pseq % 65536) 0

/-- LOG_FROZEN. -/
def Hub.logFrozen (h : Hub) (on : Bool) : Hub := h.issue 187 1 (b2n on) ((h.nand.pseq - 1) % 65536) 0

/-- Are pages being written. -/
def Hub.recActive (h : Hub) : Bool := h.nand.avail == some true && bit (h.reg 0x6A) 15 && !h.rcd.frozen && !h.rcd.closed

/-- A page's 62.5 ms end (R546 to R549). While the NAND is write-protected pages are filled and kept (R601). -/
def Hub.recPage (h : Hub) (x : LogIn) : Hub :=
  if ! bit (h.reg 0x6A) 15 then h
  else if h.nand.avail = some false then h.gapPage
  else if h.nand.avail = none then h
  else if h.rcd.frozen then h.lostPage
  else
    let last := h.rcd.closing
    let (page, r) := h.logPage x.samples last
    let h := if h.rcd.closed then { h with rcd := { r with buffer := r.buffer ++ [page] } }
      else if x.late then h.logGap
      else ({ h with rcd := r }).logProgram page x.nand.progFail
    let h := (if last then h.modRcd fun r => { r with closed := true, closing := false } else h).recStart
    if bit (h.reg 0x6A) 14 then (h.modRcd fun r => { r with frozen := true }).logFrozen true else h

/-- FREEZE written (R549). -/
def Hub.logFreeze (h : Hub) (on : Bool) : Hub :=
  let h := h.setFld 0x6A 14 14 (b2n on)
  if ¬ on ∧ h.rcd.frozen then (h.modRcd fun r => { r with frozen := false }).logFrozen false else h

/-- MARK written: a nonzero code waits for the next page. -/
def Hub.logMark (h : Hub) (code : Nat) : Hub := if code = 0 then h else h.setFld 0x6A 7 0 code

/-- A write of BGS_LOGCTL. -/
def Hub.logCtl (h : Hub) (w : Nat) : Hub :=
  let h := h.setFld 0x6A 15 15 (bits w 15 15)
  let h := if bits w 14 14 = h.fld 0x6A 14 14 then h else h.logFreeze (bit w 14)
  h.logMark (bits w 7 0)

/-- BGS_LOGSTAT. -/
def Hub.logStat (h : Hub) : Nat := flagAt h.recActive 15 + h.rcd.nosig.toNat

end Sys2Proof.Machine
end

