-- ==== Sys2Proof/Machine/Power.lean ====
section
/-! DEFINITION. Power.lean: the inputs and the hold-up store, power loss and recovery, thermal derating, and the requests
that the chime path takes (R584 to R605). -/

namespace Sys2Proof.Machine

/-- A word of this chapter in space 0x3F (R608). -/
def kPwr (o : Nat) : Nat := spc 0x3F (0xD00 + o)

def Hub.modPwr (h : Hub) (f : Power → Power) : Hub := { h with pwr := f h.pwr }

/-- What the terminals of an amplifier channel measure where the command does not say: free. -/
def Hub.freeSense (h : Hub) : Hub × Sense :=
  (h.tookFree, { ext := bit h.freeVal 0, volt := BitVec.ofNat 16 (h.freeVal / 2), cur := BitVec.ofNat 16 (h.freeVal / 2 ^ 17) })

/-- CHIMEP and BOOTRUN. -/
def Hub.chimeP (h : Hub) : Bool := bit (h.reg 0x04) 11
def Hub.bootRun (h : Hub) : Bool := bit (h.reg 0x04) 10

/-- Milliseconds since time zero (R591). -/
def Hub.sinceZero (h : Hub) : Nat := h.pwr.zeroMs + (h.refMs - h.pwr.startMs)

/-! ### Recovery (R602) -/

/-- The recorder programs the pages it filled while protected; those older than 250 ms are lost (R548, R602). -/
def Hub.recorderBack (h : Hub) : Hub :=
  let pages := h.rcd.buffer
  let n := pages.length
  let h := h.modRcd fun r => { r with closing := false, closed := false, buffer := [] }
  let h := iter (n - 4) (fun _ h => h.logGap) h
  let h := h.modNand fun s => { s with pseq := s.pseq + (n - 4) }
  (pages.drop (n - 4)).foldl (fun h p => h.logProgram p false) h

/-- Shed channels start again (R602, R449). -/
def Hub.ampsBack (h : Hub) : Hub :=
  iter 8 (fun n h =>
    if ! bit (h.reg 0x4E) n ∨ (h.bridged n ∧ n % 2 = 1) then h
    else if h.isL then h.ampGo n
    else let (h, m) := h.freeSense; h.ampCheck n m) h

/-- An input qualifies while the power-loss signal is asserted (R602). -/
def Hub.powerBack (h : Hub) : Hub :=
  let h := (h.modPwr fun p => { p with loss := false }).issue 227 1 0 (h.reg 0x75) (h.reg 0x76)
  let h := (h.modNand fun n => { n with closed := false }).recorderBack
  let h := if h.pwr.shed then
      ((h.modPwr fun p => { p with shed := false }).ampsBack).issue 227 2 0 (satN 65535 (h.refMs - h.pwr.lossAt)) (h.reg 0x75)
    else h
  if h.pwr.released then
    let h := h.modPwr fun p => { p with released := false }
    let h := if bit (h.reg 0x39) 15 then h else h.netOpen 3
    if bit (h.reg 0x4A) 15 then h else h.tlOpen 3
  else h

/-! ### Inputs (R584 to R586) -/

/-- INPUT_QUALIFIED; before the event queue starts its source holds it (R584, R132). -/
def Hub.inputEvent (h : Hub) (ac : Bool) (volt freq : Nat) : Hub := h.issue 226 1 (b2n ac) volt (if ac then freq else 0)

/-- Each change of an input's qualification counts and sets the INPUT flag. -/
def Hub.inputChange (h : Hub) (ac on : Bool) : Hub :=
  let h := h.modPwr fun p => if ac then { p with ac := on } else { p with dc := on }
  (h.addWrap (kPwr (if ac then 0x1B else 0x1A)) 1 1).setFlag (kPwr 0x22)

/-- An input qualifies. -/
def Hub.inputQualified (h : Hub) (ac : Bool) (volt freq : Nat) : Hub :=
  if (if ac then h.pwr.ac else h.pwr.dc) then h
  else
    let h := (h.inputChange ac true).inputEvent ac volt freq
    if h.pwr.loss then h.powerBack else h

/-- The power-loss signal is asserted: the NAND sequence of R541 begins (R586, R601). -/
def Hub.powerLoss (h : Hub) : Hub :=
  let h := (h.modPwr fun p => { p with loss := true, lossAt := h.refMs }).addSat (kPwr 6) 2 1
  let h := (h.setFlag (kPwr 0x20)).issue 227 1 1 (h.reg 0x75) (h.reg 0x76)
  let h := h.modNand fun n =>
    let busy := n.busy.map fun b => if b.1 = 1 ∨ b.1 = 2 then (b.1, 10, b.2.2) else b
    { n with closed := true, sess := none, busy := busy,
             result := if n.sess.isSome ∧ n.busy.isNone then 10 else n.result }
  h.modRcd fun r => { r with closing := true }

/-- An input is lost: 1 under, 2 over, 3 frequency. -/
def Hub.inputLost (h : Hub) (ac : Bool) (cause volt : Nat) : Hub :=
  if ! (if ac then h.pwr.ac else h.pwr.dc) then h
  else
    let h := (h.inputChange ac false).issueLimited (b2n ac) 226 2 (b2n ac) cause volt
    if h.pwr.dc || h.pwr.ac || !h.pwr.running || h.pwr.loss then h else h.powerLoss

/-- PWR_STAT (R607). What SRC reads while nothing is drawn is open. -/
def Hub.pwrStat (h : Hub) : Nat :=
  let p := h.pwr
  let src := if p.ac then 1 else if p.dc then 0 else if p.loss then h.freeVal % 2 else 0
  flagAt p.loss 15 + flagAt p.shed 14 + flagAt p.dc 13 + flagAt p.ac 12 + 2048 * src + h.fld 0x74 6 0

/-! ### The store (R587 to R590) -/

/-- PWR_HOLDT, the charge and the store voltage. -/
def Hub.holdup (h : Hub) (ms chg volt : Nat) : Hub := ((h.setReg 0x75 ms).setFld 0x74 6 0 chg).setReg (kPwr 3) volt

/-- PWR_PIN and the input voltages and frequency. -/
def Hub.inputPower (h : Hub) (w vdc vac fac : Nat) : Hub :=
  (((h.setReg 0x76 w).setReg (kPwr 0) vdc).setReg (kPwr 1) vac).setReg (kPwr 2) fac

/-- The store's capacity; `short` says that it would give less than 1 s of logic hold-up (R590). -/
def Hub.capacity (h : Hub) (cap : Nat) (short : Bool) : Hub :=
  let h := h.setReg (kPwr 4) cap
  if short then h.issue 227 3 cap (h.reg 0x75) 0 else h

/-! ### Power loss (R601) -/

/-- The store reaches the shed level: every amplifier ramps down and isolates. -/
def Hub.ampShed (h : Hub) : Hub :=
  if ! h.pwr.loss ∨ h.pwr.shed then h
  else
    let h := (h.modPwr fun p => { p with shed := true }).addSat (kPwr 8) 2 1
    let h := iter 8 (fun n h => if h.ampState n = 3 ∨ h.ampState n = 4 then h.ampRamp n 3 .off else h.ampRest n 0 0) h
    h.issue 227 2 1 (satN 65535 (h.refMs - h.pwr.lossAt)) (h.reg 0x75)

/-- 200 ms after the shed level both relays are commanded closed. -/
def Hub.bypassRelease (h : Hub) : Hub :=
  if ! h.pwr.shed ∨ h.pwr.released then h
  else ((h.modPwr fun p => { p with released := true }).bypass 3).tlRelayClose 3

/-! ### Temperatures (R604, R605) -/

/-- DERATE moves by at most 0.1 dB toward 0.5 dB per °C above DRSTART, at most 12.0 dB. -/
def Hub.derate (h : Hub) (heatsink : Int) : Hub :=
  let target := (clampI 0 120 (5 * (heatsink - (h.fld (kPwr 0xD) 7 0 : Nat)))).toNat
  let old := h.fld (kPwr 0xE) 7 0
  let new := if old < target then old + 1 else old - b2n (decide (target < old))
  if h.isL ∨ new = old then h
  else (h.setReg (kPwr 0xE) new).issueLimited 0 228 1 (wordOf heatsink) new 0

/-- Temperatures are sensed. -/
def Hub.thermal (h : Hub) (renza heatsink air : Nat) : Hub :=
  let h := (((h.setReg (kPwr 0xA) renza).setReg (kPwr 0xB) heatsink).setReg (kPwr 0xC) air).derate (s16 heatsink)
  if ! h.pwr.hot ∧ 120 ≤ s16 renza then (((h.modPwr fun p => { p with hot := true }).setFlag (kPwr 0x21))).issue 228 2 1 renza 0
  else if h.pwr.hot ∧ s16 renza < 115 then (h.modPwr fun p => { p with hot := false }).issue 228 2 0 renza 0
  else h

/-- Is a sample above the output ceiling: DERATE, in 0.1 dB, below full scale. -/
def aboveCeiling (v : Int) (derate : Nat) : Bool := decide ((2 ^ 230) ^ 20 < v.natAbs ^ 200 * 10 ^ derate)

/-- The output limiter of a channel at a tick: while it acts, and for 100 ms after, what leaves it is free. -/
def Hub.limitTick (h : Hub) (n : Nat) : Hub :=
  let a := h.ampCh n
  let d := h.fld (kPwr 0xE) 7 0
  if h.isL then h
  else if d ≠ 0 ∧ aboveCeiling a.out.toInt d then
    (h.modAmp n fun x => { x with limit := h.ticksOf (h.clko 2).dom 100, out := BitVec.ofNat 24 h.freeVal }).tookFree
  else if a.limit ≠ 0 then (h.modAmp n fun x => { x with limit := x.limit - 1, out := BitVec.ofNat 24 h.freeVal }).tookFree
  else h

/-! ### Requests for the chime path (R594, R595) -/

/-- A chime is requested: 1 by command, 2 by the field input. -/
def Hub.chimeAsk (h : Hub) (chime by_ : Nat) : Hub :=
  if h.chimeP then h.modPwr fun p => { p with chime := { p.chime with req := some (chime, by_) } } else h

/-- A write of SYS_CHIMECMD: KEY 0x3 requests a chime, KEY 0x9 releases the path. -/
def Hub.chimeCmd (h : Hub) (w : Nat) : Hub :=
  if bits w 15 12 = 3 then h.chimeAsk (bits w 1 0) 1
  else if bits w 15 12 = 9 ∧ h.chimeP ∧ ¬ h.pwr.chime.releasing then h.modPwr fun p => { p with chime := { p.chime with releaseReq := true } }
  else h

/-- The field input that requests a chime has changed to on; which chime it requests is open. -/
def Hub.chimeInput (h : Hub) (i : Nat) (was : Bool) : Hub :=
  let cfg := h.reg (kPwr 0x10)
  if bit cfg 15 ∧ bits cfg 3 0 = i ∧ ¬ was ∧ bit (h.reg 0x54) i ∧ h.chimeP then (h.chimeAsk (h.freeVal % 4) 2).tookFree else h

/-- Duration of a chime in tenths of a second. -/
def chimeTenths (c : Nat) : Nat := [10, 15, 40, 10].getD c 0

/-- The removal of the chime path's crosspoints has ended: its slots are freed and CHIME_RELEASED is raised (R595). -/
def Hub.chimeFreed (h : Hub) : Hub :=
  if ! h.pwr.chime.releasing ∨ (List.range (if h.isL then 4 else 8)).any (fun n => let x := h.xp (4088 + n); x.valid || x.removing || x.next.isSome) then h
  else
    let h := iter 9 (fun i h => if h.isL ∧ 4 ≤ i ∧ i < 8 then h else (h.setEff (kSlot (503 + i) 0) 0).setEff (kSlot (503 + i) 1) 0) h
    ((h.modPwr fun p => { p with chime := {} }).setFld 0x04 11 11 0).issue 241 7 0 0 0

/-- The chime path at a tick of DOM0 (R594, R595). -/
def Hub.chimeTick (h : Hub) : Hub :=
  let c := h.pwr.chime
  let h := match c.req with
    | some (n, by_) =>
      (h.modPwr fun p => { p with chime := { p.chime with req := none, play := some (n, chimeTenths n * rateHz (h.dom 0).rate / 10) } }).issue 241 6 n by_ 0
    | none => h.modPwr fun p => { p with chime := { p.chime with play := match p.chime.play with
        | some (n, k) => if k ≤ 1 then none else some (n, k - 1)
        | none => none } }
  let h := if c.releaseReq then
      let h := h.modPwr fun p => { p with chime := { p.chime with releaseReq := false, releasing := true } }
      let h := h.ctlWrite 0 (putBits (h.reg (kSe 0 0x100)) 15 15 0)
      iter (if h.isL then 4 else 8) (fun n h =>
        let x := 4088 + n
        if (h.xp x).valid then
          let ws := (List.range 4).map fun i => h.eff (kXp x i)
          h.xpApply x (putBits (lget 0 ws 0) 15 15 0 :: ws.drop 1)
        else h) h
    else h
  h.chimeFreed

/-- The chime path's amplifiers are in RUN (R591). -/
def Hub.chimeReady (h : Hub) : Hub :=
  let ns := if h.isL then 4 else 8
  if h.pwr.chime.awaited ∧ (List.range ns).all fun n => h.ampState n == 4 then
    ((h.modPwr fun p => { p with chime := { p.chime with awaited := false } }).toPhase 6).issue 241 2 h.sinceZero 0 0
  else h

end Sys2Proof.Machine
end

