-- ==== Sys2Proof/Machine/Tick.lean ====
section
/-! DEFINITION. Tick.lean: a tick of a sample domain: publish, snapshot, programs, mix (R19). -/

namespace Sys2Proof.Machine

/-- M(k-1) reaches the sinks of the domain: transmit contexts, AES3 outputs, amplifiers, train lines (R19, R393, R423). -/
def Hub.sinksTick (h : Hub) (d : Nat) : Hub :=
  let tx := (h.net.ctx.map (·.1)).filter fun c => (h.ctxOf c).run && bit (h.strCtl c) 14 && bits (h.strCtl c) 13 12 == d
  let h := tx.foldl (fun h c => h.txCollect c h.sinkOut) h
  let h := iter 2 (fun o h => if (h.aoutClk o).dom = d then h.aoutTick o else h) h
  let h := if (h.clko 2).dom = d then iter 8 (fun n h => ((h.ampTick n).pilotAdd n).limitTick n) h else h
  if (h.clko 3).dom = d then iter 2 (fun t h => h.tlSend t) h else h

/-- A sample that a converter delivers; 0 where none is listed. -/
def tickSample (x : TickIn) (u : Nat) : BitVec 24 := ((x.samples.find? fun e => e.1 == u).map (·.2)).getD 0

/-- The snapshot S(k) of what the inputs and the stream contexts put into their slots; a unit that is disabled gives 0
(R19, R467). -/
def Hub.snapshot (h : Hub) (d : Nat) (x : TickIn) : Hub :=
  let h := (h.sourcesOf d).foldl (fun h s => { h with bus := tput (fun _ => {}) h.bus s {} }) h
  let h := iter 8 (fun n h => h.trimStep d n) h
  let h := iter 8 (fun n h => if (h.clko (n / 4)).dom = d then h.adcSample n (tickSample x n) (x.clips.contains n) else h) h
  let h := if (h.clko 3).dom = d then iter 2 (fun t h => h.tlSample t (tickSample x (8 + t))) h else h
  let h := iter 2 (fun i h => if h.ainDom i = d then h.ainTick i else h) h
  let rx := (h.net.ctx.map (·.1)).filter fun c => (h.ctxOf c).run && !bit (h.strCtl c) 14 && bits (h.strCtl c) 13 12 == d
  rx.foldl (fun h c => h.playCtx c) h

/-- The engines bound to a domain. -/
def Hub.engsOf (h : Hub) (d : Nat) : List Nat := (List.range 16).filter fun n => h.domOf n == d

/-- DOM0's first tick after start-up: PHASE 3 and the network start-up point (R591, R592). -/
def Hub.firstTick (h : Hub) : Hub :=
  let h := h.toPhase 3
  if bit (h.reg 0x39) 15 then h else h.relayOpen 1

/-- A tick of a running domain (R19). -/
def Hub.domainTick (h : Hub) (d : Nat) (x : TickIn) : Hub :=
  if ! (h.dom d).run then h
  else
    let first := d == 0 && !h.clk.started
    let h := (h.domCount d).publish d
    let h := if first then h.firstTick else h
    let h := (h.strTick d).sinksTick d
    let h := if d = 0 then h.chimeTick else h
    let h := h.snapshot d x
    let h := (h.engsOf d).foldl (fun h n => h.engJudge n) h
    let h := (h.matrixTick d).calTick d
    let h := if d = 0 then h.cueFire else h
    ((h.engsOf d).foldl (fun h n => h.engBegin n) h).kickAll

/-- What follows a change of the clock outputs: amplifiers and train-line sends, AES3 outputs and caption ports (R424, R432,
R510). -/
def Hub.clkSync (h : Hub) : Hub := (iter 2 (fun o h => h.aoutCheck o) h.sinkSync).capSync

/-- A host write of a word of clock output `m`: CLKO7 ignores it while a caption port is enabled (R511). -/
def Hub.clkoWrite (h : Hub) (m : Nat) (f : Hub → Hub) : Hub := if m = 7 ∧ h.capHolds then h else (f h).clkSync

end Sys2Proof.Machine
end

