-- ==== Sys2Proof/Machine/ClockExec.lean ====
section
/-! DEFINITION. ClockExec.lean: the meanings of the commands of domain ticks, the clock synthesizer, references, domains and clock outputs. -/

namespace Sys2Proof.Machine

/-- DOMAIN_TICK (R19). -/
def execDomainTick (d : Fin 4) (x : TickIn) (s : State) : Host.Outcome State Fault Refusal :=
  s.onHub fun h => h.domainTick d x
/-- CORE_LOCKED (R61, R63, R76): the core locks with the codes found; `skips` are the ticks each of its domains skipped. -/
def execCoreLocked (c : Fin 2) (coarse : BitVec 12) (fine : BitVec 10) (skips : List Nat) (m : ClkMeas) (s : State) : Host.Outcome State Fault Refusal :=
  s.onHub fun h => (h.coreLock c coarse.toNat fine.toNat skips m).clkSync
/-- SEARCH_FALLBACK (R61). -/
def execSearchFallback (c : Fin 2) (s : State) : Host.Outcome State Fault Refusal := s.onHub fun h => h.searchStart c
/-- FINE_CODE_UPDATE (R62): `tj` is the junction temperature in °C. -/
def execFineCodeUpdate (tj : Word) (s : State) : Host.Outcome State Fault Refusal :=
  s.onHub fun h => h.fineUpdate (s16 tj.toNat)
/-- UNLOCK (R63). -/
def execUnlock (c : Fin 2) (s : State) : Host.Outcome State Fault Refusal := s.onHub fun h => (h.coreUnlock c).clkSync
/-- CORE_BASE_TICK (R64, R78 to R80, R83). -/
def execCoreBaseTick (c : Fin 2) (s : State) : Host.Outcome State Fault Refusal :=
  s.onHub fun h => (h.coreBaseTick c).clkSync
/-- CORE_STOP_REQUEST (R64): CKS_STOP bit is written 1. -/
def execCoreStopRequest (c : Fin 2) (s : State) : Host.Outcome State Fault Refusal := s.onHub fun h => h.stopRequest c
/-- CORE_STOP_WITHDRAW (R64): CKS_STOP bit is written 0 before the stop. -/
def execCoreStopWithdraw (c : Fin 2) (s : State) : Host.Outcome State Fault Refusal := s.onHub fun h => h.stopWithdraw c
/-- CORE_RESTART (R64): CKS_STOP bit is written 0 on a stopped core. -/
def execCoreRestart (c : Fin 2) (s : State) : Host.Outcome State Fault Refusal := s.onHub fun h => h.coreRestart c
/-- REF_SIGNAL_VALID (R66). -/
def execRefSignalValid (r : Fin 3) (offset drift : Word) (m : ClkMeas) (s : State) : Host.Outcome State Fault Refusal :=
  s.onHub fun h => h.refValid r offset drift m
/-- REF_QUALIFIED (R66). -/
def execRefQualified (r : Fin 3) (offset drift : Word) (m : ClkMeas) (s : State) : Host.Outcome State Fault Refusal :=
  s.onHub fun h => h.refQualify r offset drift m
/-- REF_LOST (R66). -/
def execRefLost (r : Fin 3) (cause : Fin 5) (offset drift : Word) (m : ClkMeas) (s : State) : Host.Outcome State Fault Refusal :=
  s.onHub fun h => h.refLose r cause offset drift m
/-- SLEW_DONE (R71). -/
def execSlewDone (c : Fin 2) (m : ClkMeas) (s : State) : Host.Outcome State Fault Refusal := s.onHub fun h => h.slewEnd c m
/-- HOP_REQUEST (R77): `go` is GO of the word written. -/
def execHopRequest (c : Fin 2) (entry : Fin 8) (go : Bool) (s : State) : Host.Outcome State Fault Refusal :=
  s.onHub fun h => h.hopRequest c entry go
/-- HOP_DONE (R78). -/
def execHopDone (c : Fin 2) (coarse : BitVec 12) (fine : BitVec 10) (us : Nat) (skips : List Nat) (m : ClkMeas) (s : State) : Host.Outcome State Fault Refusal :=
  s.onHub fun h => (h.hopDone c coarse.toNat fine.toNat us skips m).clkSync
/-- DOMAIN_REBIND (R79): a write of CKS_DOMCFG. -/
def execDomainRebind (d : Fin 4) (field : BitVec 4) (s : State) : Host.Outcome State Fault Refusal :=
  s.onHub fun h => h.domRebind d field.toNat
/-- DOMAIN_ENABLE (R80): CKS_DOMEN bit is written 1. -/
def execDomainEnable (d : Fin 4) (s : State) : Host.Outcome State Fault Refusal := s.onHub fun h => h.domEnable d
/-- DOMAIN_DISABLE (R80): CKS_DOMEN bit is written 0. -/
def execDomainDisable (d : Fin 4) (s : State) : Host.Outcome State Fault Refusal := s.onHub fun h => h.domDisable d
/-- CLKO_ENABLE (R86): EN is written 1. -/
def execClkoEnable (m : Fin 8) (s : State) : Host.Outcome State Fault Refusal :=
  s.onHub fun h => h.clkoWrite m fun h => h.clkoEnable m
/-- CLKO_DISABLE (R86): EN is written 0; `high` says that the output is in a high phase. -/
def execClkoDisable (m : Fin 8) (high : Bool) (s : State) : Host.Outcome State Fault Refusal :=
  s.onHub fun h => h.clkoWrite m fun h => h.clkoDisable m high
/-- CLKO_STOP_COMPLETE (R86). -/
def execClkoStopComplete (m : Fin 8) (s : State) : Host.Outcome State Fault Refusal := s.onHub fun h => h.clkoStopped m
/-- CLKO_DIVIDER_CHANGE (R84): N and HALF are written. -/
def execClkoDividerChange (m : Fin 8) (n : Word) (half : Bool) (s : State) : Host.Outcome State Fault Refusal :=
  s.onHub fun h => h.clkoWrite m fun h => h.clkoDivider m n.toNat half
/-- CLKO_DELAY_CHANGE (R85). -/
def execClkoDelayChange (m : Fin 8) (delay : BitVec 10) (s : State) : Host.Outcome State Fault Refusal :=
  s.onHub fun h => h.clkoWrite m fun h => h.clkoDelay m delay.toNat
/-- CLKO_DOM_CHANGE (R86). -/
def execClkoDomChange (m : Fin 8) (dom : Fin 4) (s : State) : Host.Outcome State Fault Refusal :=
  s.onHub fun h => h.clkoWrite m fun h => h.clkoDom m dom

end Sys2Proof.Machine
end

