-- ==== Sys2Proof/Machine/Events.lean ====
section
/-! DEFINITION. Events.lean: the event queue: how a record enters, how records are released, the overflow episode, and
the attention condition (R129 to R148). -/

namespace Sys2Proof.Machine

/-! ### Records and the queue -/

/-- Word `w` of a record (R129). -/
def EvRecord.word (r : EvRecord) (w : Nat) : Nat :=
  match w with
  | 0 => 0x8000 + flagAt r.lostF 14 + 4096 * r.urg.toNat + 256 * r.lostN.toNat + r.src.toNat
  | 1 => r.seq.toNat
  | 2 => r.stamp.toNat % 65536
  | 3 => r.stamp.toNat / 65536
  | 4 => r.code.toNat
  | 5 => r.data0.toNat
  | 6 => r.data1.toNat
  | _ => r.data2.toNat

/-- EVQ_FILL: the number of records that wait (R139). -/
def EvQueue.fill (q : EvQueue) : Nat := q.entries.length

/-- The word of space 0x02 at offset `o` below 0x2000: word `o` mod 8 of the record `o` ÷ 8 from the head, or 0 (R138). -/
def EvQueue.recordWord (q : EvQueue) (o : Nat) : Nat :=
  match q.entries[o / 8]? with
  | some w => w.record.word (o % 8)
  | none => 0

/-- A record appended: the tail advances and the high-water mark follows (R139, R147). -/
def EvQueue.push (q : EvQueue) (w : Waiting) : EvQueue :=
  { q with entries := q.entries ++ [w], tail := q.tail + 1, hwm := max q.hwm (q.fill + 1) }

/-- A record lost: its source's pending-loss count and LOSTCNT, and LOSTALL (R143). -/
def Hub.evLost (h : Hub) (src : Nat) : Hub :=
  let h := (h.addSat (spc 0x02 (0x2100 + 2 * src)) 2 1).addSat (spc 0x02 0x2602) 2 1
  { h with ev := { h.ev with pendLoss := tput (fun _ => 0) h.ev.pendLoss src (tget (fun _ => 0) h.ev.pendLoss src + 1) } }

/-- The episode with one more record of a source dropped; it opens with the first (R143, R145). -/
def EvQueue.lose (q : EvQueue) (src now : Nat) : EvQueue :=
  match q.episode with
  | none => { q with episode := some { dropped := 1, sources := [src], start := now } }
  | some e => { q with episode := some { e with dropped := e.dropped + 1, sources := if e.sources.contains src then e.sources else e.sources ++ [src] } }

/-- A record as it enters: it carries the loss that its source has pending (R143). -/
def Hub.stamped (h : Hub) (r : EvRecord) : Waiting :=
  let n := tget (fun _ => 0) h.ev.pendLoss r.src.toNat
  { record := { r with lostF := decide (0 < n), lostN := BitVec.ofNat 4 (min 15 n) }, entered := h.refMs }

/-- A record enters the queue, or finds 1,024 records waiting and is dropped (R143). -/
def enterRecord (h : Hub) (q : EvQueue) (r : EvRecord) : Hub × EvQueue :=
  if 1024 ≤ q.fill then ((h.evLost r.src.toNat).setFlag 0x1F, q.lose r.src.toNat h.refMs)
  else
    ({ h with ev := { h.ev with pendLoss := tput (fun _ => 0) h.ev.pendLoss r.src.toNat 0 } }, q.push (h.stamped r))

/-- The oldest issued record of a source that has not entered yet, and the rest (R136). -/
def takeFirst (src : Nat) : List EvRecord → Option (EvRecord × List EvRecord)
  | [] => none
  | r :: rs => if r.src.toNat = src then some (r, rs) else (takeFirst src rs).map fun p => (p.1, r :: p.2)

/-- The next record of a source leaves for the queue. -/
def Hub.nextRecord (h : Hub) (src : Nat) : Option (EvRecord × Hub) :=
  (takeFirst src h.ev.inflight).map fun p => (p.1, { h with ev := { h.ev with inflight := p.2 } })

/-- The next record of a source enters the queue (R135, R136). -/
def evEntry (h : Hub) (q : EvQueue) (src : Nat) : Hub × EvQueue :=
  match h.nextRecord src with
  | none => (h, q)
  | some (r, h) => enterRecord h q r

/-- The link into the queue stalls: the source's next record is lost (R53, R143). -/
def Hub.evStall (h : Hub) (src : Nat) : Hub :=
  match h.nextRecord src with
  | none => h
  | some (_, h) => h.evLost src

/-! ### Release (R139, R140, R144) -/

/-- The episode closes at the first freed slot: QUEUE_OVERFLOW_END takes the slot, unless source 240 is masked (R144). -/
def closeEpisode (h : Hub) (q : EvQueue) : Hub × EvQueue :=
  match q.episode with
  | none => (h, q)
  | some e =>
    let q := { q with episode := none }
    let was := h.ev.inflight
    let h := h.issue 240 1 (min 0xFFFF e.dropped) e.sources.length (min 0xFFFF (h.refMs - e.start))
    if h.ev.inflight.length = was.length then (h, q)
    else match h.ev.inflight.getLast? with
      | none => (h, q)
      | some r => enterRecord { h with ev := { h.ev with inflight := was } } q r

/-- A write of EVQ_HEAD, judged against the head and fill at the moment (R139). -/
def evRelease (h : Hub) (q : EvQueue) (w : Nat) : Hub × EvQueue :=
  let n := (BitVec.ofNat 16 w - q.head).toNat
  if n ≤ q.fill then
    let q := { q with entries := q.entries.drop n, head := BitVec.ofNat 16 w }
    if n = 0 then (h, q) else closeEpisode h q
  else (h.setFlag (spc 0x02 0x2600), q)

/-- A write of EVQ_HWM: the present fill (R147). -/
def EvQueue.hwmReset (q : EvQueue) : EvQueue := { q with hwm := q.fill }

/-! ### Attention (R146) -/

/-- The urgency cause. -/
def Hub.byUrg (h : Hub) (q : EvQueue) : Bool := q.entries.any fun w => decide (h.fld 0x1B 13 12 ≤ w.record.urg.toNat)

/-- The threshold cause. -/
def Hub.byThr (h : Hub) (q : EvQueue) : Bool := h.fld 0x1B 9 0 != 0 && decide (h.fld 0x1B 9 0 ≤ q.fill)

/-- The age cause. -/
def Hub.byAge (h : Hub) (q : EvQueue) : Bool :=
  h.fld 0x1C 7 0 != 0 && q.entries.head?.any fun w => decide (h.fld 0x1C 7 0 ≤ h.refMs - w.entered)

/-- The attention condition, which drives CP_ATTN and the ATTN bit of response headers. -/
def Hub.attention (h : Hub) (q : EvQueue) : Bool :=
  bit (h.reg 0x1B) 15 && (h.byUrg q || h.byThr q || h.byAge q || h.flag 0x1F)

/-- EVQ_STAT (R147). -/
def Hub.evqStat (h : Hub) (q : EvQueue) : Nat :=
  flagAt (h.attention q) 15 + flagAt (h.byUrg q) 14 + flagAt (h.byThr q) 13 + flagAt (h.byAge q) 12 + flagAt (h.flag 0x1F) 11 +
    flagAt q.episode.isSome 10

/-- A start or stop of the fabric, which changes the queue and the hub (R132, R591, R603). -/
def State.onFabric (s : State) (f : Hub → EvQueue → Hub × EvQueue) : Host.Outcome State Fault Refusal :=
  .next { s with hub := (f s.hub s.q).1, q := (f s.hub s.q).2 }

/-- A command that changes the queue and the hub while the fabric runs. -/
def State.onQ (s : State) (f : Hub → EvQueue → Hub × EvQueue) : Host.Outcome State Fault Refusal :=
  if s.live then s.onFabric f else .next s

end Sys2Proof.Machine
end

