-- ==== Sys2Proof/Machine/Scrub.lean ====
section
/-! DEFINITION. Scrub.lean: the scrubber: its walk over the on-chip memories and DRAM, corrections and errors (R529 to
R532). -/

namespace Sys2Proof.Machine

/-- A word of the scrubber in space 0x3F (R559). -/
def kScr (o : Nat) : Nat := spc 0x3F (0xC00 + o)

/-! ### The walk (R529) -/

/-- ECC units of one engine: program, X and Y memory and stage pages. -/
def engUnits : Nat := 32768 + 32768 + 16384 + 1024
/-- Units of the packet buffer, and of the classifier tables in spaces 0x08 and 0x09. -/
def bufUnits : Nat := 524288
def clsUnits : Nat := 524288 + 0x1260
/-- Units of all on-chip memories, and of DRAM. -/
def chipUnits : Nat := 16 * engUnits + bufUnits + clsUnits
def dramUnits : Nat := 896 * 2 ^ 20 / 8

/-- What an on-chip unit is: memory `mem` and address of a physical engine, a unit of the packet buffer, a word of the
classifier tables. -/
inductive ChipUnit where
  | engine (p mem a : Nat)
  | buffer (a : Nat)
  | table (a : Nat)

/-- The unit with a number. -/
def chipUnit (i : Nat) : ChipUnit :=
  if i < 16 * engUnits then
    let a := i % engUnits
    let p := i / engUnits
    if a < 32768 then .engine p 0 a else if a < 65536 then .engine p 1 (a - 32768)
    else if a < 81920 then .engine p 2 (a - 65536) else .engine p 3 (a - 81920)
  else if i < 16 * engUnits + bufUnits then .buffer (i - 16 * engUnits)
  else .table (i - 16 * engUnits - bufUnits)

/-- The key of a word of the classifier tables. -/
def tableKey (a : Nat) : Nat := if a < 524288 then spc 0x08 a else spc 0x09 (a - 524288)

/-! ### Findings (R530, R531) -/

/-- An address enters the UE log, newest first. -/
def Hub.ueLog (h : Hub) (a : Nat) : Hub :=
  let old := (List.range 15).map fun j => h.regN (kScr (0x10 + 2 * j)) 2
  let h := h.setRegN (kScr 0x10) 2 a
  iter 15 (fun j h => h.setRegN (kScr (0x12 + 2 * j)) 2 (lget 0 old j)) h

/-- Counters SCRCE, DRMCE, SCRUE, DRMUE. -/
def Hub.scrCount (h : Hub) (j : Nat) : Hub := h.addSat (kScr (4 + 2 * j)) 2 1

/-- A unit of another on-chip memory: 1 packet buffer, 2 classifier. -/
def Hub.chipFound (h : Hub) (mem a : Nat) : Ecc → Hub
  | .ok => h
  | .corrected _ => (h.scrCount 0).issueLimited 0 184 1 mem (a % 65536) (a / 65536)
  | .uncorrectable => (((h.scrCount 2).setFlag (kScr 0x30)).ueLog a).issue 184 2 mem (a % 65536) (a / 65536)

/-- A stored frame is lost as for an FCS failure. -/
def Hub.dropStored (h : Hub) (q i : Nat) : Hub :=
  let head := fun (hs : Tbl (Option Nat)) => if i = 0 then tmapv (fun _ => none) (fun x => if x = some q then none else x) hs else hs
  (({ h with net := { h.net with heads := head h.net.heads } }).modQueue q fun l => l.eraseIdx i)

/-- An on-chip unit is read. -/
def Hub.scrubChip (h : Hub) (u : ChipUnit) (c : Ecc) (use : ScrubUse) : Hub :=
  match u with
  | .engine p mem a =>
    if ! bit (h.reg (kPe p)) 13 then h
    else
      let n := h.fld (kPe p) 3 0
      let c := if (h.engine n).ue.contains (mem, a) then .uncorrectable else c
      let h := h.engEcc n mem a c false
      if c = .uncorrectable then h.ueLog a else h
  | .buffer a =>
    let h := h.chipFound 1 a c
    match c, use with
    | .uncorrectable, .frame q i => h.dropStored q i
    | _, _ => h
  | .table a =>
    let k := tableKey a
    let c := if h.net.clsBad.contains k then .uncorrectable else c
    let h := h.chipFound 2 a c
    if c = .uncorrectable ∧ ¬ h.net.clsBad.contains k then { h with net := { h.net with clsBad := h.net.clsBad ++ [k] } } else h

/-- How events name the region of a DRAM unit: 0 far, 1 restore (16 + engine where it is uncorrectable), 2 telemetry,
3 caption, 4 other. -/
def regionCode (u : Nat) (use : ScrubUse) (ue : Bool) : Nat :=
  if u < 768 * 2 ^ 20 / 8 then 0
  else match use with
    | .image n _ _ => if ue then 16 + n else 1
    | .record _ => 2
    | .pixels _ _ => 3
    | _ => 4

/-- The words of a restore image that one unit holds. -/
def imageUnit (mem a : Nat) : List (Nat × Nat) :=
  match mem with
  | 0 => [(0, a / 2 * 2), (0, a / 2 * 2 + 1)]
  | 1 => (List.range 4).map fun i => (1, a / 4 * 4 + i)
  | _ => [(2, a)]

/-- Words of a restore image in error load as zero and wait to be rewritten. -/
def Image.spoil (i : Image) (ws : List (Nat × Nat)) : Image :=
  let i := ws.foldl (fun i w => match w.1 with
    | 0 => { i with prog := tput (fun _ => 0) i.prog w.2 0 }
    | 1 => { i with y := tput (fun _ => 0) i.y w.2 0 }
    | _ => { i with regs := tput imageReset i.regs w.2 0 }) i
  { i with bad := i.bad.filter (fun w => !ws.contains w) ++ ws }

/-- What an uncorrectable DRAM unit does to what it holds. -/
def Hub.dramSpoil (h : Hub) (u : Nat) (use : ScrubUse) : Hub :=
  if u < 768 * 2 ^ 20 / 8 then h.markUe u
  else match use with
    | .image n mem a => h.modEng n fun e => { e with image := e.image.spoil (imageUnit mem a.toNat) }
    | .record s => iter 4 (fun w h => h.setReg (spc 0x31 (4 * s.toNat + w)) 0) h
    | .pixels page w => iter 4 (fun i h => h.setReg (spc 0x22 (0x800 * page.toNat + 4 * w + i)) 0) h
    | _ => h

/-- A DRAM unit is read. -/
def Hub.scrubDram (h : Hub) (u : Nat) (c : Ecc) (use : ScrubUse) : Hub :=
  let a := 8 * u
  match if h.dramUe.contains u then .uncorrectable else c with
  | .ok => h
  | .corrected _ =>
    let h := { h with scr := { h.scr with corr := h.scr.corr + 1 } }
    (h.scrCount 1).issueLimited 0 185 1 (a / 65536) (a % 65536) (regionCode u use false)
  | .uncorrectable =>
    let h := { h with scr := { h.scr with found := h.scr.found + 1 } }
    ((((h.scrCount 3).setFlag (kScr 0x30)).ueLog a).dramSpoil u use).issue 185 2 (a / 65536) (a % 65536) (regionCode u use true)

/-- The scrubber reads its next unit; a pass ends with the last one (R530, R532). A correction is written back only if no
other agent has written the word, and leaves its value in either case. A stalled read of DRAM finds nothing (R53). -/
def Hub.scrubRead (h : Hub) (dram : Bool) (c : Ecc) (use : ScrubUse) : Hub :=
  if ! bit (h.reg 0x68) 15 then h
  else if dram then
    let (h, lost) := h.stallTaken 7 0 184
    let h := if lost then h else h.scrubDram h.scr.dram c use
    if h.scr.dram + 1 < dramUnits then { h with scr := { h.scr with dram := h.scr.dram + 1 } }
    else
      let h := h.addSat (kScr 2) 2 1
      let h := h.issue 185 3 (h.reg (kScr 2)) (satN 65535 ((h.refMs - h.scr.start) / 1000)) (satN 65535 h.scr.found)
      { h with scr := { h.scr with dram := 0, found := 0, start := h.refMs } }
  else
    let h := h.scrubChip (chipUnit h.scr.chip) c use
    if h.scr.chip + 1 < chipUnits then { h with scr := { h.scr with chip := h.scr.chip + 1 } }
    else ({ h with scr := { h.scr with chip := 0 } }).addSat (kScr 0) 2 1

/-- RESTBAD (R531, R559). -/
def Hub.restBad (h : Hub) : Nat := ((List.range 16).map fun n => flagAt (!(h.engine n).image.bad.isEmpty) n).sum

end Sys2Proof.Machine
end

