-- ==== Sys2Proof/Machine/RegRead.lean ====
section
/-! DEFINITION. RegRead.lean: what every register word reads as: the stored value, or the value that hardware gives
(R15, R16, R114, R122), and the snapshot of fields of several words (R9, R113). -/

namespace Sys2Proof.Machine

/-! ### Direct registers -/

/-- A summary over the logical engines: bit n for SEn. -/
def engSum (f : Nat → Bool) : Nat := ((List.range 16).map fun n => flagAt (f n) n).sum

/-- SYS_UPTIME: whole seconds of reference time since step 3 (R607). -/
def Hub.uptime (h : Hub) : Nat := if h.pwr.running then (h.refMs - h.pwr.startMs) / 1000 else 0

/-- The lanes that work (R403, R620). -/
def Hub.lanesOk (h : Hub) : Nat := ((List.range 4).map fun l => flagAt (!(h.lane l).failed) l).sum

/-- SYS_HEALTH (R620). SUBST holds from the declaration on (R609 step 1). DESIGN CHOICE (log 144): an engine reserved for spares that
has given its physical engine away (R169) does not count as lost. -/
def Hub.health (h : Hub) : Nat :=
  16384 * (b2n (h.spareThere 0) + b2n (h.spareThere 1)) +
    flagAt (h.sub.active.isSome || !h.sub.waiting.isEmpty) 13 +
    flagAt ((List.range 16).any fun n => !h.reserved n && !h.hasPe n) 12 + 256 * h.lanesOk + (if h.isL then 0 else h.ampIso % 256)

/-- CLS_STAT (R363). -/
def Hub.clsStat (h : Hub) : Nat :=
  flagAt (h.flag (kCls 0x120)) 15 + flagAt (h.flag (kCls 0x121)) 14 + flagAt (h.flag (kCls 0x122)) 13 +
    flagAt (bit (h.reg (kCls 0x11E)) 15) 12 + h.flying

/-- STR_STAT (R403). -/
def Hub.strStat (h : Hub) : Nat :=
  flagAt ((List.range 16).any fun n => (h.engine n).tags.any fun t => t.pending) 15 +
    ((List.range 256).filter fun c => bit (h.strCtl c) 15).length

/-- AIO_INSTAT (R463). -/
def Hub.inStat (h : Hub) : Nat :=
  ((List.range 8).map fun n => flagAt (h.adc n).clip (8 + n) + flagAt (h.adc n).biasf n).sum

/-- AIO_TLSTAT (R463). Whether a carrier is present on the line is open. -/
def Hub.tlStat (h : Hub) : Nat :=
  putBits (h.reg 0x4B) 14 2 0 / 4 * 4 + 256 * (h.freeVal % 4 &&& h.fld 0x4A 9 8) +
    flagAt (h.tl 1).tx.isSome 1 + flagAt (h.tl 0).tx.isSome 0

/-- The direct registers whose bits of channels or pairs the VH-8L does not have (R449). -/
def ampMask (a : Nat) : Nat := if a = 0x4E ∨ a = 0x4F ∨ a = 0x50 then 0x0F else if 0x51 ≤ a ∧ a ≤ 0x53 then 0 else 0xFFFF

/-- A direct register below 0x40; the window bank is the control port's (R124). -/
def Hub.readLow (h : Hub) (q : EvQueue) (path a : Nat) : Nat :=
  match a with
  | 0x01 => Config.sysVer.toNat
  | 0x04 => h.reg 0x04
  | 0x05 => h.uptime % 65536
  | 0x06 => h.uptime / 65536 % 65536
  | 0x0F => flagAt (h.owner == path) 1 + path
  | 0x18 => q.fill
  | 0x19 => q.head.toNat
  | 0x1A => q.tail.toNat
  | 0x1D => h.evqStat q
  | 0x1E => q.hwm
  | 0x20 => engSum fun n => (h.engine n).run.spen
  | 0x21 => engSum h.bgBusy
  | 0x22 => engSum fun n => (h.engine n).st != .normal
  | 0x24 => engSum h.reserved
  | 0x25 => engSum fun n => h.flag (kSe n 0x110)
  | 0x26 => engSum fun n => (h.engine n).halt != 0
  | 0x28 => h.clStat
  | 0x29 => (Config.version 0).toNat
  | 0x2A => h.inflight
  | 0x2B => h.quotaSum
  | 0x2C => engSum fun n => h.flag (kDmu n 6)
  | 0x2D => engSum fun n => h.flag (kDmu n 7)
  | 0x2E => engSum fun n => h.flag (kSe n 2)
  | 0x30 => h.cksStat
  | 0x32 => h.cksDomEn
  | 0x33 => h.cksHop
  | 0x36 => h.stamp.toNat % 65536
  | 0x37 => h.flagSum (kCksFlag 0) 5
  | 0x3B => h.flagSum (kNet 0x630) 4
  | 0x3D => h.clsStat
  | 0x3E => 4096 * h.lanesOk + (8192 - h.poolUsed) / 4
  | 0x3F => h.strStat
  | _ => h.reg a

/-- A direct register from 0x40 on. -/
def Hub.readHigh (h : Hub) (a : Nat) : Nat :=
  match a with
  | 0x40 => h.aesIstat 0
  | 0x41 => h.aesIstat 1
  | 0x44 => putBits (h.reg 0x44) 9 8 (h.aoutClk 0).dom
  | 0x45 => putBits (h.reg 0x45) 9 8 (h.aoutClk 1).dom
  | 0x46 => flagAt (h.aout 1).run 1 + flagAt (h.aout 0).run 0
  | 0x47 =>
    let two := fun j => h.flag (kAesFlag (2 * j)) || h.flag (kAesFlag (2 * j + 1))
    ((List.range 4).map fun j => flagAt (two j) j).sum + flagAt (h.flag (kAesFlag 8)) 4
  | 0x49 => h.inStat
  | 0x4B => h.tlStat
  | 0x4D => h.flagSum (kAioFlag 0) 9
  | 0x50 => h.ampRun
  | 0x51 => h.ampIso
  | 0x58 => h.liveXps.length
  | 0x59 => ((List.range 4).map fun d => flagAt (h.emergency d) d).sum
  | 0x5B => h.flagSum (kRtm 0xB000) 3
  | 0x5D => h.calStat
  | 0x5F => h.flagSum (kCal 0x800) 5
  | 0x61 => h.capStat
  | 0x67 => h.flagSum (kCapFlag 0) 3
  | 0x69 => h.carStat
  | 0x6B => h.logStat
  | 0x6D =>
    flagAt (h.flag (kScr 0x30)) 0 + flagAt (h.flag (kCar 0x1310) || h.flag (kCar 0x1312)) 1 + flagAt (h.flag (kCar 0x1311)) 2 +
      flagAt (h.flag (spc 0x31 0x400142)) 3 + flagAt (h.restBad != 0) 4
  | 0x70 => h.otpStat
  | 0x73 => h.flagSum (kOtp 0x1310) 3
  | 0x74 => h.pwrStat
  | 0x77 => h.flagSum (spc 0x3F 0xD20) 4
  | 0x78 => h.health
  | _ => h.reg a

/-- A direct register as a path reads it, but for the window bank. -/
def Hub.readDirect (h : Hub) (q : EvQueue) (path a : Nat) : Nat :=
  if a < 0x40 then h.readLow q path a
  else if h.isL then h.readHigh a &&& ampMask a
  else h.readHigh a

/-! ### Indirect spaces -/

/-- SE_STAT (R179). -/
def Hub.seStat (h : Hub) (n : Nat) : Nat :=
  let e := h.engine n
  let st := match e.st with
    | .failing => 3
    | .failed => 4
    | .substituting => 5
    | .normal => if h.reserved n then 2 else b2n e.run.spen
  8192 * st + flagAt e.run.inprog 12 + flagAt (h.bgBusy n) 11 + 256 * e.halt

/-- SE_CSTAT (R280). -/
def Hub.cStat (h : Hub) (n : Nat) : Nat :=
  match (h.engine n).commit with
  | some w => 0x8000 + (w.toNat &&& 0x1F)
  | none => 0

/-- A control word of a logical engine's space at 0x4_0000 or above (R57, R179, R259, R280). -/
def Hub.readSe (h : Hub) (n o : Nat) : Nat :=
  let e := h.engine n
  match o with
  | 0x40005 => flagAt (e.run.inprog && !e.run.recent) 5 + flagAt e.run.pend 4 + min 15 e.run.misses
  | 0x40104 => h.seStat n
  | 0x40105 => e.fore.pc
  | 0x40140 => e.shadow.latch.toNat
  | 0x40141 => e.fore.latch.toNat
  | 0x40143 => 4096 * e.fore.depth + 256 * e.shadow.depth + 16 * e.fore.wait + e.shadow.wait
  | 0x51006 => h.cStat n
  | _ =>
    if 0x51000 ≤ o ∧ o < 0x51004 then putBits (h.reg (eng n o)) 14 14 (b2n (e.commit.any fun w => w.getLsbD (o % 4)))
    else h.reg (eng n o)

/-- The fragment-table words (R365). -/
def Hub.readFrag (h : Hub) (f w : Nat) : Nat :=
  match h.frag f with
  | none => 0
  | some e =>
    if w = 0 then 0x8000 + flagAt e.v6 14 + flagAt e.total.isSome 13
    else if w < 3 then e.ident / 65536 ^ (w - 1) % 65536
    else if w = 3 then e.seen % 65536
    else if w = 4 then e.total.getD 0 % 65536
    else if w < 9 then e.action / 65536 ^ (w - 5) % 65536
    else if w = 9 then min 65535 (h.refMs - e.latest)
    else 0

/-- A word of a stream context (R405). -/
def Hub.readStr (h : Hub) (c o : Nat) : Nat :=
  if o = 0x70 then
    let x := h.ctxOf c
    flagAt x.run 15 + flagAt x.tsKnown 14 + flagAt x.keyv 13 +
      flagAt (x.frames.any fun r => r.poured && r.res.isNone) 12
  else h.reg (str c o)

/-- A word of space 0x3F (R58, R89, R181, R329, R464, R559, R608). What the amplifiers measure from PHASE 5 on, with their rail
switched on, and what a field output that is on carries are open; one that is off passes no more than 0.1 mA (R458). -/
def Hub.read3F (h : Hub) (o : Nat) : Nat :=
  let amp := (o - 0x880) % 16
  if 0x880 ≤ o ∧ o < 0x900 then
    if h.isL ∧ (0x8C0 ≤ o ∨ ¬ (amp < 4)) then 0
    else if 3 ≤ amp ∧ amp < 6 then (if 5 ≤ h.phase then h.freeVal % 65536 else 0)
    else if h.isL ∧ amp = 1 then h.fld (spc 0x3F o) 2 0
    else h.reg (spc 0x3F o)
  else if 0xB40 ≤ o ∧ o < 0xB60 ∧ o % 4 = 1 then (if (h.fieldOut ((o - 0xB40) / 4)).on then h.freeVal % 65536 else 0)
  else if 0x600 ≤ o ∧ o < 0x605 then (if h.pwr.running then ptpField h.ptpNow / 65536 ^ (o - 0x600) % 65536 else 0)
  else if o = 0xC0C then h.restBad
  else h.reg (spc 0x3F o)

/-- A word of the route matrix's space (R482). -/
def Hub.read20 (h : Hub) (o : Nat) : Nat :=
  if 0x400 ≤ o ∧ o < 0x600 then
    if h.isSink (o - 0x400) then peakCode (tget (fun _ => []) h.rtm.peak (o - 0x400))
    else peakCode ((tget (fun _ => []) h.rtm.env (o - 0x400)).filter fun e => decide (e.1 < h.ticksOf (h.slotDom (o - 0x400)) 100))
  else if 0x1000 ≤ o ∧ o < 0x9000 then
    let w := o % 8
    if 4 ≤ w ∧ w < 7 then h.xpRead ((o - 0x1000) / 8) w else h.reg (kRtm o)
  else if 0x9000 ≤ o ∧ o < 0xB000 then
    let s := (o - 0x9000) / 16
    let w := o % 16
    if ! h.isSink s then 0 else if w = 6 ∨ (8 ≤ w ∧ w < 11) then h.snkRead s w else h.reg (kRtm o)
  else if 0xB010 ≤ o ∧ o < 0xB014 then (h.slots.filter fun s => h.slotDom s == o - 0xB010).length
  else h.reg (kRtm o)

/-- A word of live calibration's space (R492, R505). -/
def Hub.read21 (h : Hub) (o : Nat) : Nat :=
  if 0x100 ≤ o ∧ o < 0x200 then
    if h.isL then 0
    else if bit ((o - 0x100) / 32) 0 ∧ h.bridged ((o - 0x100) / 32) ∧ o % 32 < 8 then 0xFFFF
    else h.reg (kCal o)
  else h.reg (kCal o)

/-- A word of space 0x0A (R404). -/
def Hub.read0A (h : Hub) (o : Nat) : Nat :=
  if o < 0x1000 then (if o % 4 = 3 then min 1023 (h.queue (o / 4)).length else h.reg (kQue o))
  else if 0x3290 ≤ o ∧ o < 0x3294 then
    let l := h.lane (o - 0x3290)
    flagAt l.failed 15 + l.held.length
  else if 0x4000 ≤ o ∧ o < 0xC000 then h.ringWord ((o - 0x4000) / 0x800) (o % 0x800)
  else if 0xC000 ≤ o ∧ o < 0x10000 ∧ o % 0x400 = 0 then flagAt (h.txBusy ((o - 0xC000) / 0x400)).isSome 15
  else h.reg (kQue o)

/-- A word of a reference (R89). What the reference measures, and how far its qualification is, is open between the
events that report it. -/
def Hub.readRef (h : Hub) (r w : Nat) : Nat :=
  if w = 0 ∨ h.refState r = 0 then h.reg (kRef r w)
  else if w = 3 then (if h.refState r = 1 then h.freeVal % (h.reg (kRef r 3) + 1) else h.reg (kRef r 3))
  else h.freeVal % 65536

/-- A word of an indirect space but for the memories, which ECC protects (R115). FOFS of a core that is steered is open within
the ±250 ppm of R60. DESIGN CHOICE (log 131): RUN of a clock output reads 0 while it completes its last high phase. -/
def Hub.readSpace (h : Hub) (q : EvQueue) (sp o : Nat) : Nat :=
  match sp with
  | 0x01 =>
    if o < 0x1000 then (if o % 64 < 34 then h.otpRead (o / 256) (o / 64 % 4) (o % 64) else 0) else h.reg (spc 0x01 o)
  | 0x02 =>
    if o < 0x2000 then q.recordWord o
    else if 0x2500 ≤ o ∧ o < 0x2600 then (tget (fun _ => (0 : Word)) h.ev.seq (o - 0x2500)).toNat
    else h.reg (spc 0x02 o)
  | 0x09 => if 0xA00 ≤ o ∧ o < 0x1200 then h.readFrag ((o - 0xA00) / 16) (o % 16) else h.reg (kCls o)
  | 0x0A => h.read0A o
  | 0x0B =>
    if o < 0x10000 then h.readStr (o / 256) (o % 256)
    else if o < 0x10100 then
      let e := h.engine ((o - 0x10000) / 16)
      match o % 16 with
      | 0 => e.park.length
      | 1 => ((List.range 4).map fun t => flagAt (e.tags.get {} t).pending t).sum
      | _ => h.reg (spc 0x0B o)
    else h.reg (spc 0x0B o)
  | 0x0C =>
    let n := (o - 0x40000000) / 0x40
    if 0x40000000 ≤ o ∧ n < 16 then
      match o % 0x40 with
      | 0 => ((h.staged (spc 0x0C o)).map (·.toNat)).getD (h.reg (spc 0x0C o))
      | 3 => min 0xFFFF (h.allowance n)
      | 5 => 64 * (h.engine n).infl.length + (h.engine n).farq.length
      | _ => h.reg (spc 0x0C o)
    else h.reg (spc 0x0C o)
  | 0x20 => h.read20 o
  | 0x21 => h.read21 o
  | 0x22 =>
    if o = 0x80201 ∨ o = 0x80211 then h.fcnt ((o - 0x80201) / 16)
    else h.reg (kCap o)
  | 0x24 =>
    if 0x200 ≤ o ∧ o < 0x220 ∧ o % 8 < 5 then h.domWord ((o - 0x200) / 8) (o % 8)
    else if o = 0x240 then h.coreWord 0
    else if o = 0x248 then h.coreWord 1
    else if 0x100 ≤ o ∧ o < 0x120 ∧ o % 4 = 3 then b2n (h.clko ((o - 0x100) / 4)).run
    else if o = 0x274 then h.cksStop
    else if 0x220 ≤ o ∧ o < 0x22C then h.readRef ((o - 0x220) / 4) (o % 4)
    else if o = 0x241 ∨ o = 0x249 then (if [CoreSt.track, .slew].contains (h.core ((o - 0x240) / 8)).st then wordOf (((h.freeVal % 64001 : Nat) : Int) - 32000) else h.reg (spc 0x24 o))
    else if o = 0x243 ∨ o = 0x24B then (if (h.core ((o - 0x240) / 8)).st = .slew then h.freeVal % 65536 else h.reg (spc 0x24 o))
    else h.reg (spc 0x24 o)
  | 0x30 =>
    if h.nand.avail ≠ some true then h.reg (kCar o)
    else if 0x1100 ≤ o ∧ o < 0x1128 ∧ o % 8 < 5 then h.nand.partWord ((o - 0x1100) / 8) (o % 8)
    else if o = 0x1303 then h.nand.retain % 65536
    else if o = 0x1304 then h.nand.retain / 65536 % 65536
    else h.reg (kCar o)
  | 0x3F => h.read3F o
  | _ => h.reg (spc sp o)

/-- Is a space one of R115. -/
def spaceKnown (sp : Nat) : Bool :=
  [0x01, 0x02, 0x08, 0x09, 0x0A, 0x0B, 0x0C, 0x20, 0x21, 0x22, 0x24, 0x25, 0x30, 0x31, 0x3F].contains sp || (decide (16 ≤ sp) && decide (sp < 32))

/-- A word of the hub that is no ECC-protected memory: a space's word, or a direct register for space 0. -/
def Hub.readWord (h : Hub) (q : EvQueue) (path sp o : Nat) : Nat :=
  if sp = 0 then h.readDirect q path o
  else if 16 ≤ sp ∧ sp < 32 then (if h.reserved (sp - 16) ∧ o ≠ 0x40104 then 0 else h.readSe (sp - 16) o)
  else h.readSpace q sp o

end Sys2Proof.Machine
end

