-- ==== Sys2Proof/Machine/RegBus.lean ====
section
/-! DEFINITION. RegBus.lean: reads and writes of registers and memories by address: what a write of each word does, by
the operation of the block that owns it (R9, R15, R17, R112 to R119, R617, R646). -/

namespace Sys2Proof.Machine

/-! ### Reads -/

/-- Words that their chapter joins into one field (R341, R358, R365, R418, R420, R425, R443, R466, R468, R486, R502, R519):
space, first offset, count, stride, words. -/
def joined : List (Nat × Nat × Nat × Nat × Nat) :=
  [(0x08, 0x14, 16384, 32, 4), (0x09, 0x100, 2, 4, 4), (0x20, 0, 512, 2, 2), (0x20, 0x1000, 4096, 8, 4), (0x09, 0, 8, 16, 16), (0x09, 0x80, 16, 2, 2), (0x09, 0xC0, 16, 4, 3),
   (0x09, 0x200, 64, 32, 17), (0x21, 0, 8, 16, 5), (0x21, 5, 8, 16, 5), (0x21, 0x100, 8, 32, 14), (0x21, 0x200, 64, 16, 6),
   (0x21, 0x600, 8, 16, 4), (0x22, 0x80000, 64, 4, 3), (0x25, 0x40, 4, 16, 12), (0x25, 0x140, 4, 16, 12), (0x25, 0x240, 4, 16, 12),
   (0x25, 0x340, 4, 16, 12), (0x3F, 0x980, 2, 0x40, 34)]

/-- The first word and the number of words of the field that a word belongs to (R9, R113). A line's baseline and tolerance
stand alone between the words of its result (R505). -/
def fieldOf (sp o : Nat) : Nat × Nat :=
  if sp = 0x21 ∧ 0x100 ≤ o ∧ o < 0x200 ∧ (o % 32 = 9 ∨ o % 32 = 10) then (o, 1)
  else match joined.find? fun (p, b, n, st, w) => p == sp && decide (b ≤ o) && decide ((o - b) / st < n) && decide ((o - b) % st < w) with
    | some (_, b, _, st, w) => (o - (o - b) % st, w)
    | none =>
      match findRow (regRows sp) o with
      | none => (o, 1)
      | some r => (o - r.word o % r.fw, r.fw)

/-- Is the word write-only. -/
def isWo (sp o : Nat) : Bool := (findRow (regRows sp) o).any fun r => r.acc == .wo

/-- Words whose readings are open (Machine/RegRead.lean). -/
def readsFree (sp o : Nat) : Bool :=
  (sp == 0 && (o == 0x4B || o == 0x70 || o == 0x74)) || (sp == 0x01 && decide (o < 0x1000)) ||
    (sp == 0x24 && decide (0x220 ≤ o) && decide (o < 0x250)) ||
    (sp == 0x3F && ((decide (0x600 ≤ o) && decide (o < 0x605)) || (decide (0x880 ≤ o) && decide (o < 0x900)) || (decide (0xB40 ≤ o) && decide (o < 0xB60))))

/-- A register word read: the lowest word of a field takes a snapshot of the whole field, its other words return the
snapshot (R9, R113). -/
def Hub.readSnap (h : Hub) (q : EvQueue) (path sp o : Nat) : Hub × Nat :=
  let (f, n) := fieldOf sp o
  let v := if isWo sp o then 0 else h.readWord q path sp o
  let h' := if readsFree sp o then h.tookFree else h
  if n ≤ 1 then (h', v)
  else if o ≠ f then (h, (tget resetWord h.snap (spc sp o)).toNat)
  else
    (iter n (fun i x => { x with snap := tput resetWord x.snap (spc sp (f + i)) (BitVec.ofNat 16 (h.readWord q path sp (f + i))) }) h', v)

/-- A DRAM-window read (R303). -/
def Hub.dramRead (h : Hub) (o : Nat) (c : Ecc) : Hub × Nat :=
  if 0x17FFFFFF < o then (h.failWin 3 o, 0)
  else if h.dramUe.contains (o / 4) ∨ c = .uncorrectable then
    (((h.markUe (o / 4)).issueLimited 0x10000 16 5 0x8001 (o / 65536) (o % 65536)).failWin 3 o, 0)
  else (h, h.dramWord o)

/-- A DRAM-window write; in a unit with an uncorrectable error it reports the error and clears it (R297, R303). -/
def Hub.dramWrite (h : Hub) (o w : Nat) : Hub :=
  if 0x17FFFFFF < o then h.failWin 3 o
  else
    let h := if h.dramUe.contains (o / 4) then h.issueLimited 0x10000 16 5 0x8001 (o / 65536) (o % 65536) else h
    h.writeDram o [BitVec.ofNat 16 w]

/-- A word of a logical engine's memories and banks read (R178, R180, R260 to R264). -/
def Hub.engMemRead (h : Hub) (n o : Nat) (c : Ecc) : Hub × Nat :=
  if o < 0x10000 then
    if o % 2 = 1 then (h, (tget resetWord h.snap (eng n o)).toNat)
    else
      let (h, v) := h.memRead n 0 (o / 2) o c
      let hi := if (h.engine n).ue.contains (0, o / 2) then 0 else ((h.engine n).progWord (o / 2)).toNat / 65536
      ({ h with snap := tput resetWord h.snap (eng n (o + 1)) (BitVec.ofNat 16 hi) }, v)
  else if o < 0x18000 then h.memRead n 1 (o - 0x10000) o c
  else if 0x20000 ≤ o ∧ o < 0x24000 then h.memRead n 2 (o - 0x20000) o c
  else if 0x50000 ≤ o ∧ o < 0x50400 then h.memRead n 3 (o - 0x50000) o c
  else if (0x30000 ≤ o ∧ o < 0x30058) ∨ (0x30080 ≤ o ∧ o < 0x300D8) then
    if ! h.stopped n then (h.failWin 3 o, 0) else (h, (h.bank n (decide (0x30080 ≤ o))).viewRead (o % 0x80))
  else (h, 0)

/-- A word read at the window or, for space 0, directly (R112, R116). A space that is not listed fails. -/
def Hub.busRead (h : Hub) (q : EvQueue) (path sp o : Nat) (c : Ecc) : Hub × Nat :=
  if sp ≠ 0 ∧ ! spaceKnown sp then (h.failWin 1 o, 0)
  else if 16 ≤ sp ∧ sp < 32 ∧ (o < 0x40000 ∨ (0x50000 ≤ o ∧ o < 0x50400)) then
    if h.reserved (sp - 16) then (h, 0) else h.engMemRead (sp - 16) o c
  else if sp = 0x0C ∧ o < 0x40000000 then h.dramRead o c
  else h.readSnap q path sp o

/-! ### Plain writes -/

/-- A plain RW word: stored, and the field is in force when its highest word is written (R9, R646). -/
def Hub.plain (h : Hub) (sp o w : Nat) : Hub :=
  let (f, n) := fieldOf sp o
  let h := h.store sp o w
  if o + 1 = f + n then h.enforceN (spc sp f) n else h

/-- A word of a counter that a write of 0 clears: lower words are held until the highest is written; other values are
ignored. -/
def Hub.clearCnt (h : Hub) (sp o w : Nat) : Hub :=
  let (f, n) := fieldOf sp o
  if o + 1 ≠ f + n then h.hold (spc sp o) w
  else
    let low := (List.range (n - 1)).all fun i => ((h.staged (spc sp (f + i))).map (·.toNat)).getD (h.reg (spc sp (f + i))) == 0
    let h := iter n (fun i h => h.unstage (spc sp (f + i))) h
    if low && w == 0 then h.setRegN (spc sp f) n 0 else h

/-- Fields that fill a word and have a stated range; a value outside it is ignored (R617): space, first offset, count,
stride, least and greatest value. -/
def ranges : List (Nat × Nat × Nat × Nat × Nat × Nat) :=
  [(0x3F, 0x102, 1, 1, 1, 31), (0x3F, 0x120, 1, 1, 2, 255), (0x3F, 0x588, 1, 1, 50, 10000), (0x3F, 0x589, 1, 1, 1, 1000),
   (0x3F, 0x58A, 1, 1, 0, 10), (0x3F, 0x882, 8, 16, 1, 100), (0x3F, 0x902, 2, 16, 0, 20), (0x3F, 0x903, 2, 16, 6, 40),
   (0x3F, 0xB40, 8, 4, 0, 2), (0x3F, 0xD0D, 1, 1, 60, 100), (0x24, 0x270, 1, 1, 1, 200), (0x24, 0x271, 1, 1, 1, 64),
   (0x24, 0x272, 1, 1, 0, 2), (0x09, 0x115, 1, 1, 1, 1000), (0x0A, 2, 1024, 4, 1, 1023), (0x0B, 2, 256, 256, 1, 192),
   (0x0B, 7, 256, 256, 0, 5), (0x0B, 8, 256, 256, 1, 8191), (0x0B, 0xB, 256, 256, 2, 30), (0x0B, 0xC, 256, 256, 1, 255),
   (0x0B, 0xF, 256, 256, 42, 96), (0x20, 0x9001, 512, 16, 1, 255), (0x20, 0x9002, 512, 16, 1, 255), (0x20, 0x9003, 512, 16, 1, 255),
   (0x20, 0x9004, 512, 16, 1, 255), (0x20, 0x9007, 512, 16, 1, 255), (0x21, 3, 8, 16, 0, 200), (0x21, 4, 8, 16, 0, 240),
   (0x21, 0x10A, 8, 32, 1, 100), (0x21, 0x608, 8, 16, 10, 3600), (0x21, 0x700, 1, 1, 100, 950), (0x31, 0x400101, 1, 1, 1, 128),
   (0x31, 0x400011, 64, 2, 0, 3600), (0x31, 0x400102, 1, 1, 10, 10000), (0x01, 0x1000, 1, 1, 0, 2)]

/-- Is a value outside the stated range of its field. -/
def outOfRange (sp o w : Nat) : Bool :=
  ranges.any fun (s, b, n, st, lo, hi) =>
    s == sp && decide (b ≤ o) && (o - b) % st == 0 && decide ((o - b) / st < n) &&
      (let v := match findRow (regRows sp) o with | some r => w &&& r.wmask | none => w
       decide (v < lo) || decide (hi < v))

/-- A plain word unless its value is outside the stated range. -/
def Hub.ranged (h : Hub) (sp o w : Nat) : Hub := if outOfRange sp o w then h else h.plain sp o w

/-- A word that may be written only while a condition holds; else the write fails with cause 3. -/
def Hub.gated (h : Hub) (ok : Bool) (sp o w : Nat) : Hub := if ok then h.ranged sp o w else h.failWin 3 o

/-- Word `a` of the stage pages written: fresh check bits; it fails while its page is busy or in a pending commit (R260,
R266). -/
def Hub.stageWrite (h : Hub) (n a o w : Nat) : Hub :=
  let ok := !h.stageHeld n (a / 256)
  (if ok then h.modEng n fun e => { e with ue := e.ue.filter fun m => m != (3, a) } else h).gated ok (16 + n) o w

/-! ### Direct registers -/

/-- A write of BGS_ASC: CEIL above 36 and MODE 3 are ignored (R45, R56). -/
def Hub.ascWrite (h : Hub) (w : Nat) : Hub :=
  let h := h.setFld 0x6F 7 2 (bits w 7 2)
  let h := if 36 < bits w 13 8 then h else h.setFld 0x6F 13 8 (bits w 13 8)
  let h := if bits w 1 0 = 3 then h else h.setFld 0x6F 1 0 (bits w 1 0)
  h.setCode (h.reg 0x6E)

/-- A write of CKS_DOMCFG: every domain whose field differs (R79). -/
def Hub.domCfg (h : Hub) (w : Nat) : Hub :=
  iter 4 (fun d h => if bits w (4 * d + 3) (4 * d) = h.fld 0x31 (4 * d + 3) (4 * d) then h else h.domRebind d (bits w (4 * d + 3) (4 * d))) h

/-- A write of CKS_DOMEN: every domain whose bit differs; bit 0 reads 1 (R80, R88). -/
def Hub.domEn (h : Hub) (w : Nat) : Hub :=
  iter 4 (fun d h => if d = 0 ∨ bit w d = bit (h.reg 0x32) d then h else if bit w d then h.domEnable d else h.domDisable d) h

/-- A write of CKS_HOP (R77). -/
def Hub.hopWrite (h : Hub) (w : Nat) : Hub := (h.hopRequest 0 (bits w 2 0) (bit w 3)).hopRequest 1 (bits w 6 4) (bit w 7)

/-- A write of CKS_QUAL (R88). -/
def Hub.qualWrite (h : Hub) (w : Nat) : Hub :=
  let h := if bits w 15 8 = 0 ∨ 100 < bits w 15 8 then h else h.setFld 0x35 15 8 (bits w 15 8)
  if bits w 7 0 = 0 then h else h.setFld 0x35 7 0 (bits w 7 0)

/-- A write of AMP_EN: each channel whose bit differs; what its potential check senses is open (R446). -/
def Hub.ampEnWrite (h : Hub) (w : Nat) : Hub :=
  iter (if h.isL then 4 else 8) (fun n h =>
    if bit w n = bit (h.reg 0x4E) n then h
    else if bit w n then let (h, m) := h.freeSense; h.ampEnable n m
    else h.ampDisable n) h

/-- A write of AMP_REEN; what the potential checks sense is open (R451). -/
def Hub.reenWrite (h : Hub) (w : Nat) : Hub :=
  let (h, ms) := iter 8 (fun _ (p : Hub × List Sense) => let (h, m) := p.1.freeSense; (h, p.2 ++ [m])) (h, [])
  h.ampReenable w ms

/-- A write of a direct register below 0x40 but for those of the control port and the event queue. -/
def Hub.writeLow (h : Hub) (a w : Nat) : Hub :=
  match a with
  | 0x07 => h.chimeCmd w
  | 0x08 => if w = 0xD1A5 then { h with cp := { h.cp with resetPending := true } } else h
  | 0x23 => h.spareReserve w
  | 0x31 => h.domCfg w
  | 0x32 => h.domEn w
  | 0x33 => h.hopWrite w
  | 0x35 => h.qualWrite w
  | 0x39 => h.netCtl w
  | _ => h.ranged 0 a w

/-- A write of a direct register from 0x40 on. -/
def Hub.writeHigh (h : Hub) (a w : Nat) : Hub :=
  match a with
  | 0x42 => h.icfgWrite 0 w
  | 0x43 => h.icfgWrite 1 w
  | 0x44 => h.ocfgWrite 0 w
  | 0x45 => h.ocfgWrite 1 w
  | 0x48 => h.inenWrite (w % 256)
  | 0x4A => h.tlctlWrite w
  | 0x4C => h.cdcCommand w
  | 0x4E => h.ampEnWrite w
  | 0x4F => iter (if h.isL then 4 else 8) (fun n h => if bit w n = bit (h.reg 0x4F) n then h else h.ampMute n (bit w n)) h
  | 0x52 => if h.isL then h else h.bridgeWrite (w % 16)
  | 0x53 => if h.isL then h else h.reenWrite w
  | 0x56 => h.foutWrite (w % 256)
  | 0x5A => h.sceneGo w
  | 0x5C => h.calCtl w
  | 0x5E => h.calForce w
  | 0x60 => h.capCtl w
  | 0x64 => h.modeRequest 0 (w % 16)
  | 0x65 => h.modeRequest 1 (w % 16)
  | 0x66 => h.pageSelect w
  | 0x68 => h.setReg 0x68 (putBits (if bits w 3 0 = 0 ∨ 8 < bits w 3 0 then h.reg 0x68 else bits w 3 0) 15 15 (bits w 15 15))
  | 0x6A => h.logCtl w
  | 0x6C =>
    let q := h.fld (spc 0x31 0x400100) 9 0
    let len := h.reg (spc 0x31 0x400103)
    if bit w 14 ∧ (h.qKind q ≠ 1 ∨ len < 42 ∨ 96 < len ∨ len % 2 = 1) then h.failWin 3 0x6C else h.setReg 0x6C (w &&& 0xC000)
  | 0x6F => h.ascWrite w
  | 0x71 => h.roastRequest w
  | _ => h.ranged 0 a w

/-! ### Logical engine spaces -/

/-- A write of SE_DLCFG: POLICY 3 and RUNLEN 0 leave their field (R52). -/
def Hub.dlcfgWrite (h : Hub) (n w : Nat) : Hub :=
  let k := kSe n 0
  let h := h.setFld k 8 8 (bits w 8 8)
  let h := if bits w 7 4 = 0 then h else h.setFld k 7 4 (bits w 7 4)
  if bits w 1 0 = 3 then h else h.setFld k 1 0 (bits w 1 0)

/-- Is a commit with PROG 1 pending (R280). -/
def Hub.progPending (h : Hub) (n : Nat) : Bool := (h.engine n).commit.any fun w => w.getLsbD 4

/-- A control word of a logical engine's space written (R57, R179, R259, R280). A ramp of 0, an exponent of 0 and a check
count outside 1 to 32,768 are ignored (R273, R280, R617). -/
def Hub.writeSe (h : Hub) (n o w : Nat) : Hub :=
  match o with
  | 0x40000 => h.dlcfgWrite n w
  | 0x40001 => h.plenWrite n (w % 0x4000)
  | 0x40007 => h.slackMinReset n
  | 0x40100 => h.ctlHost n w
  | 0x40103 => h.bgCmd n w
  | 0x4010A => h.failRequest n w
  | 0x40142 =>
    let f := fun b : Bank => { b with latch := b.latch ||| BitVec.ofNat 16 w }
    (h.modEng n fun e => (e.modBank false f).modBank true f).kick n
  | 0x51004 => h.primeRequest n (w % 16)
  | 0x51005 => h.commitRequest n w
  | 0x51103 => h.vchkStart n w
  | _ =>
    if 0x50000 ≤ o ∧ o < 0x50400 then h.stageWrite n (o - 0x50000) o w
    else if 0x51000 ≤ o ∧ o < 0x51004 then h.gated (!h.stageHeld n (o - 0x51000)) (16 + n) o w
    else if 0x51010 ≤ o ∧ o < 0x51014 then h.gated (!h.progPending n) (16 + n) o w
    else if 0x51014 ≤ o ∧ o < 0x51016 then h.gated (!(h.engine n).run.spen) (16 + n) o w
    else if 0x51040 ≤ o ∧ o < 0x510C0 ∧ o % 8 = 1 then h.glideWrite n ((o - 0x51040) / 8) w
    else if 0x51040 ≤ o ∧ o < 0x510C0 ∧ ((o % 8 = 2 ∧ w = 0) ∨ (o % 8 = 3 ∧ w % 16 = 0)) then h
    else if o = 0x51102 ∧ (w = 0 ∨ 32768 < w) then h
    else if (0x40200 ≤ o ∧ o < 0x40240) ∨ o = 0x40101 then h.store (16 + n) o w
    else h.ranged (16 + n) o w

/-- A write into a logical engine's space; words of the restore image are in it when the write is done (R265). A reserved
engine ignores it, but for the enable that it refuses (R169). -/
def Hub.writeEng (h : Hub) (n o w : Nat) : Hub :=
  if h.reserved n then (if o = 0x40100 then h.ctlWrite n w else h)
  else if o < 0x10000 then h.progWrite n o w
  else if o < 0x18000 then h.xWrite n (o - 0x10000) w
  else if 0x20000 ≤ o ∧ o < 0x24000 then h.yWrite n (o - 0x20000) w
  else if (0x30000 ≤ o ∧ o < 0x30058) ∨ (0x30080 ≤ o ∧ o < 0x300D8) then
    if ! h.stopped n then h.failWin 3 o else h.modBank n (decide (0x30080 ≤ o)) fun b => b.viewWrite (o % 0x80) w
  else
    let h := h.writeSe n o w
    if imageWords.contains o then h.imageReg n o else h

/-! ### The other indirect spaces -/

/-- Space 0x01 (R583). -/
def Hub.write01 (h : Hub) (o w : Nat) : Hub :=
  if 0x1200 ≤ o ∧ o < 0x1220 then h.gated h.otp.roast.isNone 0x01 o w else h.ranged 0x01 o w

/-- Space 0x08: the classifier's entries (R344, R346). -/
def Hub.write08 (h : Hub) (o w : Nat) : Hub :=
  if o % 32 = 31 then h.entryCtl (o / 32) (w &&& 0x8007)
  else if o % 32 = 23 then h.entryAction (o / 32) w
  else h.entryWord (o / 32) (o % 32) w

/-- Space 0x09 (R365). -/
def Hub.write09 (h : Hub) (o w : Nat) : Hub :=
  let h' := h.clsFresh (kCls o)
  if o < 0x80 then (if o % 16 = 15 then h.profileWrite (o / 16) w else h'.store 0x09 o w)
  else if o < 0xA0 then (if o % 2 = 1 then (h'.store 0x09 o w).enforceN (kCls (o - 1)) 2 else h'.store 0x09 o w)
  else if 0xC0 ≤ o ∧ o < 0x100 then (if o % 4 = 2 then (h'.store 0x09 o w).enforceN (kCls (o - 2)) 3 else h'.store 0x09 o w)
  else if 0x100 ≤ o ∧ o < 0x108 then (if o % 4 = 3 then h.defActWrite ((o - 0x100) / 4) w else h'.store 0x09 o w)
  else if o = 0x118 ∨ o = 0x11A then (if h.reg (kCls (0x11C + (o - 0x118) / 2)) = 0 then h'.store 0x09 o w else h.failWin 3 o)
  else if o = 0x119 ∨ o = 0x11B then h'.seedWrite ((o - 0x118) / 2) w
  else if o = 0x11E then (if bit w 0 then h.fenceGo else h)
  else if 0x200 ≤ o ∧ o < 0xA00 then
    if o % 32 = 16 then h.patternWrite ((o - 0x200) / 32) w else if o % 32 < 16 then h'.store 0x09 o w else h
  else h'.ranged 0x09 o w

/-- Space 0x0A (R367 to R377, R404). -/
def Hub.write0A (h : Hub) (o w : Nat) : Hub :=
  if o < 0x1000 ∧ o % 4 = 0 then h.bindQueue (o / 4) w
  else if o < 0x1000 ∧ o % 4 = 1 then
    let maxc := if bits w 12 0 = 0 ∨ 8192 < bits w 12 0 then h.fld (kQue o) 12 0 else bits w 12 0
    h.setReg (kQue o) (putBits maxc 15 13 (bits w 15 13))
  else if 0x3200 ≤ o ∧ o < 0x3280 ∧ o % 2 = 0 then
    h.setReg (kQue o) (putBits (bits w 8 0) 12 9 (if 9 < bits w 12 9 then h.fld (kQue o) 12 9 else bits w 12 9))
  else if o = 0x3282 ∨ o = 0x3283 then h.setDefTx (o - 0x3282) (bits w 9 0)
  else if 0x4000 ≤ o ∧ o < 0xC000 then (if o % 0x800 = 6 then h.rxRelease ((o - 0x4000) / 0x800) w else h)
  else if 0xC000 ≤ o ∧ o < 0x10000 then
    let t := (o - 0xC000) / 0x400
    if o % 0x400 = 2 then h.txSend t (w % 2048) else h.gated (h.txBusy t).isNone 0x0A o w
  else h.ranged 0x0A o w

/-- Space 0x0B (R383, R384, R405): settings of a context take effect when it starts. -/
def Hub.write0B (h : Hub) (o w : Nat) : Hub :=
  let c := o / 256
  let x := o % 256
  if 0x10000 ≤ o then h.ranged 0x0B o w
  else if x = 0 then (if bit w 15 then h.strEnable c (w &&& 0xFFE7) else h.strDisable c (w &&& 0xFFE7))
  else if x < 0x40 then
    if bit (h.reg (str c 0)) 15 then h.failWin 3 o else if (x = 0xF ∧ w % 2 = 1) ∨ outOfRange 0x0B o w then h else h.store 0x0B o w
  else if x < 0x58 then h.store 0x0B o w
  else if x = 0x58 then h.keySet c w
  else if 0x60 ≤ x ∧ x < 0x63 then h.gated (!bit (h.reg (str c 0)) 15) 0x0B o w
  else h.ranged 0x0B o w

/-- The per-engine words of space 0x0C (R285, R289, R303). Where the engine's domain produces no ticks, an invalidation
takes effect at once. -/
def Hub.write0C (h : Hub) (o w : Nat) : Hub :=
  let n := (o - 0x40000000) / 0x40
  let done := fun (h : Hub) => if (h.dom (h.domOf n)).run then h else h.farInvalidate n
  match o % 0x40 with
  | 0 => h.hold (spc 0x0C o) (w &&& 0xFC00)
  | 1 =>
    let lo := (h.staged (spc 0x0C (o - 1))).map (·.toNat)
    let h := match lo with | some v => (h.unstage (spc 0x0C (o - 1))).setReg (spc 0x0C (o - 1)) v | none => h
    done ((h.setReg (spc 0x0C o) (w &&& 0x3FFF)).invalRequest n 0x8000)
  | 2 => h.quotaWrite n (w % 2048)
  | 4 => done (h.invalRequest n w)
  | _ => h.ranged 0x0C o w

/-- Space 0x20 (R466 to R478, R482). -/
def Hub.write20 (h : Hub) (o w : Nat) : Hub :=
  if o < 0x400 then (if o % 2 = 1 then h.slotWrite (o / 2) w else h.store 0x20 o w)
  else if 0x1000 ≤ o ∧ o < 0x9000 then (if o % 8 = 3 then h.xpWrite ((o - 0x1000) / 8) w else h.store 0x20 o w)
  else if 0x9000 ≤ o ∧ o < 0xB000 then
    let s := (o - 0x9000) / 16
    if o % 16 = 5 then h.nagWrite s w
    else if o % 16 = 0 then
      let duck := if 60 < bits w 15 8 then h.fld (kRtm o) 15 8 else bits w 15 8
      (h.setReg (kRtm o) (256 * duck + (if 90 < bits w 7 0 then h.fld (kRtm o) 7 0 else bits w 7 0))).rescanSink s
    else h.ranged 0x20 o w
  else h.ranged 0x20 o w

/-- Space 0x21 (R486, R505). -/
def Hub.write21 (h : Hub) (o w : Nat) : Hub :=
  if o < 0x80 then
    if o % 16 = 4 then (if outOfRange 0x21 o w then h else h.zoneWrite (o / 16) (bits w 7 0))
    else if outOfRange 0x21 o w then h else h.store 0x21 o w
  else if 0x100 ≤ o ∧ o < 0x200 ∧ h.isL then h
  else h.ranged 0x21 o w

/-- Space 0x22 (R510, R516, R520, R526). -/
def Hub.write22 (h : Hub) (o w : Nat) : Hub :=
  if 0x80000 ≤ o ∧ o < 0x80100 then
    if o % 4 = 2 then h.cueWrite ((o - 0x80000) / 4) w else if o < 0x800E0 then h.store 0x22 o w else h.failWin 3 o
  else if o = 0x80200 ∨ o = 0x80210 then h.gated (!h.capEn ((o - 0x80200) / 16)) 0x22 o w
  else h.ranged 0x22 o w

/-- Space 0x24 (R64, R74, R84 to R89). Where an output stands in its period when it is stopped is open. -/
def Hub.write24 (h : Hub) (o w : Nat) : Hub :=
  let m := (o - 0x100) / 4
  if 0x100 ≤ o ∧ o < 0x120 then
    match o % 4 with
    | 0 => h.clkoWrite m fun h => h.clkoDivider m w (bit (h.reg (kClko m 1)) 0)
    | 1 => h.clkoWrite m fun h =>
      let h := if bits w 2 1 = h.fld (kClko m 1) 2 1 then h else h.clkoDom m (bits w 2 1)
      let h := if bit w 0 = bit (h.reg (kClko m 1)) 0 then h else h.clkoDivider m (h.reg (kClko m 0)) (bit w 0)
      if bit w 15 = bit (h.reg (kClko m 1)) 15 then h
      else if bit w 15 then h.clkoEnable m
      else h.tookFree.clkoDisable m (bit h.freeVal 0)
    | 2 => h.clkoWrite m fun h => h.clkoDelay m (w % 1024)
    | _ => h
  else if o = 0x274 then
    iter 2 (fun c h => if bit w c then h.stopRequest c else if (h.core c).st = .off then h.coreRestart c else h.stopWithdraw c) h
  else h.ranged 0x24 o w

/-- Space 0x25 (R413, R422, R425, R429). -/
def Hub.write25 (h : Hub) (o w : Nat) : Hub :=
  let x := o % 0x100
  if o < 0x200 ∧ x < 2 then h.gated (!bit (h.reg (0x42 + o / 0x100)) 15) 0x25 o w
  else if 0x200 ≤ o ∧ o < 0x400 ∧ x < 2 then h.gated (!bit (h.reg (0x44 + (o - 0x200) / 0x100)) 15) 0x25 o w
  else if 0x240 ≤ o ∧ o < 0x400 ∧ 0x40 ≤ x ∧ x < 0x7C then
    let h := h.store 0x25 o w
    if o % 16 = 11 then h.enforceN (spc 0x25 (o - 11)) 12 else h
  else h.ranged 0x25 o w

/-- Space 0x30 (R538, R557). What the NAND finds during a command that is written here is nothing; the rows of the store's
commands carry findings. -/
def Hub.write30 (h : Hub) (o w : Nat) : Hub :=
  if o = 0x1000 then (if bits w 15 12 = 0xC then h.carCmd (bits w 3 0) {} else h)
  else if o < 0x800 ∨ (0x1000 < o ∧ o < 0x1006) then h.gated h.nand.busy.isNone 0x30 o w
  else h.ranged 0x30 o w

/-- The quantities of telemetry and their greatest ARG (R553). -/
def telArg (h : Hub) : Nat → Option Nat
  | 0x03 => some (if h.isL then 0 else 8)
  | 0x09 => some 15
  | 0x0A => some 7
  | 0x0B => some (if h.isL then 3 else 7)
  | 0x0C => some 1
  | 0x0F => some 4
  | q => if 1 ≤ q ∧ q ≤ 0x10 then some 0 else none

/-- Space 0x31 (R552, R558). -/
def Hub.write31 (h : Hub) (o w : Nat) : Hub :=
  if 0x400010 ≤ o ∧ o < 0x400090 ∧ o % 2 = 0 then
    match telArg h (bits w 14 8) with
    | some a => if bits w 7 0 ≤ a then h.ranged 0x31 o w else h.failWin 3 o
    | none => h.failWin 3 o
  else h.ranged 0x31 o w

/-- The converter, amplifier, train-line and field words of space 0x3F (R431, R433, R434, R444, R455, R456, R464). -/
def Hub.writeAio (h : Hub) (o w : Nat) : Hub :=
  if o < 0x840 then
    match o % 8 with
    | 0 => h.adcCfg ((o - 0x800) / 8) (w &&& 0x303F)
    | 1 => h.gated (!bit (h.reg 0x48) ((o - 0x800) / 8)) 0x3F o w
    | _ => h.ranged 0x3F o w
  else if 0x880 ≤ o ∧ o < 0x900 then
    if h.isL ∧ (0x8C0 ≤ o ∨ ¬ (o % 16 = 0 ∨ o % 16 = 2)) then h
    else if o % 16 = 0 then h.gated (!bit (h.reg 0x4E) ((o - 0x880) / 16)) 0x3F o w
    else h.ranged 0x3F o w
  else if 0x900 ≤ o ∧ o < 0x920 ∧ o % 16 < 2 then h.gated (!bit (h.reg 0x4A) ((o - 0x900) / 16)) 0x3F o w
  else if 0xA00 ≤ o ∧ o < 0xA80 then h.gated ((h.tl ((o - 0xA00) / 0x40)).tx.isNone) 0x3F o w
  else if 0xB00 ≤ o ∧ o < 0xB40 ∧ o % 4 = 0 then h.finCfg ((o - 0xB00) / 4) (w &&& 0xFF07)
  else h.ranged 0x3F o w

/-- Space 0x3F. -/
def Hub.write3F (h : Hub) (o w : Nat) : Hub :=
  if 0x220 ≤ o ∧ o < 0x240 then h.asrcAssign (o - 0x220) w
  else if o = 0x400 ∨ o = 0x410 then
    h.setReg (kNet o) (putBits (bits w 2 0) 5 4 (if bits w 5 4 = 3 then h.fld (kNet o) 5 4 else bits w 5 4))
  else if 0x580 ≤ o ∧ o < 0x588 then h.ptpSetting (o - 0x580) (w % 256)
  else if 0x600 ≤ o ∧ o < 0x604 then h.store 0x3F o w
  else if o = 0x604 then
    let h := h.store 0x3F o w
    let ns := h.regN (kNet 0x603) 2
    if ns < 10 ^ 9 then h.timeSet (h.regN (kNet 0x600) 3) ns else h
  else if o = 0x610 then (if bit w 0 then h.timeCapture else h)
  else if 0x800 ≤ o ∧ o < 0xB60 then h.writeAio o w
  else h.ranged 0x3F o w

/-- A write of an RW, WT or WO word of an indirect space. -/
def Hub.writeSpace (h : Hub) (sp o w : Nat) : Hub :=
  match sp with
  | 0x01 => h.write01 o w
  | 0x08 => h.write08 o w
  | 0x09 => h.write09 o w
  | 0x0A => h.write0A o w
  | 0x0B => h.write0B o w
  | 0x0C => h.write0C o w
  | 0x20 => h.write20 o w
  | 0x21 => h.write21 o w
  | 0x22 => h.write22 o w
  | 0x24 => h.write24 o w
  | 0x25 => h.write25 o w
  | 0x30 => h.write30 o w
  | 0x31 => h.write31 o w
  | 0x3F => h.write3F o w
  | _ => h.ranged sp o w

/-! ### Every write -/

/-- A word written by its access code: what changes, and whether an ignored conditional clear sets CCI (R15, R114, R116,
R119). The sink words of a slot that is no sink fail (R482). The control port's own words and the queue's are not here. -/
def Hub.busWrite (h : Hub) (sp o w : Nat) : Hub × Bool :=
  if sp ≠ 0 ∧ ! spaceKnown sp then (h.failWin 1 o, false)
  else if sp = 0x0C ∧ o < 0x40000000 then (h.dramWrite o w, false)
  else if 16 ≤ sp ∧ sp < 32 ∧ o < 0x40000 then (h.writeEng (sp - 16) o w, false)
  else if 16 ≤ sp ∧ sp < 32 ∧ h.reserved (sp - 16) then (h, false)
  else match findRow (regRows sp) o with
    | none => (h, false)
    | some r =>
      if sp = 0x20 ∧ 0x9000 ≤ o ∧ o < 0xB000 ∧ ! h.isSink ((o - 0x9000) / 16) then (h.failWin 3 o, false)
      else match r.acc with
      | .ro => (if sp = 0 then h else h.failWin 2 o, false)
      | .cc => h.writeFlag (spc sp o) w
      | .cnt => (if sp = 0x08 ∨ sp = 0x09 then (h.clsFresh (spc sp o)).clearCnt sp o w else h.clearCnt sp o w, false)
      | _ =>
        (if sp = 0 then (if o < 0x40 then h.writeLow o w else h.writeHigh o w)
         else if 16 ≤ sp ∧ sp < 32 then h.writeEng (sp - 16) o w
         else h.writeSpace sp o w, false)

end Sys2Proof.Machine
end

