-- ==== Sys2Proof/Machine/Control.lean ====
section
/-! DEFINITION. Control.lean: the control port: frames and their checks, execution, responses and replay; the management
tunnel; write ownership; the window bank; stalls of the fabric (R53, R93 to R126). -/

namespace Sys2Proof.Machine

/-! ### Paths and their banks (R112) -/

/-- The bank and responses of a path: 0 the serial port, 1 the tunnel. -/
def Hub.path (h : Hub) (p : Nat) : CpPath := if p = 1 then h.cp.tunnel else h.cp.serial

/-- A path's bank and responses changed. -/
def Hub.modPath (h : Hub) (p : Nat) (f : CpPath → CpPath) : Hub :=
  if p = 1 then { h with cp := { h.cp with tunnel := f h.cp.tunnel } } else { h with cp := { h.cp with serial := f h.cp.serial } }

/-- CP_WSPACE to CP_WFAIL as the path reads them, but for CP_WDATA; the upper words of a field are its snapshot (R9). -/
def Hub.bankRead (h : Hub) (p a : Nat) : Hub × Nat :=
  let b := h.path p
  let take := fun (lo n : Nat) => ({ h with snap := tput resetWord h.snap (a + 1 + 0x80 * p) (BitVec.ofNat 16 (n / 65536)) }, lo)
  match a with
  | 0x10 => (h, b.wspace.toNat)
  | 0x11 => take ((b.waddrLo.map (·.toNat)).getD (b.waddr.toNat % 65536)) b.waddr.toNat
  | 0x13 => (h, b2n b.inc)
  | 0x15 => (h, b.wstat.toNat)
  | 0x16 => take (b.wfail.toNat % 65536) b.wfail.toNat
  | _ => (h, (tget resetWord h.snap (a + 0x80 * p)).toNat)

/-- CP_WSPACE, CP_WADDR and CP_WCTL written: they act at the access (R646). -/
def CpPath.bankWrite (b : CpPath) (a w : Nat) : CpPath :=
  match a with
  | 0x10 => { b with wspace := BitVec.ofNat 8 w }
  | 0x11 => { b with waddrLo := some (BitVec.ofNat 16 w) }
  | 0x12 => { b with waddr := BitVec.ofNat 32 (65536 * w + (b.waddrLo.map (·.toNat)).getD (b.waddr.toNat % 65536)), waddrLo := none }
  | 0x13 => { b with inc := bit w 0 }
  | _ => b

/-- CP_WADDR advances after an access of CP_WDATA (R112). -/
def CpPath.advance (b : CpPath) : CpPath := if b.inc then { b with waddr := b.waddr + 1 } else b

/-! ### Ownership (R108 to R110) -/

/-- CP_OWNER.EXP. -/
def Hub.expired (h : Hub) : Bool := bit (h.reg 0x09) 1

/-- LEASE as a write leaves it: values above 60 are ignored. -/
def Hub.leaseWrite (h : Hub) (w : Nat) : Hub := if 60 < bits w 13 8 then h else h.setFld 0x09 13 8 (bits w 13 8)

/-- The owner of writes changes: 1 handover, 2 claim. -/
def Hub.ownerChanged (h : Hub) (p how : Nat) : Hub := (h.setFld 0x09 0 0 p).issue 244 1 p how (h.fld 0x09 13 8)

/-- A write of CP_OWNER that ownership allows: by the owner, who may hand over, or a claim (R110). -/
def Hub.ownerWrite (h : Hub) (p w : Nat) : Hub :=
  let h := h.leaseWrite w
  if p = h.owner then (if w % 2 = h.owner then h else h.ownerChanged (w % 2) 1)
  else (h.setFld 0x09 1 1 0).ownerChanged p 2

/-- May a frame of path `p` write value `w` to direct address `a` (R108, R110, R599). -/
def Hub.mayWrite (h : Hub) (p a w : Nat) : Bool :=
  let bank := decide (0x10 ≤ a) && decide (a ≤ 0x13)
  if h.bootRun then bank || ((a == 7 || a == 8) && p == h.owner)
  else bank || p == h.owner || (a == 9 && h.expired && w % 2 == p)

/-- A frame of path `p` with a valid CRC has ended: the owner's clears EXP (R110). -/
def Hub.leaseKept (h : Hub) (was p : Nat) : Hub := if was = p then h.setFld 0x09 1 1 0 else h

/-! ### Accesses (R53, R100, R112, R116) -/

/-- A write that waits for the end of its frame: the number of its access, the space, the offset and the value (R15, R646). -/
structure Late where
  idx : Nat
  sp : Nat
  off : Nat
  val : Nat
deriving DecidableEq, Repr

/-- How far a frame's accesses are: the hub, the queue, the words read, an ignored conditional clear, a failed window
access and an access that the watchdog ended; the number of the next access, the first failing one with its cause and
offset, how many failed or were refused when they were judged, and the writes that wait for the end of the frame. -/
structure Xfer where
  h : Hub
  q : EvQueue
  data : List Word := []
  cci : Bool := false
  failed : Bool := false
  stalled : Bool := false
  idx : Nat := 0
  first : Option (Nat × Nat × Nat) := none
  bad : Nat := 0
  late : List Late := []

/-- The watchdog ends the next access of path `p` over a link: KIND 2 with a space, 3 with a direct address, 7 into the DRAM
controller. -/
def Hub.linkStalls (h : Hub) (kind i p : Nat) : Bool := h.cp.stalls.contains (kind, i, p)

/-- An access that the watchdog ended: a read returns zero, a write is dropped (R53). -/
def Xfer.stall (x : Xfer) (kind i p : Nat) : Xfer :=
  { x with h := { x.h with cp := { x.h.cp with stalls := x.h.cp.stalls.erase (kind, i, p) } }, stalled := true }

/-- The failure of access `i`, where there is one, is taken up: the access that comes first in the frame counts for CP_WSTAT
and CP_WFAIL, whenever its failure was found (R116). -/
def Xfer.settle (x : Xfer) (i : Nat) : Xfer :=
  match x.h.cp.fail with
  | none => x
  | some (c, off) =>
    { x with failed := true, bad := x.bad + 1, h := { x.h with cp := { x.h.cp with fail := none } },
             first := match x.first with | some f => if f.1 ≤ i then some f else some (i, c, off) | none => some (i, c, off) }

/-- A window access that fails as it is made (R116). -/
def Xfer.fails (x : Xfer) (cause off : Nat) : Xfer := { x with h := x.h.failWin cause off }.settle x.idx

/-- A word that was read. -/
def Xfer.got (x : Xfer) (n : Nat) : Xfer := { x with data := x.data ++ [BitVec.ofNat 16 n] }

/-- The link that the watchdog ends under an access of path `p` to a word of a space: into the space, or behind the DRAM
window into the DRAM controller. -/
def Hub.spaceLink (h : Hub) (p sp o : Nat) : Option (Nat × Nat) :=
  if h.linkStalls 2 sp p then some (2, sp)
  else if sp = 0x0C ∧ o < 0x40000000 ∧ h.linkStalls 7 0 p then some (7, 0)
  else none

/-- Does a write act when it is made, and not at the end of its frame: the memories of the window, read-only words and unlisted
spaces, which fail or ignore it, and conditional clears, which are judged when they are applied (R119, R122). -/
def actsNow (sp o : Nat) : Bool :=
  (sp != 0 && !spaceKnown sp) || (sp == 0x0C && decide (o < 0x40000000)) || (decide (16 ≤ sp) && decide (sp < 32) && decide (o < 0x40000)) ||
    match findRow (regRows sp) o with
    | none => true
    | some r => r.acc == .ro || r.acc == .cc

/-- Direct registers whose write starts an operation. -/
def actsDirect : List Nat :=
  [0x07, 0x08, 0x09, 0x1E, 0x23, 0x31, 0x32, 0x33, 0x39, 0x42, 0x43, 0x44, 0x45, 0x48, 0x4A, 0x4C, 0x4E, 0x4F, 0x52, 0x53, 0x56, 0x5A, 0x5C, 0x5E,
   0x60, 0x64, 0x65, 0x66, 0x6A, 0x6C, 0x6F, 0x71]

/-- Does a write start an operation of its block, which sees every value that its frame stores (R15, R646): commands,
requests, and words that complete an entry or are judged. -/
def actsLast (sp o : Nat) : Bool :=
  match sp with
  | 0x08 => o % 32 == 19 || o % 32 == 23 || o % 32 == 31
  | 0x09 => decide (o < 0x80) && o % 16 == 15 || o == 0x103 || o == 0x107 || o == 0x119 || o == 0x11B || o == 0x11E ||
      decide (0x200 ≤ o) && decide (o < 0xA00) && o % 32 == 16
  | 0x0A => decide (o < 0x1000) && o % 4 == 0 || o == 0x3282 || o == 0x3283 || decide (0x4000 ≤ o) && decide (o < 0xC000) ||
      decide (0xC000 ≤ o) && o % 0x400 == 2
  | 0x0B => decide (o < 0x10000) && (o % 256 == 0 || o % 256 == 0x58)
  | 0x0C => true
  | 0x20 => decide (o < 0x400) && o % 2 == 1 || decide (0x1000 ≤ o) && decide (o < 0x9000) && o % 8 == 3 ||
      decide (0x9000 ≤ o) && decide (o < 0xB000)
  | 0x21 => decide (o < 0x80) && o % 16 == 4
  | 0x22 => decide (0x80000 ≤ o) && decide (o < 0x80100) && o % 4 == 2
  | 0x24 => decide (0x100 ≤ o) && decide (o < 0x120) && o % 4 == 1 || o == 0x274
  | 0x30 => o == 0x1000
  | 0x3F => decide (0x220 ≤ o) && decide (o < 0x240) || decide (0x580 ≤ o) && decide (o < 0x588) || o == 0x604 || o == 0x610 ||
      decide (0x800 ≤ o) && decide (o < 0x840) && o % 8 == 0 || decide (0xB00 ≤ o) && decide (o < 0xB40) && o % 4 == 0
  | _ =>
    if sp = 0 then actsDirect.contains o
    else decide (16 ≤ sp) && decide (sp < 32) &&
      ([0x40001, 0x40007, 0x40100, 0x40103, 0x4010A, 0x40142, 0x51004, 0x51005, 0x51103].contains o ||
        (decide (0x51040 ≤ o) && decide (o < 0x510C0) && o % 8 == 1))

/-- Access `i` writes a word of a space, or a direct register for space 0, by path `p`: CP_OWNER and EVQ_HWM are the control
port's and the queue's. The boot image writes CP_OWNER as the path that owns writes would (R599). -/
def Xfer.apply (x : Xfer) (p i sp o w : Nat) : Xfer :=
  if sp = 0 ∧ o = 0x09 then { x with h := x.h.ownerWrite (if p = 2 then x.h.owner else p) w }
  else if sp = 0 ∧ o = 0x1E then { x with q := x.q.hwmReset }
  else
    let n := x.h.cp.refused
    let r := x.h.busWrite sp o w
    let y := { x with h := r.1, cci := x.cci || r.2 }
    if y.h.cp.fail.isNone && y.h.cp.refused != n then { y with bad := y.bad + 1 } else y.settle i

/-- A write that is not ended by the watchdog: it acts now, or waits for the end of its frame. -/
def Xfer.put (x : Xfer) (p sp o w : Nat) : Xfer :=
  let x := { x with idx := x.idx + 1 }
  if actsNow sp o then x.apply p (x.idx - 1) sp o w else { x with late := x.late ++ [⟨x.idx - 1, sp, o, w⟩] }

/-- The frame completes: what it wrote is stored, and then what its writes start takes place, in the order of the writes. -/
def Xfer.complete (x : Xfer) (p : Nat) : Xfer :=
  let run := fun (x : Xfer) (w : Late) => x.apply p w.idx w.sp w.off w.val
  let y := (x.late.filter fun w => !actsLast w.sp w.off).foldl run { x with late := [] }
  (x.late.filter fun w => actsLast w.sp w.off).foldl run y

/-- The first failure of the frame shows in the bank of its path; path 2 is the boot image, whose window accesses no bank
shows. -/
def Xfer.told (x : Xfer) (p : Nat) : Xfer :=
  match x.first with
  | some (_, c, off) => { x with h := { x.h with cp := { x.h.cp with fail := some (c, off) } }.noteFail p }
  | none => x

/-- An indirect space's word read by path `p`. -/
def Xfer.spaceRead (x : Xfer) (p sp o : Nat) (c : Ecc) : Xfer :=
  match x.h.spaceLink p sp o with
  | some l => ((x.fails 4 o).stall l.1 l.2 p).got 0
  | none =>
    if sp = 0 then (x.fails 1 o).got 0
    else
      let r := x.h.busRead x.q p sp o c
      ({ x with h := r.1 }.settle x.idx).got r.2

/-- An indirect space's word written by path `p`. -/
def Xfer.spaceWrite (x : Xfer) (p sp o w : Nat) : Xfer :=
  match x.h.spaceLink p sp o with
  | some l => { (x.fails 4 o).stall l.1 l.2 p with idx := x.idx + 1 }
  | none => if sp = 0 then { x.fails 1 o with idx := x.idx + 1 } else x.put p sp o w

/-- The direct register at `a` read by path `p` (R95, R112). -/
def Xfer.read (x : Xfer) (p a : Nat) (c : Ecc) : Xfer :=
  let x : Xfer :=
    if x.h.linkStalls 3 a p then (x.stall 3 a p).got 0
    else if a = 0x14 then
      let b := x.h.path p
      let x := x.spaceRead p b.wspace.toNat b.waddr.toNat c
      { x with h := x.h.modPath p CpPath.advance }
    else
      let r := if 0x10 ≤ a ∧ a < 0x18 then x.h.bankRead p a else x.h.busRead x.q p 0 a c
      { x with h := r.1 }.got r.2
  { x with idx := x.idx + 1 }

/-- The direct register at `a` written by path `p`: the window bank and EVQ_HEAD act at the access (R112, R139, R646). -/
def Xfer.write (x : Xfer) (p a w : Nat) : Xfer :=
  if x.h.linkStalls 3 a p then { x.stall 3 a p with idx := x.idx + 1, bad := x.bad + 1 }
  else if a = 0x14 then
    let b := x.h.path p
    let x := x.spaceWrite p b.wspace.toNat b.waddr.toNat w
    { x with h := x.h.modPath p CpPath.advance }
  else if 0x10 ≤ a ∧ a < 0x18 then { x with h := x.h.modPath p fun b => b.bankWrite a w, idx := x.idx + 1 }
  else if a = 0x19 then
    let r := evRelease x.h x.q w
    { x with h := r.1, q := r.2, idx := x.idx + 1 }
  else x.put p 0 a w

/-- Does a word keep only the last of several values that one frame writes to it: an RW or WT word that acts when the frame
completes (R15, R646). -/
def lastActs (sp o : Nat) : Bool := (findRow (regRows sp) o).any fun r => r.acc == .rw || r.acc == .wt

/-- Do the writes of a WRF frame all go to one word of that kind. -/
def Hub.oneTarget (h : Hub) (p a : Nat) : Bool :=
  if a = 0x14 then
    !(h.path p).inc && (h.path p).wspace.toNat != 0 && !actsNow (h.path p).wspace.toNat (h.path p).waddr.toNat &&
      lastActs (h.path p).wspace.toNat (h.path p).waddr.toNat
  else a != 0x19 && lastActs 0 a

/-- A write that a later one of the same frame replaces before it acts. -/
def Xfer.skip (x : Xfer) (p a : Nat) : Xfer :=
  let o := (x.h.path p).waddr.toNat
  let x : Xfer :=
    if x.h.linkStalls 3 a p then x.stall 3 a p
    else if a = 0x14 then
      match x.h.spaceLink p (x.h.path p).wspace.toNat o with
      | some l => (x.fails 4 o).stall l.1 l.2 p
      | none => x
    else x
  { x with idx := x.idx + 1 }

/-- The writes of a WR frame from address `a` on. -/
def Xfer.writes (x : Xfer) (p a : Nat) (ws : List Word) : Xfer := ws.zipIdx.foldl (fun x w => x.write p (a + w.2) w.1.toNat) x

/-- The writes of a WRF frame to address `a`. -/
def Xfer.writesAt (x : Xfer) (p a : Nat) (ws : List Word) : Xfer :=
  if x.h.oneTarget p a then
    let x := ws.dropLast.foldl (fun x _ => x.skip p a) x
    match ws.getLast? with
    | some w => x.write p a w.toNat
    | none => x
  else ws.foldl (fun x w => x.write p a w.toNat) x

/-- The accesses of an RD, RDF, WR or WRF frame in word order and its completion (R95, R100). A frame that accesses CP_WDATA
starts with CP_WSTAT 0 (R116). -/
def frameRun (h : Hub) (q : EvQueue) (p op a n : Nat) (ws : List Word) : Xfer :=
  let near := decide (a ≤ 0x14) && decide (0x14 < a + n)
  let h := if (if op = 1 ∨ op = 3 then near else a == 0x14) then h.modPath p fun b => { b with wstat := 0 } else h
  let x : Xfer := { h := h, q := q }
  let x := match op with
    | 1 => iter n (fun i (x : Xfer) => x.read p (a + i) .ok) x
    | 2 => iter n (fun _ (x : Xfer) => x.read p a .ok) x
    | 3 => x.writes p a ws
    | _ => x.writesAt p a ws
  (x.complete p).told p

/-! ### Requests (R94 to R96, R99) -/

/-- The CRC over words, high byte first (R96). -/
def frameCrc (ws : List Word) : Word :=
  BitVec.ofNat 16 (crcBytes 16 0x1021 0xFFFF (ws.flatMap fun w => [BitVec.ofNat 8 (w.toNat / 256), BitVec.ofNat 8 w.toNat]))

/-- Fields of a request's words: OP, TAG, ADDR and COUNT (R94). -/
def reqOp (ws : List Word) : Nat := bits (lget 0 ws 0).toNat 15 12
def reqTag (ws : List Word) : Nat := bits (lget 0 ws 0).toNat 11 8
def reqAddr (ws : List Word) : Nat := bits (lget 0 ws 0).toNat 6 0
def reqCount (ws : List Word) : Nat := bits (lget 0 ws 1).toNat 7 0

/-- Has an operation a COUNT; is it out of range. -/
def badCount (ws : List Word) : Bool :=
  decide (1 ≤ reqOp ws) && decide (reqOp ws ≤ 4) && (reqCount ws == 0 || decide (128 < reqCount ws))

/-- The length in words that OP and COUNT imply. -/
def reqLen (ws : List Word) : Nat := if reqOp ws = 3 ∨ reqOp ws = 4 then reqCount ws + 3 else 3

/-- The data words of a request. -/
def reqData (ws : List Word) : List Word := (ws.drop 2).dropLast

/-- Are all writes of a WR or WRF request allowed to path `p`. -/
def Hub.writesAllowed (h : Hub) (p : Nat) (ws : List Word) : Bool :=
  (reqData ws).zipIdx.all fun w => h.mayWrite p (if reqOp ws = 3 then reqAddr ws + w.2 else reqAddr ws) w.1.toNat

/-- The first of the checks 1 to 5 that a request fails, or 0 (R99). -/
def Hub.reqCheck (h : Hub) (p : Nat) (ws : List Word) : Nat :=
  if lget 0 ws (ws.length - 1) ≠ frameCrc ws.dropLast then 1
  else if 5 < reqOp ws then 2
  else if badCount ws ∨ ws.length ≠ reqLen ws then 3
  else if (reqOp ws = 1 ∨ reqOp ws = 3) ∧ 0x7F < reqAddr ws + reqCount ws - 1 then 4
  else if (reqOp ws = 3 ∨ reqOp ws = 4) ∧ ! h.writesAllowed p ws then 5
  else 0

/-! ### Responses (R97, R102) -/

/-- The response header. -/
def Hub.header (h : Hub) (q : EvQueue) (p tag status : Nat) (cci : Bool) : Word :=
  BitVec.ofNat 16 (0x5000 + 256 * tag + 16 * status + flagAt cci 3 + flagAt (h.attention q) 2 + flagAt (h.owner == p) 1)

/-- A response: header, data and CRC. -/
def Hub.respond (h : Hub) (q : EvQueue) (p tag status : Nat) (cci : Bool) (data : List Word) : List Word :=
  let ws := h.header q p tag status cci :: data
  ws ++ [frameCrc ws]

/-- The hub, the queue and the response to a request. -/
structure Reply where
  h : Hub
  q : EvQueue
  words : List Word

/-- RPL: the stored response of that TAG again, else status 7 (R102). -/
def replay (h : Hub) (q : EvQueue) (p tag : Nat) (w0 : Word) : Reply :=
  match (h.path p).stored with
  | some r => if r.tag.toNat = tag then ⟨h, q, h.respond q p tag r.status.toNat r.cci r.data⟩
              else let h := h.frameError p 7 w0
                   ⟨h, q, h.respond q p tag 7 false []⟩
  | none => let h := h.frameError p 7 w0
            ⟨h, q, h.respond q p tag 7 false []⟩

/-- STATUS of an executed frame. -/
def Xfer.status (x : Xfer) : Nat := if x.stalled then 8 else if x.failed then 6 else 0

/-- A request that passes the checks executes (R95, R100, R102). -/
def frameExec (h : Hub) (q : EvQueue) (p : Nat) (ws : List Word) : Reply :=
  let tag := reqTag ws
  if reqOp ws = 0 then ⟨h, q, h.respond q p tag 0 false []⟩
  else if reqOp ws = 5 then replay h q p tag (lget 0 ws 0)
  else
    let x := frameRun h q p (reqOp ws) (reqAddr ws) (reqCount ws) (reqData ws)
    let r : Resp := { tag := BitVec.ofNat 4 tag, status := BitVec.ofNat 4 x.status, cci := x.cci, data := x.data }
    let h := (x.h.modPath p fun b => { b with stored := some r }).leaseKept h.owner p
    ⟨h, x.q, h.respond x.q p tag x.status x.cci x.data⟩

/-- A request judged and, where no check fails, executed; with the code of the check that failed. -/
def frameJudge (h : Hub) (q : EvQueue) (p : Nat) (ws : List Word) : Nat × Reply :=
  let code := h.reqCheck p ws
  if code = 0 then
    let r := frameExec h q p ws
    (0, { r with h := if reqOp ws = 0 ∨ reqOp ws = 5 then r.h.leaseKept h.owner p else r.h })
  else
    let h := h.frameError p code (lget 0 ws 0)
    let h := if code = 1 then h else h.leaseKept h.owner p
    (code, ⟨h, q, h.respond q p (reqTag ws) code false []⟩)

/-! ### The serial port (R97, R99, R101) -/

/-- The words that the hub last sent on a path. -/
def Hub.cpSent (h : Hub) (p : Nat) (ws : List Word) : Hub := h.modPath p fun b => { b with sent := ws }

/-- A frame that ends without a response. -/
def Hub.noResponse (h : Hub) (code : Nat) (ws : List Word) : Hub := (h.frameError 0 code (lget 0 ws 0)).cpSent 0 []

/-- Request words clocked in at the serial port: OP and COUNT are judged as they arrive; a request that stays incomplete
is recorded as `short`, 9 after 10 ms or 10 at the end of CP_SEL; words after the request are ignored. -/
def serialFrame (h : Hub) (q : EvQueue) (short : Nat) (ws : List Word) : Hub × EvQueue :=
  if ws.length ≠ 0 ∧ 5 < reqOp ws then (h.noResponse 2 ws, q)
  else if 2 ≤ ws.length ∧ badCount ws then (h.noResponse 3 ws, q)
  else if ws.length < 2 ∨ ws.length < reqLen ws then (h.noResponse short ws, q)
  else
    let r := (frameJudge h q 0 (ws.take (reqLen ws))).2
    (r.h.cpSent 0 r.words, r.q)

/-! ### The tunnel (R103 to R107) -/

/-- The oldest waiting request is taken, if its words are `ws`, judged, executed and answered (R105, R106). -/
def tunnelFrame (h : Hub) (q : EvQueue) (ws : List Word) : Hub × EvQueue :=
  match h.cp.tun.queue with
  | [] => (h, q)
  | r :: rest =>
    if r.words ≠ ws then (h, q)
    else
      let h := h.modTun fun t => { t with queue := rest }
      if h.cp.tun.repeats r.from_ then (h.tunResend r.from_, q)
      else
        let (code, y) := frameJudge h q 1 ws
        let out := tunPayload 1 r.from_.seq y.words
        let h := (y.h.cpSent 1 y.words).tunSend r.from_ out
        (if code = 0 then h.modTun fun t => { t with last := some r.from_, lastAnswer := out } else h, y.q)

/-- An attention notice (R107). -/
def Hub.tunNotice (h : Hub) (q : EvQueue) : Hub :=
  match h.cp.tun.last with
  | none => h
  | some f =>
    if bit (h.reg 0x0C) 14 && h.attention q then
      h.tunSend f (tunPayload 2 0 (h.respond q 1 0 0 false []))
    else h

/-! ### Single accesses -/

/-- One write by path `p`, as a frame of its own whose word 0 is `w0`: refused with code 5 where the path may not write it.
Its CRC is valid, so the owner's clears EXP (R108, R110, R123). -/
def soleWrite (h : Hub) (q : EvQueue) (p a w : Nat) (w0 : Word) : Hub × EvQueue :=
  let was := h.owner
  if h.mayWrite p a w then
    let h := if a = 0x14 then h.modPath p fun b => { b with wstat := 0 } else h
    let x := ((({ h := h, q := q } : Xfer).write p a w).complete p).told p
    (x.h.leaseKept was p, x.q)
  else ((h.frameError p 5 w0).leaseKept was p, q)

/-- One read of CP_WDATA by path `p`: the word it answers. -/
def windowRead (h : Hub) (q : EvQueue) (p : Nat) (c : Ecc) : Hub :=
  let x := (({ h := h.modPath p fun b => { b with wstat := 0 }, q := q } : Xfer).read p 0x14 c).told p
  (x.h.leaseKept h.owner p).cpSent p x.data

/-- A write of a register by the path that owns writes: a direct address for space 0. -/
def ownerAccess (h : Hub) (q : EvQueue) (sp o w : Nat) : Xfer :=
  let p := h.owner
  let x : Xfer := { h := h, q := q }
  let x := if sp = 0 then (if o < 0x80 then x.write p o w else x) else x.spaceWrite p sp o w
  let x := (x.complete p).told p
  { x with h := x.h.leaseKept p p }

/-- A conditional clear by the path that owns writes, with the response header that carries CCI (R119). -/
def condClear (h : Hub) (q : EvQueue) (sp o w : Nat) : Hub × EvQueue :=
  if (findRow (regRows sp) o).any fun r => r.acc == .cc then
    let x := ownerAccess h q sp o w
    (x.h.cpSent h.owner (x.h.respond x.q h.owner 0 x.status x.cci []), x.q)
  else (h, q)

/-- The lease timer reaches LEASE (R110). -/
def Hub.leaseExpires (h : Hub) : Hub :=
  let lease := h.fld 0x09 13 8
  if lease = 0 ∨ h.expired then h else (h.setFld 0x09 1 1 1).issue 244 2 h.owner lease 0

/-! ### Fabric stalls (R53, R647) -/

/-- A far operation whose link stalls: a fetch leaves its words zero and void, a store is dropped. -/
def Engine.farLost (e : Engine) (store live : Bool) (x n : Nat) : Engine :=
  if store || !live then e else e.voidZeros x n

/-- The link from an engine's far queue stalls: the operation it carries is lost. -/
def Hub.farqStall (h : Hub) (n : Nat) : Hub :=
  match (h.engine n).farq with
  | [] => h
  | o :: os => (h.modEng n fun e => { e.farLost o.store o.live o.x o.n with farq := os }).pump 600

/-- The link to the DRAM controller stalls under a request of an engine: the oldest one is lost. -/
def Hub.dramStall (h : Hub) (n : Nat) : Hub :=
  match (h.engine n).infl with
  | [] => h
  | r :: rs => (h.modEng n fun e => { e.farLost r.store r.live r.x r.n with infl := rs }).pump 600

/-- What the error response of a stalled link does. A stall of a link of KIND 2, 3, 7 or 8, or of a unit of the cluster, ends
the access that its requester makes over it next; a stall inside a block is only counted, since the manual names no access
there (R53, R647). -/
def Hub.stallEffect (h : Hub) (kind i requester : Nat) : Hub :=
  match kind with
  | 1 => if i < 256 then h.evStall i else h
  | 4 => if h.clu.xl.head?.any fun x => x.eng == i then h.xlAnswer voidZero else h
  | 5 => if i < 16 then h.farqStall i else h
  | 6 => if (requester < 16 ∨ requester = 164) ∧ i < 3 then { h with clu := { h.clu with stalls := h.clu.stalls ++ [(requester, i)] } } else h
  | 7 => if 16 ≤ requester ∧ requester < 32 then h.dramStall (requester - 16) else h.awaitStall 7 i requester
  | 15 => h
  | _ => h.awaitStall kind i requester

/-- The watchdog of a fabric link expires. -/
def Hub.fabricStall (h : Hub) (link requester : Nat) : Hub :=
  let kind := link / 4096
  if kind = 0 ∨ (8 < kind ∧ kind ≠ 15) then h
  else
    let h := ((h.addSat (spc 0x3F 0x122) 2 1).setReg (spc 0x3F 0x124) link).setFlag (spc 0x3F 0x121)
    (h.issueLimited link 242 1 link requester (h.fld (spc 0x3F 0x120) 7 0)).stallEffect kind (link % 4096) requester

end Sys2Proof.Machine
end

