-- ==== Sys2Proof/Machine/ControlExec.lean ====
section
/-! DEFINITION. ControlExec.lean: the meanings of the control port's, the tunnel's and the event queue's commands. -/

namespace Sys2Proof.Machine

/-- The words of a request (R94). -/
def reqWords (op : Nat) (tag : BitVec 4) (addr : Byte) (w1 : Word) (data : List Word) (crc : Word) : List Word :=
  BitVec.ofNat 16 (4096 * op + 256 * tag.toNat + addr.toNat) :: w1 :: data ++ [crc]

/-- A frame of a path: at the serial port, or the tunnel's oldest waiting request. -/
def frameRow (h : Hub) (q : EvQueue) (path : Fin 2) (ws : List Word) : Hub × EvQueue :=
  if path = 0 then serialFrame h q 10 ws else tunnelFrame h q ws

/-- FABRIC_STALL (R53). -/
def execFabricStall (link : Word) (requester : Word) (s : State) : Host.Outcome State Fault Refusal :=
  s.onHub fun h => h.fabricStall link.toNat requester.toNat
/-- CP_NOP (R95). -/
def execCpNop (path : Fin 2) (tag : BitVec 4) (addr : Byte) (w1 : Word) (crc : Word) (s : State) : Host.Outcome State Fault Refusal :=
  s.onQ fun h q => frameRow h q path (reqWords 0 tag addr w1 [] crc)
/-- CP_RD (R95). -/
def execCpRd (path : Fin 2) (tag : BitVec 4) (addr : Byte) (w1 : Word) (crc : Word) (s : State) : Host.Outcome State Fault Refusal :=
  s.onQ fun h q => frameRow h q path (reqWords 1 tag addr w1 [] crc)
/-- CP_RDF (R95). -/
def execCpRdf (path : Fin 2) (tag : BitVec 4) (addr : Byte) (w1 : Word) (crc : Word) (s : State) : Host.Outcome State Fault Refusal :=
  s.onQ fun h q => frameRow h q path (reqWords 2 tag addr w1 [] crc)
/-- CP_WR (R95). -/
def execCpWr (path : Fin 2) (tag : BitVec 4) (addr : Byte) (w1 : Word) (data : List Word) (crc : Word) (s : State) : Host.Outcome State Fault Refusal :=
  s.onQ fun h q => frameRow h q path (reqWords 3 tag addr w1 data crc)
/-- CP_WRF (R95). -/
def execCpWrf (path : Fin 2) (tag : BitVec 4) (addr : Byte) (w1 : Word) (data : List Word) (crc : Word) (s : State) : Host.Outcome State Fault Refusal :=
  s.onQ fun h q => frameRow h q path (reqWords 4 tag addr w1 data crc)
/-- CP_RPL (R102). -/
def execCpRpl (path : Fin 2) (tag : BitVec 4) (addr : Byte) (w1 : Word) (crc : Word) (s : State) : Host.Outcome State Fault Refusal :=
  s.onQ fun h q => frameRow h q path (reqWords 5 tag addr w1 [] crc)
/-- CP_INVALID_OP (R99): request words with an invalid OP or COUNT; they are judged like any others. -/
def execCpInvalidOp (path : Fin 2) (words : List Word) (s : State) : Host.Outcome State Fault Refusal :=
  s.onQ fun h q => frameRow h q path words
/-- FRAME_TIMEOUT (R101): the words clocked in within 10 ms. -/
def execFrameTimeout (words : List Word) (s : State) : Host.Outcome State Fault Refusal :=
  s.onQ fun h q => serialFrame h q 9 words
/-- FRAME_SHORT (R101): the words clocked in before CP_SEL was deasserted. -/
def execFrameShort (words : List Word) (s : State) : Host.Outcome State Fault Refusal :=
  s.onQ fun h q => serialFrame h q 10 words
/-- TUNNEL_DATAGRAM (R103). -/
def execTunnelDatagram (p : Fin 2) (bytes : List Byte) (s : State) : Host.Outcome State Fault Refusal :=
  s.onHub fun h => h.tunFrame p bytes
/-- TUNNEL_ATTENTION_NOTICE (R107). -/
def execTunnelAttentionNotice (s : State) : Host.Outcome State Fault Refusal := s.onHub fun h => h.tunNotice s.q
/-- OWNER_HANDOVER (R110): the path that owns writes sends the write, in a frame whose word 0 is `w0`. -/
def execOwnerHandover (w0 : Word) (value : Word) (s : State) : Host.Outcome State Fault Refusal :=
  s.onQ fun h q => soleWrite h q h.owner 9 value.toNat w0
/-- OWNER_CLAIM (R110): the path that does not own writes sends the write, in a frame whose word 0 is `w0`. -/
def execOwnerClaim (w0 : Word) (value : Word) (s : State) : Host.Outcome State Fault Refusal :=
  s.onQ fun h q => soleWrite h q (1 - h.owner) 9 value.toNat w0
/-- LEASE_EXPIRED (R110). -/
def execLeaseExpired (s : State) : Host.Outcome State Fault Refusal := s.onHub Hub.leaseExpires
/-- WINDOW_READ (R112). -/
def execWindowRead (path : Fin 2) (ecc : Ecc) (s : State) : Host.Outcome State Fault Refusal :=
  s.onHub fun h => windowRead h s.q path ecc
/-- WINDOW_WRITE (R112), in a frame whose word 0 is `w0`. -/
def execWindowWrite (path : Fin 2) (w0 : Word) (value : Word) (s : State) : Host.Outcome State Fault Refusal :=
  s.onQ fun h q => soleWrite h q path 0x14 value.toNat w0
/-- CONDITIONAL_CLEAR (R119). -/
def execConditionalClear (space : Byte) (offset : BitVec 32) (value : Word) (s : State) : Host.Outcome State Fault Refusal :=
  s.onQ fun h q => condClear h q space.toNat offset.toNat value.toNat
/-- REGISTER_WRITE (R646). -/
def execRegisterWrite (space : Byte) (offset : BitVec 32) (value : Word) (s : State) : Host.Outcome State Fault Refusal :=
  s.onQ fun h q =>
    let x := ownerAccess h q space.toNat offset.toNat value.toNat
    (x.h, x.q)
/-- EVENT_ENTRY (R135). -/
def execEventEntry (src : Byte) (s : State) : Host.Outcome State Fault Refusal := s.onQ fun h q => evEntry h q src.toNat
/-- EVENT_RELEASE (R139). -/
def execEventRelease (value : Word) (s : State) : Host.Outcome State Fault Refusal :=
  s.onQ fun h q => evRelease h q value.toNat
/-- ATTENTION_EVALUATION (R146): a millisecond of reference time passes; the condition itself is a function of the state. -/
def execAttentionEvaluation (s : State) : Host.Outcome State Fault Refusal :=
  s.onHub fun h => ({ h with refMs := h.refMs + 1, ev := h.ev.countMs fun d => (h.dom d).run }).ptpMs.sentAll
/-- RATE_LIMIT_WINDOW_END (R142). -/
def execRateLimitWindowEnd (src : Byte) (code : Word) (sub : Nat) (s : State) : Host.Outcome State Fault Refusal :=
  s.onHub fun h => h.endWindow sub src.toNat code.toNat
/-- HWM_RESET (R147). -/
def execHwmReset (s : State) : Host.Outcome State Fault Refusal := s.onQ fun h q => (h, q.hwmReset)

end Sys2Proof.Machine
end

