-- ==== Sys2Proof/Machine/EngineExec.lean ====
section
/-! DEFINITION. EngineExec.lean: the meanings of the commands of one engine, its supply control, its loading and its far
memory that touch nothing else of the hub. -/

namespace Sys2Proof.Machine

/-- BUNDLE_LIMIT_END (R194): after 8,192 bundles the program ends as at END, and LEN is set whatever SE_PLEN. -/
def execBundleLimitEnd (n : Fin 16) (x : EndIn) (s : State) : Host.Outcome State Fault Refusal :=
  s.onHub fun h =>
    let r := (h.engine n).run
    if r.inprog && decide (8192 ≤ r.count) then
      let h := if r.count = r.plen then (h.seFlag n 0x004).issueLimited 0 n 0x102 r.plen r.count 0 else h
      h.programEnd n x
    else h

/-- SE_PLEN_WRITE (R37). -/
def execSePlenWrite (n : Fin 16) (len : BitVec 14) (s : State) : Host.Outcome State Fault Refusal :=
  s.onWrite fun h => h.seWrite n fun h => h.plenWrite n len.toNat

/-- SLACK_MIN_RESET (R40). -/
def execSlackMinReset (n : Fin 16) (s : State) : Host.Outcome State Fault Refusal :=
  s.onWrite fun h => h.seWrite n fun h => h.slackMinReset n

/-- SPEED_MONITOR_READING (R41). -/
def execSpeedMonitorReading (m : Fin 8) (rate : Word) (s : State) : Host.Outcome State Fault Refusal :=
  s.onHub fun h => h.speedReading m rate.toNat

/-- ASC_EVALUATION (R43). -/
def execAscEvaluation (s : State) : Host.Outcome State Fault Refusal := s.onHub Hub.ascEvaluate

/-- BACKGROUND_DISABLE (R164). -/
def execBackgroundDisable (n : Fin 16) (s : State) : Host.Outcome State Fault Refusal :=
  s.onWrite fun h => h.ctlWrite n (putBits (h.reg (kSe n 0x100)) 14 14 0)

/-- BACKGROUND_RESTART (R164). -/
def execBackgroundRestart (n : Fin 16) (cmd : Word) (s : State) : Host.Outcome State Fault Refusal :=
  s.onWrite fun h => h.seWrite n fun h => h.bgCmd n cmd.toNat

/-- BG_HALT (R165): the word that background code fetches cannot be corrected (cause 2), or compact mode does not define it
(cause 1). With a word that it defines nothing happens: the operation is a command of its own. -/
def execBgHalt (n : Fin 16) (fetch : Ecc) (s : State) : Host.Outcome State Fault Refusal :=
  s.onHub fun h =>
    let e := h.engine n
    let pc := e.fore.pc
    let c := if e.ue.contains (0, pc) then .uncorrectable else fetch
    let undefined := match decodeSlot n true (e.progWord pc) (e.progWord (pc + 1)) with
      | some i => e.fore.undefinedOp i
      | none => true
    if ¬ h.bgRuns n ∨ ¬ e.fore.held.isEmpty then h
    else if c = .uncorrectable then (h.engEcc n 0 pc c false).bgHalt n 2
    else if undefined then (h.engEcc n 0 pc c false).bgHalt n 1
    else h

/-- ILLEGAL_BUNDLE (R166): the words at PC are no bundle that bundle mode defines. -/
def execIllegalBundle (n : Fin 16) (fetch : List Ecc) (s : State) : Host.Outcome State Fault Refusal :=
  s.onHub fun h =>
    let e := h.engine n
    let k := e.bundleWords e.shadow.pc
    if h.issues n && e.undefinedBundle n then
      let (h, bad) := h.fetched n (e.wordsFound k fetch) true
      let h := h.modBank n false fun b => { b with bundle := [] }
      if bad then h.badBundle n k else h.illegal n k
    else h

/-- EVENT_LINE_SET (R253). -/
def execEventLineSet (n : Fin 16) (set : Word) (s : State) : Host.Outcome State Fault Refusal :=
  s.onWrite fun h => h.seWrite n fun h =>
    let f := fun b : Bank => { b with latch := b.latch ||| set }
    (h.modEng n fun e => (e.modBank false f).modBank true f).kick n

/-- ASRC_ASSIGN (R173). -/
def execAsrcAssign (ch : Fin 32) (value : Word) (s : State) : Host.Outcome State Fault Refusal :=
  s.onWrite fun h => h.asrcAssign ch value.toNat

/-- FFT_JOB_DONE (R172). -/
def execFftJobDone (s : State) : Host.Outcome State Fault Refusal := s.onHub Hub.fftDone

/-- CORRELATOR_JOB_DONE (R172). -/
def execCorrelatorJobDone (s : State) : Host.Outcome State Fault Refusal := s.onHub Hub.corDone

/-- XL_ANSWER (R204). -/
def execXlAnswer (result : Word) (void : Bool) (s : State) : Host.Outcome State Fault Refusal :=
  s.onHub fun h => h.xlAnswer { rv result.toNat with void := void }

/-- Y_PAGE_PRIME (R266). -/
def execYPagePrime (n : Fin 16) (value : BitVec 4) (s : State) : Host.Outcome State Fault Refusal :=
  s.onWrite fun h => h.seWrite n fun h => h.primeRequest n value.toNat

/-- PRIME_COMPLETE (R266). -/
def execPrimeComplete (n : Fin 16) (page : Fin 4) (s : State) : Host.Outcome State Fault Refusal :=
  s.onHub fun h => h.primeDone n page

/-- COMMIT_REQUEST (R267). -/
def execCommitRequest (n : Fin 16) (value : Word) (s : State) : Host.Outcome State Fault Refusal :=
  s.onWrite fun h => h.seWrite n fun h => h.commitRequest n value.toNat

/-- GLIDE_TARGET_WRITE (R273, R275). -/
def execGlideTargetWrite (n : Fin 16) (g : Fin 16) (target : Word) (s : State) : Host.Outcome State Fault Refusal :=
  s.onWrite fun h => h.seWrite n fun h => h.glideWrite n g target.toNat

/-- VERIFY_CHECK (R278). -/
def execVerifyCheck (n : Fin 16) (value : Word) (s : State) : Host.Outcome State Fault Refusal :=
  s.onWrite fun h => h.seWrite n fun h => h.vchkStart n value.toNat

/-- VCHK_DONE (R278). -/
def execVchkDone (n : Fin 16) (s : State) : Host.Outcome State Fault Refusal := s.onHub fun h => h.vchkDone n

/-- QUOTA_WRITE (R289). -/
def execQuotaWrite (n : Fin 16) (quota : Word) (s : State) : Host.Outcome State Fault Refusal :=
  s.onWrite fun h => h.quotaWrite n (quota.toNat % 2 ^ 11)

/-- FAR_LANDING (R292): request `i` of the engine is served. -/
def execFarLanding (n : Fin 16) (i : Nat) (e : FarEcc) (s : State) : Host.Outcome State Fault Refusal :=
  s.onHub fun h => h.farLanding n i e

/-- FAR_STORE_WRITTEN (R294). -/
def execFarStoreWritten (n : Fin 16) (i : Nat) (e : FarEcc) (s : State) : Host.Outcome State Fault Refusal :=
  s.onHub fun h => h.farWritten n i e

/-- TAG_RESOLUTION (R396). -/
def execTagResolution (n : Fin 16) (tag : Fin 4) (s : State) : Host.Outcome State Fault Refusal :=
  s.onHub fun h => h.tagResolve n tag

end Sys2Proof.Machine
end

