-- ==== Sys2Proof/Machine/NetExec.lean ====
section
/-! DEFINITION. NetExec.lean: the meanings of the commands of the network ports, the classifier, queues, lanes and stream
contexts. -/

namespace Sys2Proof.Machine

/-- LINK_UP (R304, R305). -/
def execLinkUp (p : Fin 2) (speed : Fin 3) (mdix half : Bool) (s : State) : Host.Outcome State Fault Refusal :=
  s.onHub fun h => h.phyUp p speed mdix half
/-- LINK_DOWN (R305, R309, R318). -/
def execLinkDown (p : Fin 2) (sending : Bool) (s : State) : Host.Outcome State Fault Refusal :=
  s.onHub fun h => h.linkLost p sending
/-- FRAME_ARRIVAL (R331). -/
def execFrameArrival (p : Fin 2) (bytes : List Byte) (s : State) : Host.Outcome State Fault Refusal := s.onHub fun h => h.frameArrival p bytes
/-- PASS_DECISION (R332). -/
def execPassDecision (i : Fin 256) (idle : Bool) (s : State) : Host.Outcome State Fault Refusal := s.onHub fun h => h.passStep i idle
/-- FRAME_END (R353). -/
def execFrameEnd (i : Fin 256) (fate : Fin 4) (residence : BitVec 64) (stamp : Int) (s : State) : Host.Outcome State Fault Refusal :=
  s.onHub fun h => h.frameEnd i fate residence stamp
/-- FRAME_TRANSMIT (R370). -/
def execFrameTransmit (p : Fin 2) (residence : BitVec 64) (s : State) : Host.Outcome State Fault Refusal := s.onHub fun h => h.transmit p residence
/-- NET_RELAY_OPEN (R312): a write of BYP = 0; the relay stays closed until the start-up point (R28). -/
def execNetRelayOpen (s : State) : Host.Outcome State Fault Refusal := s.onHub fun h => (h.setFld 0x39 15 15 0).netOpen 2
/-- NET_RELAY_CLOSE (R312): a write of BYP = 1. -/
def execNetRelayClose (s : State) : Host.Outcome State Fault Refusal :=
  s.onHub fun h => (h.setFld 0x39 15 15 1).bypass 2
/-- RELAY_CHANGED (R312). -/
def execRelayChanged (sensed : Bool) (s : State) : Host.Outcome State Fault Refusal := s.onHub fun h => h.relayChanged sensed
/-- RELAY_FAULT (R312). -/
def execRelayFault (s : State) : Host.Outcome State Fault Refusal := s.onHub Hub.relayFault
/-- PTP_ANNOUNCE_RX (R318). -/
def execPtpAnnounceRx (m : PtpAnn) (s : State) : Host.Outcome State Fault Refusal := s.onHub fun h => h.announceRx m
/-- PTP_SYNC_RX (R318). -/
def execPtpSyncRx (m : PtpMsg) (s : State) : Host.Outcome State Fault Refusal := s.onHub fun h => h.syncRx m
/-- PTP_FOLLOW_UP_RX (R321). -/
def execPtpFollowUpRx (m : PtpMsg) (s : State) : Host.Outcome State Fault Refusal := s.onHub fun h => h.followUpRx m
/-- PTP_DELAY_RESP_RX (R321). -/
def execPtpDelayRespRx (m : PtpMsg) (s : State) : Host.Outcome State Fault Refusal := s.onHub fun h => h.delayRespRx m
/-- PTP_DELAY_REQ_RX (R318). -/
def execPtpDelayReqRx (m : PtpMsg) (s : State) : Host.Outcome State Fault Refusal := s.onHub fun h => h.delayReqRx m
/-- PTP_ANNOUNCE_TIMEOUT (R318). -/
def execPtpAnnounceTimeout (s : State) : Host.Outcome State Fault Refusal := s.onHub Hub.announceTimeout
/-- PTP_ANNOUNCE_TX (R318). -/
def execPtpAnnounceTx (s : State) : Host.Outcome State Fault Refusal := s.onHub Hub.announceTx
/-- PTP_SYNC_TX (R318). -/
def execPtpSyncTx (times : List Int) (s : State) : Host.Outcome State Fault Refusal := s.onHub fun h => h.syncTx times
/-- PTP_DELAY_REQ_TX (R318). -/
def execPtpDelayReqTx (time : Int) (s : State) : Host.Outcome State Fault Refusal := s.onHub fun h => (h.ptpListen).delayReqTx time
/-- PTP_TIME_SET (R320). -/
def execPtpTimeSet (sec : BitVec 48) (ns : BitVec 32) (s : State) : Host.Outcome State Fault Refusal := s.onHub fun h => h.timeSet sec.toNat ns.toNat
/-- TIME_CAPTURE (R323). -/
def execTimeCapture (s : State) : Host.Outcome State Fault Refusal := s.onHub Hub.timeCapture
/-- TC_ENTRY_TIMEOUT (R325). -/
def execTcEntryTimeout (i : Fin 32) (s : State) : Host.Outcome State Fault Refusal := s.onHub fun h => h.tcTimeout i
/-- PROFILE_CHANGE (R316). -/
def execProfileChange (profile : BitVec 2) (s : State) : Host.Outcome State Fault Refusal := s.onHub fun h => h.profileChange profile.toNat
/-- CLS_ENTRY_INSERT (R346): a write of word 31 with V = 1. -/
def execClsEntryInsert (e : BitVec 14) (prof : Fin 8) (s : State) : Host.Outcome State Fault Refusal :=
  s.onWrite fun h => h.entryCtl e.toNat (0x8000 + prof)
/-- CLS_ACTION_CHANGE (R346): a write of word 23. -/
def execClsActionChange (e : BitVec 14) (value : Word) (s : State) : Host.Outcome State Fault Refusal :=
  s.onWrite fun h => h.entryAction e.toNat value.toNat
/-- CLS_ENTRY_REMOVE (R346): a write of word 31 with V = 0 that keeps PROF. -/
def execClsEntryRemove (e : BitVec 14) (s : State) : Host.Outcome State Fault Refusal := s.onWrite fun h => h.entryCtl e.toNat (h.entProf e.toNat)
/-- KEY_PROFILE_WRITE (R341): a write of word +15. -/
def execKeyProfileWrite (p : Fin 8) (value : Word) (s : State) : Host.Outcome State Fault Refusal := s.onWrite fun h => h.profileWrite p value.toNat
/-- FENCE_START (R348). -/
def execFenceStart (s : State) : Host.Outcome State Fault Refusal := s.onHub Hub.fenceGo
/-- FENCE_DONE (R348). -/
def execFenceDone (s : State) : Host.Outcome State Fault Refusal := s.onHub Hub.fenceDone
/-- SEED_WRITE (R349): a write of the upper word of CLS_SEEDt. -/
def execSeedWrite (t : Fin 2) (value : Word) (s : State) : Host.Outcome State Fault Refusal := s.onWrite fun h => h.seedWrite t value.toNat
/-- PATTERN_WRITE (R358): a write of word +16. -/
def execPatternWrite (k : Fin 64) (value : Word) (s : State) : Host.Outcome State Fault Refusal := s.onWrite fun h => h.patternWrite k value.toNat
/-- FRAG_TIMEOUT (R361). -/
def execFragTimeout (f : Fin 128) (s : State) : Host.Outcome State Fault Refusal := s.onHub fun h => h.fragTimeout f
/-- QUEUE_BIND (R367). -/
def execQueueBind (q : Fin 1024) (value : Word) (s : State) : Host.Outcome State Fault Refusal := s.onWrite fun h => h.bindQueue q value.toNat
/-- DEFAULT_TX_WRITE (R371). -/
def execDefaultTxWrite (p : Fin 2) (q : Fin 1024) (s : State) : Host.Outcome State Fault Refusal := s.onWrite fun h => h.setDefTx p q
/-- RX_RELEASE (R376). -/
def execRxRelease (r : Fin 16) (value : Word) (s : State) : Host.Outcome State Fault Refusal := s.onHub fun h => h.rxRelease r value.toNat
/-- TX_SEND (R377). -/
def execTxSend (t : Fin 16) (len : Word) (s : State) : Host.Outcome State Fault Refusal := s.onWrite fun h => h.txSend t len.toNat
/-- TX_SEND_DONE (R377). -/
def execTxSendDone (t : Fin 16) (s : State) : Host.Outcome State Fault Refusal := s.onHub fun h => h.txSendDone t
/-- LANE_RESULT (R380). -/
def execLaneResult (l : Fin 4) (j : Fin 16) (s : State) : Host.Outcome State Fault Refusal := s.onHub fun h => h.laneResult l j
/-- REORDER_TIMEOUT (R380). -/
def execReorderTimeout (c : Byte) (i : Nat) (s : State) : Host.Outcome State Fault Refusal := s.onHub fun h => h.reorderTimeout c.toNat i
/-- LANE_SELF_CHECK (R381): a mismatch fails the lane. -/
def execLaneSelfCheck (l : Fin 4) (ok : Bool) (s : State) : Host.Outcome State Fault Refusal := s.onHub fun h => if ok then h else h.laneFail l 1
/-- LANE_STALL (R381). -/
def execLaneStall (l : Fin 4) (s : State) : Host.Outcome State Fault Refusal :=
  s.onHub fun h => if (h.lane l).held.isEmpty then h else h.laneFail l 2
/-- STREAM_ENABLE (R384): a write of word 0x00 with EN = 1. -/
def execStreamEnable (c : Byte) (value : Word) (s : State) : Host.Outcome State Fault Refusal :=
  s.onHub fun h => h.strEnable c.toNat (putBits value.toNat 15 15 1)
/-- STREAM_DISABLE (R384): a write of word 0x00 with EN = 0. -/
def execStreamDisable (c : Byte) (value : Word) (s : State) : Host.Outcome State Fault Refusal :=
  s.onHub fun h => h.strDisable c.toNat (putBits value.toNat 15 15 0)
/-- KEY_SET_WRITE (R383): a write of the last word of the key set. -/
def execKeySetWrite (c : Byte) (value : Word) (s : State) : Host.Outcome State Fault Refusal := s.onHub fun h => h.keySet c.toNat value.toNat
/-- CONFIRM_WINDOW_END (R390). -/
def execConfirmWindowEnd (c : Byte) (i : Nat) (s : State) : Host.Outcome State Fault Refusal := s.onHub fun h => h.windowEnd c.toNat i

end Sys2Proof.Machine
end

