-- ==== Sys2Proof/Machine/OpExec.lean ====
section
/-! DEFINITION. OpExec.lean: the meanings of the engine operations: each is one slot word that the code of logical engine
`n` issues, sample program or background code (`bg`) by the bank in view. -/

namespace Sys2Proof.Machine

/-- MPY (R220). -/
def execMpy (n : Fin 16) (bg : Bool) (hd : Hdr) (f : MM) (s : State) : Host.Outcome State Fault Refusal :=
  s.onHub fun h => h.slot n bg (.mpy n bg hd f)

/-- MAC (R220). -/
def execMac (n : Fin 16) (bg : Bool) (hd : Hdr) (f : MM) (s : State) : Host.Outcome State Fault Refusal :=
  s.onHub fun h => h.slot n bg (.mac n bg hd f)

/-- MSU (R220). -/
def execMsu (n : Fin 16) (bg : Bool) (hd : Hdr) (f : MM) (s : State) : Host.Outcome State Fault Refusal :=
  s.onHub fun h => h.slot n bg (.msu n bg hd f)

/-- MPYD (R220). -/
def execMpyd (n : Fin 16) (bg : Bool) (hd : Hdr) (f : MM) (s : State) : Host.Outcome State Fault Refusal :=
  s.onHub fun h => h.slot n bg (.mpyd n bg hd f)

/-- MACD (R220). -/
def execMacd (n : Fin 16) (bg : Bool) (hd : Hdr) (f : MM) (s : State) : Host.Outcome State Fault Refusal :=
  s.onHub fun h => h.slot n bg (.macd n bg hd f)

/-- MSUD (R220). -/
def execMsud (n : Fin 16) (bg : Bool) (hd : Hdr) (f : MM) (s : State) : Host.Outcome State Fault Refusal :=
  s.onHub fun h => h.slot n bg (.msud n bg hd f)

/-- ACLR (R221). -/
def execAclr (n : Fin 16) (bg : Bool) (hd : Hdr) (f : MM) (s : State) : Host.Outcome State Fault Refusal :=
  s.onHub fun h => h.slot n bg (.aclr n bg hd f)

/-- ASHF (R221). -/
def execAshf (n : Fin 16) (bg : Bool) (hd : Hdr) (f : MM) (s : State) : Host.Outcome State Fault Refusal :=
  s.onHub fun h => h.slot n bg (.ashf n bg hd f)

/-- AADD (R221). -/
def execAadd (n : Fin 16) (bg : Bool) (hd : Hdr) (f : MM) (s : State) : Host.Outcome State Fault Refusal :=
  s.onHub fun h => h.slot n bg (.aadd n bg hd f)

/-- ASUB (R221). -/
def execAsub (n : Fin 16) (bg : Bool) (hd : Hdr) (f : MM) (s : State) : Host.Outcome State Fault Refusal :=
  s.onHub fun h => h.slot n bg (.asub n bg hd f)

/-- ALU (R222). -/
def execAlu (n : Fin 16) (bg : Bool) (hd : Hdr) (f : XR) (s : State) : Host.Outcome State Fault Refusal :=
  s.onHub fun h => h.slot n bg (.alu n bg hd f)

/-- SHF (R223). -/
def execShf (n : Fin 16) (bg : Bool) (hd : Hdr) (f : XR) (s : State) : Host.Outcome State Fault Refusal :=
  s.onHub fun h => h.slot n bg (.shf n bg hd f)

/-- CMP (R224). -/
def execCmp (n : Fin 16) (bg : Bool) (hd : Hdr) (f : XR) (s : State) : Host.Outcome State Fault Refusal :=
  s.onHub fun h => h.slot n bg (.cmp n bg hd f)

/-- EXT (R226). -/
def execOpExt (n : Fin 16) (bg : Bool) (hd : Hdr) (f : XR) (s : State) : Host.Outcome State Fault Refusal :=
  s.onHub fun h => h.slot n bg (.opExt n bg hd f)

/-- INS (R227). -/
def execIns (n : Fin 16) (bg : Bool) (hd : Hdr) (f : XR) (s : State) : Host.Outcome State Fault Refusal :=
  s.onHub fun h => h.slot n bg (.ins n bg hd f)

/-- ACS (R230). -/
def execAcs (n : Fin 16) (bg : Bool) (hd : Hdr) (f : XR) (s : State) : Host.Outcome State Fault Refusal :=
  s.onHub fun h => h.slot n bg (.acs n bg hd f)

/-- DALU (R225). -/
def execDalu (n : Fin 16) (bg : Bool) (hd : Hdr) (f : XR) (s : State) : Host.Outcome State Fault Refusal :=
  s.onHub fun h => h.slot n bg (.dalu n bg hd f)

/-- MOV (R228). -/
def execOpMov (n : Fin 16) (bg : Bool) (hd : Hdr) (f : XR) (s : State) : Host.Outcome State Fault Refusal :=
  s.onHub fun h => h.slot n bg (.opMov n bg hd f)

/-- LDX (R229). -/
def execLdx (n : Fin 16) (bg : Bool) (hd : Hdr) (f : TI) (s : State) : Host.Outcome State Fault Refusal :=
  s.onHub fun h => h.slot n bg (.ldx n bg hd f)

/-- ASRC_PUT (R205). -/
def execAsrcPut (n : Fin 16) (bg : Bool) (hd : Hdr) (f : XE) (s : State) : Host.Outcome State Fault Refusal :=
  s.onHub fun h => h.slot n bg (.asrcPut n bg hd f)

/-- ASRC_GET (R205). -/
def execAsrcGet (n : Fin 16) (bg : Bool) (hd : Hdr) (f : XE) (s : State) : Host.Outcome State Fault Refusal :=
  s.onHub fun h => h.slot n bg (.asrcGet n bg hd f)

/-- ASRC_STATUS (R205). -/
def execAsrcStatus (n : Fin 16) (bg : Bool) (hd : Hdr) (f : XE) (s : State) : Host.Outcome State Fault Refusal :=
  s.onHub fun h => h.slot n bg (.asrcStatus n bg hd f)

/-- FFT_SUBMIT (R205). -/
def execFftSubmit (n : Fin 16) (bg : Bool) (hd : Hdr) (f : XE) (s : State) : Host.Outcome State Fault Refusal :=
  s.onHub fun h => h.slot n bg (.fftSubmit n bg hd f)

/-- FFT_POLL (R205). -/
def execFftPoll (n : Fin 16) (bg : Bool) (hd : Hdr) (f : XE) (s : State) : Host.Outcome State Fault Refusal :=
  s.onHub fun h => h.slot n bg (.fftPoll n bg hd f)

/-- CORRELATOR_SUBMIT (R205). -/
def execCorrelatorSubmit (n : Fin 16) (bg : Bool) (hd : Hdr) (f : XE) (s : State) : Host.Outcome State Fault Refusal :=
  s.onHub fun h => h.slot n bg (.correlatorSubmit n bg hd f)

/-- CORRELATOR_POLL (R205). -/
def execCorrelatorPoll (n : Fin 16) (bg : Bool) (hd : Hdr) (f : XE) (s : State) : Host.Outcome State Fault Refusal :=
  s.onHub fun h => h.slot n bg (.correlatorPoll n bg hd f)

/-- VERSION_QUERY (R206). -/
def execVersionQuery (n : Fin 16) (bg : Bool) (hd : Hdr) (f : XE) (s : State) : Host.Outcome State Fault Refusal :=
  s.onHub fun h => h.slot n bg (.versionQuery n bg hd f)

/-- XL_OPCODE (R204). -/
def execXlOpcode (n : Fin 16) (bg : Bool) (hd : Hdr) (op : Fin 8) (f : XE) (s : State) : Host.Outcome State Fault Refusal :=
  s.onHub fun h => h.slot n bg (.xlOpcode n bg hd op f)

/-- LD (R235). -/
def execLd (n : Fin 16) (bg : Bool) (hd : Hdr) (f : TM) (s : State) : Host.Outcome State Fault Refusal :=
  s.onHub fun h => h.slot n bg (.ld n bg hd f)

/-- ST (R239). -/
def execSt (n : Fin 16) (bg : Bool) (hd : Hdr) (f : TM) (s : State) : Host.Outcome State Fault Refusal :=
  s.onHub fun h => h.slot n bg (.st n bg hd f)

/-- MODP (R237). -/
def execModp (n : Fin 16) (bg : Bool) (hd : Hdr) (f : TM) (s : State) : Host.Outcome State Fault Refusal :=
  s.onHub fun h => h.slot n bg (.modp n bg hd f)

/-- LDI (R240). -/
def execLdi (n : Fin 16) (bg : Bool) (hd : Hdr) (f : TI) (s : State) : Host.Outcome State Fault Refusal :=
  s.onHub fun h => h.slot n bg (.ldi n bg hd f)

/-- LDIP (R240). -/
def execLdip (n : Fin 16) (bg : Bool) (hd : Hdr) (f : TI) (s : State) : Host.Outcome State Fault Refusal :=
  s.onHub fun h => h.slot n bg (.ldip n bg hd f)

/-- LDIO (R240). -/
def execLdio (n : Fin 16) (bg : Bool) (hd : Hdr) (f : TI) (s : State) : Host.Outcome State Fault Refusal :=
  s.onHub fun h => h.slot n bg (.ldio n bg hd f)

/-- LDIB (R240). -/
def execLdib (n : Fin 16) (bg : Bool) (hd : Hdr) (f : TI) (s : State) : Host.Outcome State Fault Refusal :=
  s.onHub fun h => h.slot n bg (.ldib n bg hd f)

/-- LDIL (R240). -/
def execLdil (n : Fin 16) (bg : Bool) (hd : Hdr) (f : TI) (s : State) : Host.Outcome State Fault Refusal :=
  s.onHub fun h => h.slot n bg (.ldil n bg hd f)

/-- LDIR (R240). -/
def execLdir (n : Fin 16) (bg : Bool) (hd : Hdr) (f : TI) (s : State) : Host.Outcome State Fault Refusal :=
  s.onHub fun h => h.slot n bg (.ldir n bg hd f)

/-- FLD (R241). -/
def execFld (n : Fin 16) (bg : Bool) (hd : Hdr) (f : TF) (s : State) : Host.Outcome State Fault Refusal :=
  s.onHub fun h => h.slot n bg (.fld n bg hd f)

/-- FST (R241). -/
def execFst (n : Fin 16) (bg : Bool) (hd : Hdr) (f : TF) (s : State) : Host.Outcome State Fault Refusal :=
  s.onHub fun h => h.slot n bg (.fst n bg hd f)

/-- PUSH (R250). -/
def execPush (n : Fin 16) (bg : Bool) (hd : Hdr) (f : TM) (s : State) : Host.Outcome State Fault Refusal :=
  s.onHub fun h => h.slot n bg (.push n bg hd f)

/-- POP (R250). -/
def execPop (n : Fin 16) (bg : Bool) (hd : Hdr) (f : TM) (s : State) : Host.Outcome State Fault Refusal :=
  s.onHub fun h => h.slot n bg (.pop n bg hd f)

/-- NOP (R192). -/
def execOpNop (n : Fin 16) (bg : Bool) (hd : Hdr) (s : State) : Host.Outcome State Fault Refusal :=
  s.onHub fun h => h.slot n bg (.opNop n bg hd)

/-- END (R192). -/
def execOpEnd (n : Fin 16) (bg : Bool) (hd : Hdr) (x : EndIn) (s : State) : Host.Outcome State Fault Refusal :=
  s.onHub fun h => h.slot n bg (.opEnd n bg hd x)

/-- REP (R247). -/
def execOpRep (n : Fin 16) (bg : Bool) (hd : Hdr) (f : KR) (s : State) : Host.Outcome State Fault Refusal :=
  s.onHub fun h => h.slot n bg (.opRep n bg hd f)

/-- DO (R243). -/
def execOpDo (n : Fin 16) (bg : Bool) (hd : Hdr) (cm1 : BitVec 12) (ofs : Byte) (s : State) : Host.Outcome State Fault Refusal :=
  s.onHub fun h => h.slot n bg (.opDo n bg hd cm1 ofs)

/-- DOR (R243). -/
def execDor (n : Fin 16) (bg : Bool) (hd : Hdr) (s : State) : Host.Outcome State Fault Refusal :=
  s.onHub fun h => h.slot n bg (.dor n bg hd)

/-- CALL (R249). -/
def execCall (n : Fin 16) (bg : Bool) (hd : Hdr) (tgt : BitVec 15) (lit : BitVec 32) (s : State) : Host.Outcome State Fault Refusal :=
  s.onHub fun h => h.slot n bg (.call n bg hd tgt lit)

/-- RET (R249). -/
def execRet (n : Fin 16) (bg : Bool) (hd : Hdr) (s : State) : Host.Outcome State Fault Refusal :=
  s.onHub fun h => h.slot n bg (.ret n bg hd)

/-- WFE (R253). -/
def execWfe (n : Fin 16) (bg : Bool) (hd : Hdr) (f : KW) (s : State) : Host.Outcome State Fault Refusal :=
  s.onHub fun h => h.slot n bg (.wfe n bg hd f)

/-- SEV (R253). -/
def execSev (n : Fin 16) (bg : Bool) (hd : Hdr) (f : KW) (s : State) : Host.Outcome State Fault Refusal :=
  s.onHub fun h => h.slot n bg (.sev n bg hd f)

/-- WTC (R254). -/
def execWtc (n : Fin 16) (bg : Bool) (hd : Hdr) (f : KW) (s : State) : Host.Outcome State Fault Refusal :=
  s.onHub fun h => h.slot n bg (.wtc n bg hd f)

/-- WFC (R255). -/
def execWfc (n : Fin 16) (bg : Bool) (hd : Hdr) (s : State) : Host.Outcome State Fault Refusal :=
  s.onHub fun h => h.slot n bg (.wfc n bg hd)

/-- ACSTB (R231). -/
def execAcstb (n : Fin 16) (bg : Bool) (hd : Hdr) (s : State) : Host.Outcome State Fault Refusal :=
  s.onHub fun h => h.slot n bg (.acstb n bg hd)

/-- BR (R203). -/
def execBr (n : Fin 16) (bg : Bool) (hd : Hdr) (tgt : BitVec 15) (s : State) : Host.Outcome State Fault Refusal :=
  s.onHub fun h => h.slot n bg (.br n bg hd tgt)

/-- BRP (R203). -/
def execBrp (n : Fin 16) (bg : Bool) (hd : Hdr) (f : XR) (s : State) : Host.Outcome State Fault Refusal :=
  s.onHub fun h => h.slot n bg (.brp n bg hd f)

end Sys2Proof.Machine
end

