-- ==== Sys2Proof/Machine/RtmExec.lean ====
section
/-! DEFINITION. RtmExec.lean: the meanings of the commands of the AES3 ports and of the route matrix. -/

namespace Sys2Proof.Machine

/-- AES_SUBFRAME_RX (R412). -/
def execAesSubframeRx (i ch : Fin 2) (word : BitVec 24) (v user cs parity violation : Bool) (s : State) : Host.Outcome State Fault Refusal :=
  s.onHub fun h => h.aesSubframe i ch word v user cs parity violation
/-- AES_BLOCK_END (R407). -/
def execAesBlockEnd (i : Fin 2) (rate : BitVec 32) (aligned alternating : Bool) (s : State) : Host.Outcome State Fault Refusal :=
  s.onHub fun h => h.aesBlockEnd i rate.toNat aligned alternating
/-- AES_LOCK_LOST (R408). -/
def execAesLockLost (i : Fin 2) (cause : Fin 4) (s : State) : Host.Outcome State Fault Refusal := s.onHub fun h => h.aesUnlock i cause
/-- AES_INPUT_ENABLE (R427): a write of AES_ICFGi with EN = 1. -/
def execAesInputEnable (i : Fin 2) (value : Word) (s : State) : Host.Outcome State Fault Refusal :=
  s.onHub fun h => h.icfgWrite i (putBits value.toNat 15 15 1)
/-- AES_INPUT_DISABLE (R427): a write of AES_ICFGi that changes EN to 0 and nothing else. -/
def execAesInputDisable (i : Fin 2) (s : State) : Host.Outcome State Fault Refusal := s.onHub fun h => h.icfgWrite i (putBits (h.reg (0x42 + i)) 15 15 0)
/-- AES_INPUT_CONFIG (R427): a write of AES_ICFGi that keeps EN. -/
def execAesInputConfig (i : Fin 2) (value : Word) (s : State) : Host.Outcome State Fault Refusal :=
  s.onHub fun h => h.icfgWrite i (putBits value.toNat 15 15 (h.fld (0x42 + i) 15 15))
/-- AES_OUTPUT_ENABLE (R422): a write of AES_OCFGo with EN = 1. -/
def execAesOutputEnable (o : Fin 2) (value : Word) (s : State) : Host.Outcome State Fault Refusal :=
  s.onHub fun h => h.ocfgWrite o (putBits value.toNat 15 15 1)
/-- AES_OUTPUT_DISABLE (R424): a write of AES_OCFGo with EN = 0. -/
def execAesOutputDisable (o : Fin 2) (value : Word) (s : State) : Host.Outcome State Fault Refusal :=
  s.onHub fun h => h.ocfgWrite o (putBits value.toNat 15 15 0)
/-- SLOT_ALLOCATE (R466): a write of a slot's second word. -/
def execSlotAllocate (slot : Fin 512) (unit : Word) (s : State) : Host.Outcome State Fault Refusal := s.onHub fun h => h.slotWrite slot unit.toNat

/-- The first three words of an entry stored, and the write of word +3. -/
def Hub.xpStore (h : Hub) (x w0 snk gain ramp : Nat) : Hub :=
  (((h.setReg (kXp x 0) w0).setReg (kXp x 1) snk).setReg (kXp x 2) gain).xpWrite x ramp

/-- XP_CREATE (R471): a write of the four words with V = 1. -/
def execXpCreate (x : Fin 4096) (w0 : Word) (snk : Fin 512) (gain ramp : Word) (s : State) : Host.Outcome State Fault Refusal :=
  s.onHub fun h => h.xpStore x (putBits w0.toNat 15 15 1) snk gain.toNat ramp.toNat
/-- XP_CHANGE (R471): V, SRC and SNK stay as stored. -/
def execXpChange (x : Fin 4096) (w0 gain ramp : Word) (s : State) : Host.Outcome State Fault Refusal :=
  s.onHub fun h =>
    h.xpStore x (putBits (putBits w0.toNat 15 15 (h.fld (kXp x 0) 15 15)) 8 0 (h.fld (kXp x 0) 8 0)) (h.reg (kXp x 1)) gain.toNat ramp.toNat
/-- XP_REPLACE_SOURCE (R472): only SRC changes. -/
def execXpReplaceSource (x : Fin 4096) (src : Fin 512) (s : State) : Host.Outcome State Fault Refusal :=
  s.onHub fun h => h.xpStore x (putBits (h.reg (kXp x 0)) 8 0 src) (h.reg (kXp x 1)) (h.reg (kXp x 2)) (h.reg (kXp x 3))
/-- XP_REMOVE (R471): V = 0. -/
def execXpRemove (x : Fin 4096) (ramp : Word) (s : State) : Host.Outcome State Fault Refusal :=
  s.onHub fun h => h.xpStore x (putBits (h.reg (kXp x 0)) 15 15 0) (h.reg (kXp x 1)) (h.reg (kXp x 2)) ramp.toNat
/-- CROSSFADE_END (R472). -/
def execCrossfadeEnd (x : Fin 4096) (s : State) : Host.Outcome State Fault Refusal := s.onHub fun h => h.fadeOver x
/-- SCENE_GO (R474): a write of RTM_GO. -/
def execSceneGo (value : Word) (s : State) : Host.Outcome State Fault Refusal := s.onHub fun h => h.sceneGo value.toNat
/-- ACTIVE_HOLD_END (R473). -/
def execActiveHoldEnd (x : Fin 4096) (s : State) : Host.Outcome State Fault Refusal := s.onHub fun h => h.holdEnd x
/-- NAG_WRITE (R478). -/
def execNagWrite (x : Fin 512) (value : Word) (s : State) : Host.Outcome State Fault Refusal := s.onWrite fun h => h.nagWrite x value.toNat

end Sys2Proof.Machine
end

