-- ==== Sys2Proof/Machine/Boot.lean ====
section
/-! DEFINITION. Boot.lean: boot images: their headers, verification, and the execution of their records (R596 to R600). -/

namespace Sys2Proof.Machine

def Hub.modBoot (h : Hub) (f : Boot → Boot) : Hub := h.modPwr fun p => { p with boot := f p.boot }

/-! ### Headers (R596, R597) -/

/-- The bytes of image `i`: object 0 of partition `i`. -/
def Hub.imageBytes (h : Hub) (i : Nat) : Option (List Byte) := (h.nand.obj (4096 * i)).map fun o => o.pages.flatten.take o.len

/-- VERSION and BODYLEN of a header. -/
def imgVersion (b : List Byte) : Nat := beAt b 4 4
def imgBodyLen (b : List Byte) : Nat := beAt b 8 4

/-- Does a header meet R596. -/
def headerOk (b : List Byte) : Bool :=
  let n := imgBodyLen b
  let zero := fun (l : List Byte) => l.all (· == 0)
  decide (128 ≤ b.length) && beAt b 0 2 == 0x4C42 && beAt b 2 2 == 1 && n % 2 == 0 && decide (2 ≤ n) && decide (128 + n ≤ b.length) &&
    decide (beAt b 12 1 ≤ 1) && zero ((b.drop 13).take 3) && zero ((b.drop 112).take 16)

/-- The hash of boot key `k` in slot 3, if a generation is selected. -/
def Hub.keyHash (h : Hub) (k : Nat) : Option (List Byte) :=
  (h.otpSel 3).map fun _ => (List.range 16).flatMap fun w => beBytes 2 (h.otpFeed 3 (16 * k + w) 0)

/-- Is the key that a header names one of the hub's (checks 2 and 3). -/
def Hub.keyOk (h : Hub) (b : List Byte) : Bool :=
  match h.keyHash (beAt b 12 1) with
  | some x => x.any (· != 0) && sha256 ((b.drop 16).take 32) == x
  | none => false

/-- An image is rejected: 1 header, 2 key, 3 signature, 4 missing or unreadable; its status is 2 rejected or 3 absent. -/
def Hub.bootRejected (h : Hub) (i cause st ver : Nat) : Hub :=
  ((h.setFld (kPwr 0x19) (2 * i + 1) (2 * i) st).setFlag (kPwr 0x23)).issue 241 4 i cause (ver % 65536)

/-- The header of image `i` is read, with what the NAND finds: the VERSION of a candidate. A stalled read gives zeros (R53). -/
def Hub.headerRead (h : Hub) (i : Nat) (x : NandIn) : Hub × Option Nat :=
  match h.nand.obj (4096 * i) with
  | none => (h.bootRejected i 4 3 0, none)
  | some o =>
    let bad := x.bad.filter fun e => decide (e.1 < o.pages.length) && decide (e.2 < 8)
    let (h, lost) := h.stallTaken 8 0 241
    let bad := if lost then [] else bad
    let h := if lost then h else h.nandRead (4096 * i) (List.range o.pages.length) bad x.soft
    if ! bad.isEmpty then (h.bootRejected i 4 2 0, none)
    else
      let b := if lost then [] else o.pages.flatten.take o.len
      let h := h.setRegN (kPwr (0x15 + 2 * i)) 2 (imgVersion b)
      if ! headerOk b then (h.bootRejected i 1 2 (imgVersion b), none)
      else if ! h.keyOk b then (h.bootRejected i 2 2 (imgVersion b), none)
      else (h, some (imgVersion b))

/-- Both headers are read: the candidates by VERSION, highest first, A first of equals. -/
def Hub.readHeaders (h : Hub) (a b : NandIn) : Hub :=
  let (h, va) := h.headerRead 0 a
  let (h, vb) := h.headerRead 1 b
  let cands := match va, vb with
    | some x, some y => if x < y then [1, 0] else [0, 1]
    | some _, none => [0]
    | none, some _ => [1]
    | none, none => []
  h.modBoot fun s => { s with cands := some cands }

/-! ### The train-line start-up point and the end of booting (R591, R592) -/

/-- If BYP is 0 the train-line relay receives its open command. -/
def Hub.trainPoint (h : Hub) : Hub := if bit (h.reg 0x4A) 15 then h else h.tlOpen 1

/-- No image is accepted. -/
def Hub.bootNone (h : Hub) : Hub := ((h.toPhase 9).issue 241 5 0 0 0).trainPoint

/-! ### Verification (R597) -/

/-- Does an image's signature verify over bytes 0 to 15 followed by the body. -/
def signatureOk (b : List Byte) : Bool :=
  ed25519 ((b.drop 16).take 32) ((b.drop 48).take 64) (b.take 16 ++ (b.drop 128).take (imgBodyLen b))

/-- Image `i` is accepted and its execution starts: BOOTRUN, BOOTOK, BOOTIMG. -/
def Hub.bootAccept (h : Hub) (i : Nat) (b : List Byte) : Hub :=
  let h := (((h.setFld (kPwr 0x19) (2 * i + 1) (2 * i) 1).setFld 0x04 10 9 3).setFld 0x04 8 8 i).toPhase 7
  h.modBoot fun s => { s with cands := some [], body := (b.drop 128).take (imgBodyLen b), pos := 0, wait := .none, failed := false }

/-- The first candidate is verified; where it is the last and fails, no image is accepted. -/
def Hub.bootVerify (h : Hub) : Hub :=
  match h.pwr.boot.cands with
  | some (i :: rest) =>
    if h.phase < 5 ∨ h.bootRun then h
    else
      let b := (h.imageBytes i).getD []
      if signatureOk b then h.bootAccept i b
      else
        let h := (h.bootRejected i 3 2 (imgVersion b)).modBoot fun s => { s with cands := some rest }
        if rest.isEmpty then h.bootNone else h
  | _ => h

/-! ### Records (R598) -/

/-- Word `i` of the next record. -/
def Boot.word (s : Boot) (i : Nat) : Nat := beAt s.body (s.pos + 2 * i) 2

/-- Does the body hold `n` words from the next record on. -/
def Boot.has (s : Boot) (n : Nat) : Bool := decide (s.pos + 2 * n ≤ s.body.length)

/-- The words of the next record; none where its KIND is END or undefined, or it runs past the body. -/
def Boot.recordLen (s : Boot) : Option Nat :=
  let need := match bits (s.word 0) 15 12 with
    | 1 => if s.has 2 then 2 + s.word 1 else 2
    | 2 => if s.has 4 then 4 + s.word 3 else 4
    | 3 => 5
    | 4 => 2
    | _ => 0
  if need = 0 ∨ ! s.has need then none else some need

/-- Is a record of a KIND next, while nothing is awaited. -/
def Hub.atRecord (h : Hub) (kind : Nat) : Option Nat :=
  let s := h.pwr.boot
  if h.bootRun && s.wait == .none && bits (s.word 0) 15 12 == kind then s.recordLen else none

/-- The next record is passed. -/
def Hub.passRecord (h : Hub) (n : Nat) : Hub := h.modBoot fun s => { s with pos := s.pos + 2 * n }

/-- Failures are counted, and the first failing record is noted. -/
def Hub.bootFails (h : Hub) (n pos : Nat) : Hub :=
  if n = 0 then h
  else
    let h := (h.addSat (kPwr 0x11) 2 n).setFlag (kPwr 0x23)
    if h.pwr.boot.failed then h else (h.setRegN (kPwr 0x13) 2 pos).modBoot fun s => { s with failed := true }

/-- A direct register written by a record, as the path that owns writes would (R599). -/
def bootDirectWrite (x : Xfer) (a w : Nat) : Xfer := x.write (if a = 0x09 then x.h.owner else 2) a w

/-- A record's writes complete, as those of a frame do; failures of its DIRECT words show in the serial path's bank, those of
WINDOW words in none (R598). -/
def bootComplete (x : Xfer) (bank : Bool) : Xfer := let x := x.complete 2; if bank then x.told 2 else x

/-- The data words of a record from word `k` on. -/
def Boot.data (s : Boot) (k n : Nat) : List Nat := (List.range n).map fun i => s.word (k + i)

/-- A DIRECT record: as a WR frame; a COUNT or range that a frame would be refused for writes nothing. -/
def bootDirect (h : Hub) (q : EvQueue) : Hub × EvQueue :=
  match h.atRecord 1 with
  | none => (h, q)
  | some n =>
    let s := h.pwr.boot
    let a := bits (s.word 0) 6 0
    let cnt := s.word 1
    let h := h.passRecord n
    if cnt = 0 ∨ 128 < cnt ∨ 0x7F < a + cnt - 1 then (h.bootFails 1 s.pos, q)
    else
      let h := if a ≤ 0x14 ∧ 0x14 < a + cnt then h.modPath 2 fun b => { b with wstat := 0 } else h
      let x := bootComplete ((s.data 2 cnt).zipIdx.foldl (fun x w => bootDirectWrite x (a + w.2) w.1) { h := h, q := q }) true
      (x.h.bootFails x.bad s.pos, x.q)

/-- A WINDOW record: writes to consecutive offsets of a space. -/
def bootWindow (h : Hub) (q : EvQueue) : Hub × EvQueue :=
  match h.atRecord 2 with
  | none => (h, q)
  | some n =>
    let s := h.pwr.boot
    let o := 65536 * s.word 1 + s.word 2
    let h := h.passRecord n
    if s.word 3 = 0 then (h.bootFails 1 s.pos, q)
    else
      let x := bootComplete ((s.data 4 (s.word 3)).zipIdx.foldl
        (fun x w => x.spaceWrite 2 (bits (s.word 0) 7 0) ((o + w.2) % 2 ^ 32) w.1) { h := h, q := q }) false
      (x.h.bootFails x.bad s.pos, x.q)

/-- An FLOAD record: the command of R538 with its operands; the next record waits for its result. -/
def Hub.bootFload (h : Hub) (x : NandIn) : Hub :=
  match h.atRecord 3 with
  | none => h
  | some n =>
    let s := h.pwr.boot
    let h := h.passRecord n
    if h.nand.busy.isSome then h.bootFails 1 s.pos
    else
      let h := ((h.setReg (kCar 0x1001) (s.word 1 % 8)).setReg (kCar 0x1002) (s.word 2 % 4096)).setReg (kCar 0x1005) (s.word 0 % 16)
      let h := h.setEffN (kCar 0x1003) 2 (65536 * s.word 3 + s.word 4)
      (h.carCmd 9 x).modBoot fun b => { b with wait := .fload, from_ := s.pos }

/-- A store command completes; an FLOAD record that waits for it takes its RESULT. -/
def Hub.cmdDone (h : Hub) : Hub :=
  if h.nand.busy.isNone then h
  else
    let h := h.carDone
    if h.pwr.boot.wait = .fload then
      (h.bootFails (b2n (h.nand.result != 0)) h.pwr.boot.from_).modBoot fun b => { b with wait := .none }
    else h

/-- A WAIT record: a delay outside 1 to 10,000 ms fails and does not wait. -/
def Hub.bootWait (h : Hub) : Hub :=
  match h.atRecord 4 with
  | none => h
  | some n =>
    let s := h.pwr.boot
    let h := h.passRecord n
    if s.word 1 = 0 ∨ 10000 < s.word 1 then h.bootFails 1 s.pos else h.modBoot fun b => { b with wait := .delay, from_ := s.pos }

/-- The delay of a WAIT record ends. -/
def Hub.bootWaitEnd (h : Hub) : Hub := if h.pwr.boot.wait = .delay then h.modBoot fun b => { b with wait := .none } else h

/-- Execution ends: at END, or at a record that cannot be executed, which also fails. -/
def Hub.bootEnd (h : Hub) : Hub :=
  let s := h.pwr.boot
  if ! h.bootRun ∨ s.wait ≠ .none ∨ s.recordLen.isSome then h
  else
    let h := if s.has 1 ∧ bits (s.word 0) 15 12 = 0 then h else h.bootFails 1 s.pos
    let i := h.fld 0x04 8 8
    let h := ((h.setFld 0x04 10 10 0).modBoot fun b => { b with body := [], pos := 0 }).toPhase 8
    (h.issue 241 3 i (h.reg (kPwr (0x15 + 2 * i))) (h.reg (kPwr 0x11))).trainPoint

end Sys2Proof.Machine
end

