-- ==== Sys2Proof/Machine/Startup.lean ====
section
/-! DEFINITION. Startup.lean: the start of the fabric, the OTP load, the mount, the amplifier level and the ROM chime path,
system reset and the stop of the logic (R16, R125, R542, R543, R591 to R603, R637). -/

namespace Sys2Proof.Machine

/-! ### The fabric (R132, R591, R637) -/

/-- LOSTCNT, SUPCNT and LOSTALL start at 0 (R132). -/
def lossCounter (k : Nat) : Bool := (decide (spc 0x02 0x2100 ≤ k) && decide (k < spc 0x02 0x2500)) || k == spc 0x02 0x2602 || k == spc 0x02 0x2603

/-- The events that sources held before the queue started, issued again in their order with stamp 0 (R132). -/
def Hub.reissue (h : Hub) (l : List EvRecord) : Hub :=
  l.foldl (fun h r => h.issue r.src.toNat r.code.toNat r.data0.toNat r.data1.toNat r.data2.toNat) h

/-- What the XL detection finds: ID and the opcode mask, or no module (R637). -/
def Hub.xlDetect (h : Hub) (xl : Option (Byte × Byte)) : Hub :=
  match xl with
  | some (i, m) => { h.setReg 0x27 (0x8000 + i.toNat) with clu := { h.clu with xlMask := m } }
  | none => { h.setReg 0x27 0 with clu := { h.clu with xlMask := 0 } }

/-- Step 3 of the start-up, `ms` after time zero: the queue starts, SYS_STARTED, then what the sources held; PHASE 1. -/
def fabricStart (h : Hub) (ms : Nat) (xl : Option (Byte × Byte)) : Hub × EvQueue :=
  let held := h.ev.inflight
  let h : Hub := { h with ev := { EvSources.start with windows := h.ev.windows }, regs := h.regs.filter fun e => !lossCounter e.1 }
  let h := (h.modPwr fun p => { p with running := true, zeroMs := ms, startMs := h.refMs }).toPhase 1
  let h := ((h.xlDetect xl).issue 241 1 (h.fld 0x04 5 4) (ms % 65536) 0).reissue held
  (h, .start h.refMs)

/-- FABRIC_START: the supply is qualified and the fabric does not run yet. -/
def powerOn (h : Hub) (q : EvQueue) (ms : Nat) (xl : Option (Byte × Byte)) : Hub × EvQueue :=
  if (h.pwr.dc || h.pwr.ac) && !h.pwr.running then fabricStart h ms xl else (h, q)

/-- The OTP load completes; the cores load their entries 0 (R24, R76, R564). -/
def Hub.loadDone (h : Hub) (us : Nat) : Hub :=
  if !h.pwr.running || h.otp.loaded then h else ((((h.otpLoad us).toPhase 2).coreStart 0).coreStart 1).clkSync

/-! ### DRAM (R296, R591) -/

/-- DRAM is initialised and cleared: far and system regions, restore images, the telemetry ring and the caption pixels. -/
def Hub.dramInit (h : Hub) : Hub :=
  if ! h.pwr.running then h
  else
    let held := fun (k : Nat) => (decide (spc 0x31 0 ≤ k) && decide (k < spc 0x31 0x400000)) || (decide (spc 0x22 0 ≤ k) && decide (k < spc 0x22 0x80000))
    let h : Hub := { h with dram := [], dramUe := [], regs := h.regs.filter fun e => !held e.1 }
    (iter 16 (fun n h => h.modEng n fun e => { e with image := {} }) h).toPhase 4

/-! ### The ROM chime path (R593) -/

/-- The words of the ROM program, its constants and its X words. -/
def romWrites : List (Nat × Nat × Nat) :=
  ((List.range 1024).flatMap fun i =>
    [(0x10, 2 * (0x7800 + i), (Config.romProgram i).toNat % 65536), (0x10, 2 * (0x7800 + i) + 1, (Config.romProgram i).toNat / 65536)]) ++
  ((List.range 256).map fun i => (0x10, 0x20000 + 0x3F00 + i, (Config.romY i).toNat)) ++
  ((List.range 512).map fun i => (0x10, 0x10000 + 0x7A00 + i, (Config.romX i).toNat))

/-- The writes that set the chime path up, as space, offset and value; space 0 for a direct register. -/
def chimeWrites (outs : Nat) : List (Nat × Nat × Nat) :=
  romWrites ++ [(0x20, 2 * 511, 0x8000), (0x20, 2 * 511 + 1, 0)] ++
  ((List.range outs).flatMap fun n => [(0x20, 2 * (503 + n), 0x8005), (0x20, 2 * (503 + n) + 1, n)]) ++
  [(0x10, 0x40001, 1200), (0x10, 0x40101, 0x7800), (0x10, 0x40220, 0x81FF), (0x10, 0x40100, 0x8001)] ++
  ((List.range outs).map fun n => (0x3F, 0x880 + 16 * n, 503 + n)) ++ [(0, 0x4F, 0), (0, 0x4E, 2 ^ outs - 1)] ++
  ((List.range outs).flatMap fun n =>
    [(0x20, 0x1000 + 8 * (4088 + n), 0xB9FF), (0x20, 0x1001 + 8 * (4088 + n), 503 + n), (0x20, 0x1002 + 8 * (4088 + n), 0),
     (0x20, 0x1003 + 8 * (4088 + n), 10)])

/-- The hub sets the path up; a setting that fails adds 1 to BOOTERR, and the rest proceed. -/
def chimeSetup (h : Hub) (q : EvQueue) : Hub × EvQueue :=
  let x := (chimeWrites (if h.isL then 4 else 8)).foldl
    (fun x w => if w.1 = 0 then bootComplete (bootDirectWrite x w.2.1 w.2.2) true else bootComplete (x.spaceWrite 2 w.1 w.2.1 w.2.2) false)
    ({ h := h, q := q } : Xfer)
  let h := if x.bad = 0 then x.h else (x.h.addSat (kPwr 0x11) 2 x.bad).setFlag (kPwr 0x23)
  ((h.setFld 0x04 11 11 1).modPwr fun p => { p with chime := { awaited := true } }, x.q)

/-! ### Step 7 (R542, R543, R591) -/

/-- The store's mount is resolved and the amplifier rail is on: PHASE 5, the chime path, and BOOT_NONE where no image is a
candidate. -/
def stepSeven (h : Hub) (q : EvQueue) : Hub × EvQueue :=
  if h.nand.avail.isNone || !h.pwr.rail || decide (5 ≤ h.phase) then (h, q)
  else
    let r := chimeSetup (h.toPhase 5) q
    (if r.1.pwr.boot.cands = some [] then r.1.bootNone else r.1, r.2)

/-- The NAND mounts: LOG_RECOVERED, the recorder starts, and the headers of the images are read. With an empty log no page is
the newest. -/
def nandMount (h : Hub) (q : EvQueue) (a b : NandIn) : Hub × EvQueue :=
  if ! h.pwr.running ∨ h.nand.avail.isSome then (h, q)
  else
    let h := h.modNand fun n => { n with avail := some true }
    let newest := if h.nand.log.isEmpty then h.freeVal % 65536 else (h.nand.pseq - 1) % 65536
    let h := if h.nand.log.isEmpty then h.tookFree else h.setRegN (kCar 0x1300) 3 (h.nand.pseq - 1)
    let h := (h.issue 187 3 newest (h.nand.good 3).length (h.nand.retain / 4 % 65536)).recStart
    stepSeven (h.readHeaders a b) q

/-- The store is declared unavailable: both images are rejected (R543). -/
def mountFailed (h : Hub) (q : EvQueue) (cause : Nat) : Hub × EvQueue :=
  if ! h.pwr.running ∨ h.nand.avail.isSome then (h, q)
  else
    let h := ((h.modNand fun n => { n with avail := some false }).setFlag (kCar 0x1310)).issue 186 6 cause 0 0
    let h := ((h.bootRejected 0 4 2 0).bootRejected 1 4 2 0).modBoot fun s => { s with cands := some [] }
    stepSeven h q

/-- The store reaches the amplifier level and the amplifier rail is switched on. -/
def amplifierLevel (h : Hub) (q : EvQueue) : Hub × EvQueue :=
  if h.pwr.running then stepSeven (h.modPwr fun p => { p with rail := true }) q else (h, q)

/-! ### System reset and the stop of the logic (R16, R125, R578, R579, R603) -/

/-- The store as it is found by the next mount: no session, no running command. -/
def Store.kept (n : Store) : Store :=
  { avail := none, closed := false, objs := n.objs, blocks := n.blocks, cur := n.cur, gen := n.gen, log := n.log, logBlock := n.logBlock, pseq := n.pseq }

/-- What outlasts a stop of the logic: the NAND store, the OTP array and its count of Roasts, the ordering code and the
model's own counter. -/
def Hub.kept (h : Hub) : Hub :=
  let k : Hub := { Hub.reset with nand := h.nand.kept, otp := { words := h.otp.words }, free := h.free }
  (k.setReg 0x00 (h.reg 0x00)).setRegN (kOtp 0x1300) 2 (h.regN (kOtp 0x1300) 2)

/-- A system reset that is due restarts the hub from step 3, with RSTCAUSE 1: reference time goes on, and the inputs and the
power-loss signal are as they are. -/
def systemReset (h : Hub) (q : EvQueue) (xl : Option (Byte × Byte)) : Hub × EvQueue :=
  if ! h.cp.resetPending ∨ h.otp.roast.isSome then (h, q)
  else
    let k : Hub := { h.kept with refMs := h.refMs }
    let k := k.modPwr fun p => { p with dc := h.pwr.dc, ac := h.pwr.ac, loss := h.pwr.loss, lossAt := h.pwr.lossAt }
    let k := (k.modNand fun n => { n with closed := h.pwr.loss }).setFld 0x04 5 4 1
    fabricStart k h.sinceZero xl

/-- The store reaches the logic threshold during power loss: the logic stops, and a Roast that runs is cut. -/
def logicStop (h : Hub) (q : EvQueue) (cut : RoastBad) : Hub × EvQueue :=
  if h.pwr.loss then ((h.roastCut cut).kept, .start 0) else (h, q)

end Sys2Proof.Machine
end

