-- ==== Sys2Proof/Machine/StoreExec.lean ====
section
/-! DEFINITION. StoreExec.lean: the meanings of the commands of the scrubber, the store and the incident log. -/

namespace Sys2Proof.Machine

/-- SCRUB_READ (R529 to R532): `raced` says that another agent's write came between the read and the write-back; the word then holds the newer value, and nothing else differs. -/
def execScrubRead (dram : Bool) (ecc : Ecc) (raced : Bool) (use : ScrubUse) (s : State) : Host.Outcome State Fault Refusal :=
  s.onHub fun h => let _ := raced; h.scrubRead dram ecc use
/-- OPEN (R538): store command 1. -/
def execStoreOpen (s : State) : Host.Outcome State Fault Refusal := s.onWrite fun h => h.carCmd 1 {}
/-- WRITE (R538): store command 2. -/
def execStoreWrite (x : NandIn) (s : State) : Host.Outcome State Fault Refusal := s.onWrite fun h => h.carCmd 2 x
/-- COMMIT (R540): store command 3. -/
def execStoreCommit (s : State) : Host.Outcome State Fault Refusal := s.onWrite fun h => h.carCmd 3 {}
/-- ABORT (R538): store command 4. -/
def execStoreAbort (s : State) : Host.Outcome State Fault Refusal := s.onWrite fun h => h.carCmd 4 {}
/-- READ (R538): store command 5. -/
def execStoreRead (x : NandIn) (s : State) : Host.Outcome State Fault Refusal := s.onWrite fun h => h.carCmd 5 x
/-- DELETE (R540): store command 6. -/
def execStoreDelete (s : State) : Host.Outcome State Fault Refusal := s.onWrite fun h => h.carCmd 6 {}
/-- INFO (R538): store command 7. -/
def execStoreInfo (s : State) : Host.Outcome State Fault Refusal := s.onWrite fun h => h.carCmd 7 {}
/-- LOGREAD (R550): store command 8. -/
def execStoreLogRead (s : State) : Host.Outcome State Fault Refusal := s.onWrite fun h => h.carCmd 8 {}
/-- FLOAD (R538): store command 9. -/
def execStoreFload (x : NandIn) (s : State) : Host.Outcome State Fault Refusal := s.onWrite fun h => h.carCmd 9 x
/-- PATROL_READ (R536): `soft` names the blocks in which it finds 6 or more corrected bits. -/
def execPatrolRead (soft : List (Fin 4096)) (s : State) : Host.Outcome State Fault Refusal :=
  s.onHub fun h => h.patrol (soft.map (·.val))
/-- LOG_PAGE (R545 to R549). -/
def execLogPage (x : LogIn) (s : State) : Host.Outcome State Fault Refusal := s.onHub fun h => h.recPage x
/-- LOG_FREEZE (R549): FREEZE is written 1. -/
def execLogFreeze (s : State) : Host.Outcome State Fault Refusal := s.onHub fun h => h.logFreeze true
/-- LOG_RESUME (R549): FREEZE is written 0. -/
def execLogResume (s : State) : Host.Outcome State Fault Refusal := s.onHub fun h => h.logFreeze false
/-- LOG_MARK (R549): MARK is written. -/
def execLogMark (code : Byte) (s : State) : Host.Outcome State Fault Refusal := s.onHub fun h => h.logMark code.toNat

end Sys2Proof.Machine
end

