-- ==== Sys2Proof/Machine/StartExec.lean ====
section
/-! DEFINITION. StartExec.lean: the meanings of start-up, booting, supply, OTP and system reset, and of commands that those take part in. -/

namespace Sys2Proof.Machine

/-- FABRIC_START (R591): `ms` after time zero; `xl` is what the XL detection finds. -/
def execFabricStart (ms : Word) (xl : Option (Byte × Byte)) (s : State) : Host.Outcome State Fault Refusal :=
  s.onFabric fun h q => powerOn h q ms.toNat xl
/-- LOAD_DONE (R564): `us` is the load's time. -/
def execLoadDone (us : Word) (s : State) : Host.Outcome State Fault Refusal := s.onHub fun h => h.loadDone us.toNat
/-- ROAST_REQUEST (R572): a write of OTP_ROAST. -/
def execRoastRequest (value : Word) (s : State) : Host.Outcome State Fault Refusal :=
  s.onHub fun h => h.roastRequest value.toNat
/-- ROAST_DONE (R575, R576): the end of the Roast, with the word that failed and what the final read failed at. -/
def execRoastDone (hit : Option RoastBad) (final : Option RoastBad) (s : State) : Host.Outcome State Fault Refusal :=
  s.onHub fun h => h.roastDone hit final
/-- NAND_MOUNT (R542): what the NAND finds as it reads the images A and B. -/
def execNandMount (a : NandIn) (b : NandIn) (s : State) : Host.Outcome State Fault Refusal :=
  s.onQ fun h q => nandMount h q a b
/-- MOUNT_FAILED (R543): `cause` 0 no answer, 1 bad-block table unreadable. -/
def execMountFailed (cause : Fin 2) (s : State) : Host.Outcome State Fault Refusal :=
  s.onQ fun h q => mountFailed h q (cause.val + 1)
/-- INPUT_QUALIFIED (R584). -/
def execInputQualified (ac : Bool) (volt : Word) (freq : Word) (s : State) : Host.Outcome State Fault Refusal :=
  s.onSupply fun h => h.inputQualified ac volt.toNat freq.toNat
/-- INPUT_LOST (R584): `cause` 0 under, 1 over, 2 frequency. -/
def execInputLost (ac : Bool) (cause : Fin 3) (volt : Word) (s : State) : Host.Outcome State Fault Refusal :=
  s.onSupply fun h => h.inputLost ac (cause.val + 1) volt.toNat
/-- HOLDUP_UPDATE (R589). -/
def execHoldupUpdate (ms : Word) (chg : Fin 101) (vstore : Word) (s : State) : Host.Outcome State Fault Refusal :=
  s.onHub fun h => h.holdup ms.toNat chg.val vstore.toNat
/-- INPUT_POWER_UPDATE (R587). -/
def execInputPowerUpdate (w : Word) (vdc : Word) (vac : Word) (fac : Word) (s : State) : Host.Outcome State Fault Refusal :=
  s.onHub fun h => h.inputPower w.toNat vdc.toNat vac.toNat fac.toNat
/-- DRAM_INIT_DONE (R591). -/
def execDramInitDone (s : State) : Host.Outcome State Fault Refusal := s.onHub Hub.dramInit
/-- BOOT_VERIFY (R597). -/
def execBootVerify (s : State) : Host.Outcome State Fault Refusal := s.onHub Hub.bootVerify
/-- BOOT_END_RECORD (R598). -/
def execBootEndRecord (s : State) : Host.Outcome State Fault Refusal := s.onHub Hub.bootEnd
/-- BOOT_DIRECT (R598). -/
def execBootDirect (s : State) : Host.Outcome State Fault Refusal := s.onQ bootDirect
/-- BOOT_WINDOW (R598). -/
def execBootWindow (s : State) : Host.Outcome State Fault Refusal := s.onQ bootWindow
/-- BOOT_FLOAD (R598): what the NAND finds as the object is read. -/
def execBootFload (x : NandIn) (s : State) : Host.Outcome State Fault Refusal := s.onHub fun h => h.bootFload x
/-- BOOT_WAIT (R598). -/
def execBootWait (s : State) : Host.Outcome State Fault Refusal := s.onHub Hub.bootWait
/-- BOOT_WAIT_END (R598). -/
def execBootWaitEnd (s : State) : Host.Outcome State Fault Refusal := s.onHub Hub.bootWaitEnd
/-- CHIME_REQUEST (R594): a write of SYS_CHIMECMD. -/
def execChimeRequest (value : Word) (s : State) : Host.Outcome State Fault Refusal := s.onHub fun h => h.chimeCmd value.toNat
/-- CHIME_RELEASE (R595): a write of SYS_CHIMECMD. -/
def execChimeRelease (value : Word) (s : State) : Host.Outcome State Fault Refusal := s.onHub fun h => h.chimeCmd value.toNat
/-- AMP_SHED (R601). -/
def execAmpShed (s : State) : Host.Outcome State Fault Refusal := s.onHub Hub.ampShed
/-- BYPASS_RELEASE (R601). -/
def execBypassRelease (s : State) : Host.Outcome State Fault Refusal := s.onHub Hub.bypassRelease
/-- LOGIC_STOP (R603): `cut` is the word of a running Roast that the stop leaves unfinished. -/
def execLogicStop (cut : RoastBad) (s : State) : Host.Outcome State Fault Refusal :=
  s.onFabric fun h q => logicStop h q cut
/-- THERMAL_SAMPLE (R604, R605). -/
def execThermalSample (renza : Word) (heatsink : Word) (air : Word) (s : State) : Host.Outcome State Fault Refusal :=
  s.onHub fun h => h.thermal renza.toNat heatsink.toNat air.toNat
/-- AMPLIFIER_LEVEL (R591). -/
def execAmplifierLevel (s : State) : Host.Outcome State Fault Refusal := s.onQ amplifierLevel
/-- CAPACITY_MEASURED (R590): `short` says that it would give less than 1 s of logic hold-up. -/
def execCapacityMeasured (cap : Byte) (short : Bool) (s : State) : Host.Outcome State Fault Refusal :=
  s.onHub fun h => h.capacity cap.toNat short
/-- SYSTEM_RESET (R125): the reset that SYS_RESET requested; `xl` is what the XL detection finds. -/
def execSystemReset (xl : Option (Byte × Byte)) (s : State) : Host.Outcome State Fault Refusal :=
  s.onQ fun h q => systemReset h q xl
/-- CMD_DONE (R539). -/
def execCmdDone (s : State) : Host.Outcome State Fault Refusal := s.onHub Hub.cmdDone
/-- AMP_RAMP_END (R446, R447). -/
def execAmpRampEnd (n : Fin 8) (s : State) : Host.Outcome State Fault Refusal := s.onHub fun h => (h.ampRampEnd n).chimeReady
/-- FIELD_INPUT_SAMPLE (R455 to R457): `mv` is the input's voltage in mV. -/
def execFieldInputSample (i : Fin 16) (mv : Int) (s : State) : Host.Outcome State Fault Refusal :=
  s.onHub fun h => (h.finSample i mv).chimeInput i (bit (h.reg 0x54) i)
/-- TL_RELAY_OPEN (R439): BYP is written 0; before the train-line start-up point the relay stays closed (R592). -/
def execTlRelayOpen (s : State) : Host.Outcome State Fault Refusal := s.onHub fun h => (h.setFld 0x4A 15 15 0).tlOpen 2
/-- XP_RAMP_END (R470). -/
def execXpRampEnd (x : Fin 4096) (s : State) : Host.Outcome State Fault Refusal := s.onHub fun h => (h.rampEnd x).chimeFreed

end Sys2Proof.Machine
end

