-- ==== Sys2Proof/Machine/SubstExec.lean ====
section
/-! DEFINITION. SubstExec.lean: the meanings of the commands that enable, move and replace engines. -/

namespace Sys2Proof.Machine

/-- SAMPLE_PROGRAM_ENABLE (R157, R158): a write of SE_CTL with SPEN = 1. -/
def execSampleProgramEnable (n : Fin 16) (ctl : Word) (s : State) : Host.Outcome State Fault Refusal :=
  s.onWrite fun h => h.ctlHost n (putBits ctl.toNat 15 15 1)
/-- SAMPLE_PROGRAM_DISABLE (R158): a write of SE_CTL that clears SPEN. -/
def execSampleProgramDisable (n : Fin 16) (s : State) : Host.Outcome State Fault Refusal :=
  s.onWrite fun h => h.ctlWrite n (putBits (h.reg (kSe n 0x100)) 15 15 0)
/-- ENGINE_DOMAIN_CHANGE (R157): a write of SE_CTL that changes DOM. -/
def execEngineDomainChange (n : Fin 16) (dom : Fin 4) (s : State) : Host.Outcome State Fault Refusal :=
  s.onWrite fun h => h.ctlWrite n (putBits (h.reg (kSe n 0x100)) 9 8 dom)
/-- BACKGROUND_ENABLE (R164, R484): a write of SE_CTL that sets BGEN. -/
def execBackgroundEnable (n : Fin 16) (s : State) : Host.Outcome State Fault Refusal :=
  s.onWrite fun h => h.ctlHost n (putBits (h.reg (kSe n 0x100)) 14 14 1)
/-- ENGINE_FAIL_REQUEST (R170): a write of SE_FAILREQ. -/
def execEngineFailRequest (n : Fin 16) (key : Word) (s : State) : Host.Outcome State Fault Refusal :=
  s.onWrite fun h => h.failRequest n key.toNat
/-- ENGINE_RETIRED (R609 step 2, R614). -/
def execEngineRetired (n : Fin 16) (s : State) : Host.Outcome State Fault Refusal := s.onHub fun h => h.retire n
/-- SPARE_RESTORED (R609 step 3, R610): `us` is the time from the declaration to the spare's first program. -/
def execSpareRestored (n : Fin 16) (us : Word) (s : State) : Host.Outcome State Fault Refusal :=
  s.onHub fun h => h.restored n us
/-- SPARE_RESERVE (R169): a write of SE_SPARE. -/
def execSpareReserve (value : Word) (s : State) : Host.Outcome State Fault Refusal :=
  s.onHub fun h => h.spareReserve value.toNat

end Sys2Proof.Machine
end

