-- ==== Sys2Proof/Machine/Telemetry.lean ====
section
/-! DEFINITION. Telemetry.lean: the telemetry ring and its export (R551 to R554). -/

namespace Sys2Proof.Machine

/-- Word `o` of space 0x31. -/
def kTel (o : Nat) : Nat := spc 0x31 o

/-- TELCNT. -/
def Hub.telCnt (h : Hub) : Nat := h.regN (kTel 0x400000) 3

/-- The value of a quantity (R553). An amplifier's junction temperature and a tracking core's offset are open. -/
def Hub.telValue (h : Hub) (q : EvQueue) (e qty arg : Nat) : Nat :=
  match qty with
  | 0x01 => h.reg 0x2F
  | 0x02 => h.reg 0x6E
  | 0x03 => if arg = 0 then h.reg (spc 0x3F 0xD0A) else h.read3F (0x885 + 16 * (arg - 1))
  | 0x04 => ((List.range 8).map fun m => h.reg (spc 0x3F (0x108 + m))).foldl min 0xFFFF
  | 0x05 => q.fill
  | 0x06 => h.inflight
  | 0x07 => h.flying
  | 0x08 => (8192 - h.poolUsed) / 4
  | 0x09 => h.readWord q 0 (16 + arg) 0x40007
  | 0x0A => h.reg (kCal (16 * arg + 5))
  | 0x0B => h.read20 (0x9006 + 16 * h.ampSink arg)
  | 0x0C => h.readWord q 0 0x24 (0x241 + 8 * arg)
  | 0x0D => h.offsetSat
  | 0x0E => h.reg 0x76
  | 0x0F => h.nand.maxErase arg
  | _ => min 0xFFFF (h.scr.corr - tget (fun _ => 0) h.tel.drm e)

/-- Item `e` is due: its record is written (R551 to R553), unless the write into DRAM stalls (R53). -/
def Hub.telSample (h : Hub) (q : EvQueue) (e : Nat) : Hub :=
  let w := h.reg (kTel (0x400010 + 2 * e))
  if ! bit (h.reg 0x6C) 15 ∨ h.reg (kTel (0x400011 + 2 * e)) = 0 then h
  else
    let v := h.telValue q e (bits w 14 8) (bits w 7 0)
    let i := h.telCnt
    let k := kTel (4 * (i % 2 ^ 20))
    let h := if bits w 14 8 = 3 ∨ bits w 14 8 = 0xC then h.tookFree else h
    let h := { h with tel := { h.tel with drm := if bits w 14 8 = 0x10 then tput (fun _ => 0) h.tel.drm e h.scr.corr else h.tel.drm } }
    let (h, lost) := h.stallTaken 7 0 188
    let h := if lost then h else ((h.setReg k (0x8000 + w % 0x8000)).setReg (k + 1) v).setRegN (k + 2) 2 h.stamp.toNat
    h.addWrap (kTel 0x400000) 3 1

/-- The four words of a record of the ring. -/
def Hub.telRecord (h : Hub) (i : Nat) : List Nat := (List.range 4).map fun w => h.reg (kTel (4 * (i % 2 ^ 20) + w))

/-- The datagram of `n` records from number `i` on (R393, R554). -/
def Hub.telDatagram (h : Hub) (i n : Nat) : List Byte :=
  let t := h.reg (kTel 0x400103)
  let words := ((List.range n).flatMap fun j => h.telRecord (i + j)).flatMap fun w => beBytes 2 w
  fillUdp (h.wordBytes (kTel 0x400110) t ++ [0x4C, 0x56, 1, 3] ++ beBytes 2 h.tel.seq.toNat ++ beBytes 2 (3 + 4 * n) ++ beBytes 6 i ++ words) t true

/-- Records that the ring overwrote before export are skipped (R554). -/
def Hub.telSkip (h : Hub) : Hub :=
  let lost := h.telCnt - h.tel.next - 2 ^ 20
  if lost = 0 then h
  else
    let h := { h with tel := { h.tel with next := h.tel.next + lost } }
    ((h.addSat (kTel 0x400140) 2 lost).setFlag (kTel 0x400142)).issueLimited 0 188 1 (min 0xFFFF lost) (h.telCnt % 65536) 0

/-- A datagram is due: BATCH records wait, or the oldest has waited MAXAGE (R554). -/
def Hub.telExport (h : Hub) : Hub :=
  if ! bit (h.reg 0x6C) 14 then h
  else
    let h := h.telSkip
    let n := min (h.fld (kTel 0x400101) 7 0) (h.telCnt - h.tel.next)
    if n = 0 then h
    else
      let b := h.telDatagram h.tel.next n
      let h := { h with tel := { h.tel with next := h.tel.next + n, seq := h.tel.seq + 1 } }
      h.sendFrame (h.fld (kTel 0x400100) 9 0) b

/-- TELEMETRY_SAMPLE (R551). -/
def execTelemetrySample (e : Fin 64) (s : State) : Host.Outcome State Fault Refusal := s.onHub fun h => h.telSample s.q e

/-- TELEMETRY_EXPORT (R554). -/
def execTelemetryExport (s : State) : Host.Outcome State Fault Refusal := s.onHub Hub.telExport

end Sys2Proof.Machine
end

