-- ==== Sys2Proof/Machine/Dispatch.lean ====
section
/-! DEFINITION. Dispatch.lean: one arm per command. -/

namespace Sys2Proof.Machine

def exec (i : Instr) (s : State) : Host.Outcome State Fault Refusal :=
  match i with
  | .domainTick d x => Sys2Proof.Machine.execDomainTick d x s
  | .bundleLimitEnd n x => Sys2Proof.Machine.execBundleLimitEnd n x s
  | .sePlenWrite n len => Sys2Proof.Machine.execSePlenWrite n len s
  | .slackMinReset n => Sys2Proof.Machine.execSlackMinReset n s
  | .speedMonitorReading m rate => Sys2Proof.Machine.execSpeedMonitorReading m rate s
  | .ascEvaluation => Sys2Proof.Machine.execAscEvaluation s
  | .fabricStall link requester => Sys2Proof.Machine.execFabricStall link requester s
  | .coreLocked c coarse fine skips m => Sys2Proof.Machine.execCoreLocked c coarse fine skips m s
  | .searchFallback c => Sys2Proof.Machine.execSearchFallback c s
  | .fineCodeUpdate tj => Sys2Proof.Machine.execFineCodeUpdate tj s
  | .unlock c => Sys2Proof.Machine.execUnlock c s
  | .coreBaseTick c => Sys2Proof.Machine.execCoreBaseTick c s
  | .coreStopRequest c => Sys2Proof.Machine.execCoreStopRequest c s
  | .coreStopWithdraw c => Sys2Proof.Machine.execCoreStopWithdraw c s
  | .coreRestart c => Sys2Proof.Machine.execCoreRestart c s
  | .refSignalValid r offset drift m => Sys2Proof.Machine.execRefSignalValid r offset drift m s
  | .refQualified r offset drift m => Sys2Proof.Machine.execRefQualified r offset drift m s
  | .refLost r cause offset drift m => Sys2Proof.Machine.execRefLost r cause offset drift m s
  | .slewDone c m => Sys2Proof.Machine.execSlewDone c m s
  | .hopRequest c entry go => Sys2Proof.Machine.execHopRequest c entry go s
  | .hopDone c coarse fine us skips m => Sys2Proof.Machine.execHopDone c coarse fine us skips m s
  | .domainRebind d field => Sys2Proof.Machine.execDomainRebind d field s
  | .domainEnable d => Sys2Proof.Machine.execDomainEnable d s
  | .domainDisable d => Sys2Proof.Machine.execDomainDisable d s
  | .clkoEnable m => Sys2Proof.Machine.execClkoEnable m s
  | .clkoDisable m high => Sys2Proof.Machine.execClkoDisable m high s
  | .clkoStopComplete m => Sys2Proof.Machine.execClkoStopComplete m s
  | .clkoDividerChange m n half => Sys2Proof.Machine.execClkoDividerChange m n half s
  | .clkoDelayChange m delay => Sys2Proof.Machine.execClkoDelayChange m delay s
  | .clkoDomChange m dom => Sys2Proof.Machine.execClkoDomChange m dom s
  | .cpNop path tag addr w1 crc => Sys2Proof.Machine.execCpNop path tag addr w1 crc s
  | .cpRd path tag addr w1 crc => Sys2Proof.Machine.execCpRd path tag addr w1 crc s
  | .cpRdf path tag addr w1 crc => Sys2Proof.Machine.execCpRdf path tag addr w1 crc s
  | .cpWr path tag addr w1 data crc => Sys2Proof.Machine.execCpWr path tag addr w1 data crc s
  | .cpWrf path tag addr w1 data crc => Sys2Proof.Machine.execCpWrf path tag addr w1 data crc s
  | .cpRpl path tag addr w1 crc => Sys2Proof.Machine.execCpRpl path tag addr w1 crc s
  | .cpInvalidOp path words => Sys2Proof.Machine.execCpInvalidOp path words s
  | .frameTimeout words => Sys2Proof.Machine.execFrameTimeout words s
  | .frameShort words => Sys2Proof.Machine.execFrameShort words s
  | .tunnelDatagram p bytes => Sys2Proof.Machine.execTunnelDatagram p bytes s
  | .tunnelAttentionNotice => Sys2Proof.Machine.execTunnelAttentionNotice s
  | .ownerHandover w0 value => Sys2Proof.Machine.execOwnerHandover w0 value s
  | .ownerClaim w0 value => Sys2Proof.Machine.execOwnerClaim w0 value s
  | .leaseExpired => Sys2Proof.Machine.execLeaseExpired s
  | .windowRead path ecc => Sys2Proof.Machine.execWindowRead path ecc s
  | .windowWrite path w0 value => Sys2Proof.Machine.execWindowWrite path w0 value s
  | .conditionalClear space offset value => Sys2Proof.Machine.execConditionalClear space offset value s
  | .systemReset xl => Sys2Proof.Machine.execSystemReset xl s
  | .registerWrite space offset value => Sys2Proof.Machine.execRegisterWrite space offset value s
  | .eventEntry src => Sys2Proof.Machine.execEventEntry src s
  | .eventRelease value => Sys2Proof.Machine.execEventRelease value s
  | .attentionEvaluation => Sys2Proof.Machine.execAttentionEvaluation s
  | .rateLimitWindowEnd src code sub => Sys2Proof.Machine.execRateLimitWindowEnd src code sub s
  | .hwmReset => Sys2Proof.Machine.execHwmReset s
  | .fabricStart ms xl => Sys2Proof.Machine.execFabricStart ms xl s
  | .loadDone us => Sys2Proof.Machine.execLoadDone us s
  | .sampleProgramEnable n ctl => Sys2Proof.Machine.execSampleProgramEnable n ctl s
  | .sampleProgramDisable n => Sys2Proof.Machine.execSampleProgramDisable n s
  | .engineDomainChange n dom => Sys2Proof.Machine.execEngineDomainChange n dom s
  | .backgroundEnable n => Sys2Proof.Machine.execBackgroundEnable n s
  | .backgroundDisable n => Sys2Proof.Machine.execBackgroundDisable n s
  | .backgroundRestart n cmd => Sys2Proof.Machine.execBackgroundRestart n cmd s
  | .bgHalt n fetch => Sys2Proof.Machine.execBgHalt n fetch s
  | .illegalBundle n fetch => Sys2Proof.Machine.execIllegalBundle n fetch s
  | .engineFailRequest n key => Sys2Proof.Machine.execEngineFailRequest n key s
  | .engineRetired n => Sys2Proof.Machine.execEngineRetired n s
  | .spareRestored n us => Sys2Proof.Machine.execSpareRestored n us s
  | .spareReserve value => Sys2Proof.Machine.execSpareReserve value s
  | .eventLineSet n set => Sys2Proof.Machine.execEventLineSet n set s
  | .asrcAssign ch value => Sys2Proof.Machine.execAsrcAssign ch value s
  | .mpy n bg hd f => Sys2Proof.Machine.execMpy n bg hd f s
  | .mac n bg hd f => Sys2Proof.Machine.execMac n bg hd f s
  | .msu n bg hd f => Sys2Proof.Machine.execMsu n bg hd f s
  | .mpyd n bg hd f => Sys2Proof.Machine.execMpyd n bg hd f s
  | .macd n bg hd f => Sys2Proof.Machine.execMacd n bg hd f s
  | .msud n bg hd f => Sys2Proof.Machine.execMsud n bg hd f s
  | .aclr n bg hd f => Sys2Proof.Machine.execAclr n bg hd f s
  | .ashf n bg hd f => Sys2Proof.Machine.execAshf n bg hd f s
  | .aadd n bg hd f => Sys2Proof.Machine.execAadd n bg hd f s
  | .asub n bg hd f => Sys2Proof.Machine.execAsub n bg hd f s
  | .alu n bg hd f => Sys2Proof.Machine.execAlu n bg hd f s
  | .shf n bg hd f => Sys2Proof.Machine.execShf n bg hd f s
  | .cmp n bg hd f => Sys2Proof.Machine.execCmp n bg hd f s
  | .opExt n bg hd f => Sys2Proof.Machine.execOpExt n bg hd f s
  | .ins n bg hd f => Sys2Proof.Machine.execIns n bg hd f s
  | .acs n bg hd f => Sys2Proof.Machine.execAcs n bg hd f s
  | .dalu n bg hd f => Sys2Proof.Machine.execDalu n bg hd f s
  | .opMov n bg hd f => Sys2Proof.Machine.execOpMov n bg hd f s
  | .ldx n bg hd f => Sys2Proof.Machine.execLdx n bg hd f s
  | .asrcPut n bg hd f => Sys2Proof.Machine.execAsrcPut n bg hd f s
  | .asrcGet n bg hd f => Sys2Proof.Machine.execAsrcGet n bg hd f s
  | .asrcStatus n bg hd f => Sys2Proof.Machine.execAsrcStatus n bg hd f s
  | .fftSubmit n bg hd f => Sys2Proof.Machine.execFftSubmit n bg hd f s
  | .fftPoll n bg hd f => Sys2Proof.Machine.execFftPoll n bg hd f s
  | .correlatorSubmit n bg hd f => Sys2Proof.Machine.execCorrelatorSubmit n bg hd f s
  | .correlatorPoll n bg hd f => Sys2Proof.Machine.execCorrelatorPoll n bg hd f s
  | .versionQuery n bg hd f => Sys2Proof.Machine.execVersionQuery n bg hd f s
  | .fftJobDone => Sys2Proof.Machine.execFftJobDone s
  | .correlatorJobDone => Sys2Proof.Machine.execCorrelatorJobDone s
  | .xlOpcode n bg hd op f => Sys2Proof.Machine.execXlOpcode n bg hd op f s
  | .xlAnswer result void => Sys2Proof.Machine.execXlAnswer result void s
  | .ld n bg hd f => Sys2Proof.Machine.execLd n bg hd f s
  | .st n bg hd f => Sys2Proof.Machine.execSt n bg hd f s
  | .modp n bg hd f => Sys2Proof.Machine.execModp n bg hd f s
  | .ldi n bg hd f => Sys2Proof.Machine.execLdi n bg hd f s
  | .ldip n bg hd f => Sys2Proof.Machine.execLdip n bg hd f s
  | .ldio n bg hd f => Sys2Proof.Machine.execLdio n bg hd f s
  | .ldib n bg hd f => Sys2Proof.Machine.execLdib n bg hd f s
  | .ldil n bg hd f => Sys2Proof.Machine.execLdil n bg hd f s
  | .ldir n bg hd f => Sys2Proof.Machine.execLdir n bg hd f s
  | .fld n bg hd f => Sys2Proof.Machine.execFld n bg hd f s
  | .fst n bg hd f => Sys2Proof.Machine.execFst n bg hd f s
  | .push n bg hd f => Sys2Proof.Machine.execPush n bg hd f s
  | .pop n bg hd f => Sys2Proof.Machine.execPop n bg hd f s
  | .opNop n bg hd => Sys2Proof.Machine.execOpNop n bg hd s
  | .opEnd n bg hd x => Sys2Proof.Machine.execOpEnd n bg hd x s
  | .opRep n bg hd f => Sys2Proof.Machine.execOpRep n bg hd f s
  | .opDo n bg hd cm1 ofs => Sys2Proof.Machine.execOpDo n bg hd cm1 ofs s
  | .dor n bg hd => Sys2Proof.Machine.execDor n bg hd s
  | .call n bg hd tgt lit => Sys2Proof.Machine.execCall n bg hd tgt lit s
  | .ret n bg hd => Sys2Proof.Machine.execRet n bg hd s
  | .wfe n bg hd f => Sys2Proof.Machine.execWfe n bg hd f s
  | .sev n bg hd f => Sys2Proof.Machine.execSev n bg hd f s
  | .wtc n bg hd f => Sys2Proof.Machine.execWtc n bg hd f s
  | .wfc n bg hd => Sys2Proof.Machine.execWfc n bg hd s
  | .acstb n bg hd => Sys2Proof.Machine.execAcstb n bg hd s
  | .br n bg hd tgt => Sys2Proof.Machine.execBr n bg hd tgt s
  | .brp n bg hd f => Sys2Proof.Machine.execBrp n bg hd f s
  | .yPagePrime n value => Sys2Proof.Machine.execYPagePrime n value s
  | .primeComplete n page => Sys2Proof.Machine.execPrimeComplete n page s
  | .commitRequest n value => Sys2Proof.Machine.execCommitRequest n value s
  | .glideTargetWrite n g target => Sys2Proof.Machine.execGlideTargetWrite n g target s
  | .verifyCheck n value => Sys2Proof.Machine.execVerifyCheck n value s
  | .vchkDone n => Sys2Proof.Machine.execVchkDone n s
  | .quotaWrite n quota => Sys2Proof.Machine.execQuotaWrite n quota s
  | .farLanding n k e => Sys2Proof.Machine.execFarLanding n k e s
  | .farStoreWritten n k e => Sys2Proof.Machine.execFarStoreWritten n k e s
  | .linkUp p speed mdix half => Sys2Proof.Machine.execLinkUp p speed mdix half s
  | .linkDown p sending => Sys2Proof.Machine.execLinkDown p sending s
  | .frameArrival p bytes => Sys2Proof.Machine.execFrameArrival p bytes s
  | .passDecision fid idle => Sys2Proof.Machine.execPassDecision fid idle s
  | .frameEnd fid fate residence stamp => Sys2Proof.Machine.execFrameEnd fid fate residence stamp s
  | .frameTransmit p residence => Sys2Proof.Machine.execFrameTransmit p residence s
  | .netRelayOpen => Sys2Proof.Machine.execNetRelayOpen s
  | .netRelayClose => Sys2Proof.Machine.execNetRelayClose s
  | .relayChanged sensed => Sys2Proof.Machine.execRelayChanged sensed s
  | .relayFault => Sys2Proof.Machine.execRelayFault s
  | .ptpAnnounceRx m => Sys2Proof.Machine.execPtpAnnounceRx m s
  | .ptpSyncRx m => Sys2Proof.Machine.execPtpSyncRx m s
  | .ptpFollowUpRx m => Sys2Proof.Machine.execPtpFollowUpRx m s
  | .ptpDelayRespRx m => Sys2Proof.Machine.execPtpDelayRespRx m s
  | .ptpDelayReqRx m => Sys2Proof.Machine.execPtpDelayReqRx m s
  | .ptpAnnounceTimeout => Sys2Proof.Machine.execPtpAnnounceTimeout s
  | .ptpAnnounceTx => Sys2Proof.Machine.execPtpAnnounceTx s
  | .ptpSyncTx times => Sys2Proof.Machine.execPtpSyncTx times s
  | .ptpDelayReqTx time => Sys2Proof.Machine.execPtpDelayReqTx time s
  | .ptpTimeSet sec ns => Sys2Proof.Machine.execPtpTimeSet sec ns s
  | .timeCapture => Sys2Proof.Machine.execTimeCapture s
  | .tcEntryTimeout fid => Sys2Proof.Machine.execTcEntryTimeout fid s
  | .profileChange profile => Sys2Proof.Machine.execProfileChange profile s
  | .clsEntryInsert e prof => Sys2Proof.Machine.execClsEntryInsert e prof s
  | .clsActionChange e value => Sys2Proof.Machine.execClsActionChange e value s
  | .clsEntryRemove e => Sys2Proof.Machine.execClsEntryRemove e s
  | .keyProfileWrite p value => Sys2Proof.Machine.execKeyProfileWrite p value s
  | .fenceStart => Sys2Proof.Machine.execFenceStart s
  | .fenceDone => Sys2Proof.Machine.execFenceDone s
  | .seedWrite t value => Sys2Proof.Machine.execSeedWrite t value s
  | .patternWrite k value => Sys2Proof.Machine.execPatternWrite k value s
  | .fragTimeout f => Sys2Proof.Machine.execFragTimeout f s
  | .queueBind q value => Sys2Proof.Machine.execQueueBind q value s
  | .defaultTxWrite p q => Sys2Proof.Machine.execDefaultTxWrite p q s
  | .rxRelease r value => Sys2Proof.Machine.execRxRelease r value s
  | .txSend t len => Sys2Proof.Machine.execTxSend t len s
  | .txSendDone t => Sys2Proof.Machine.execTxSendDone t s
  | .laneResult l j => Sys2Proof.Machine.execLaneResult l j s
  | .reorderTimeout c fid => Sys2Proof.Machine.execReorderTimeout c fid s
  | .laneSelfCheck l ok => Sys2Proof.Machine.execLaneSelfCheck l ok s
  | .laneStall l => Sys2Proof.Machine.execLaneStall l s
  | .streamEnable c value => Sys2Proof.Machine.execStreamEnable c value s
  | .streamDisable c value => Sys2Proof.Machine.execStreamDisable c value s
  | .keySetWrite c value => Sys2Proof.Machine.execKeySetWrite c value s
  | .confirmWindowEnd c fid => Sys2Proof.Machine.execConfirmWindowEnd c fid s
  | .tagResolution n tag => Sys2Proof.Machine.execTagResolution n tag s
  | .aesSubframeRx fid ch word v user cs parity violation => Sys2Proof.Machine.execAesSubframeRx fid ch word v user cs parity violation s
  | .aesBlockEnd fid rate aligned alternating => Sys2Proof.Machine.execAesBlockEnd fid rate aligned alternating s
  | .aesLockLost fid cause => Sys2Proof.Machine.execAesLockLost fid cause s
  | .aesInputEnable fid value => Sys2Proof.Machine.execAesInputEnable fid value s
  | .aesInputDisable fid => Sys2Proof.Machine.execAesInputDisable fid s
  | .aesInputConfig fid value => Sys2Proof.Machine.execAesInputConfig fid value s
  | .aesOutputEnable o value => Sys2Proof.Machine.execAesOutputEnable o value s
  | .aesOutputDisable o value => Sys2Proof.Machine.execAesOutputDisable o value s
  | .adcInputEnable value => Sys2Proof.Machine.execAdcInputEnable value s
  | .adcModeWrite n value => Sys2Proof.Machine.execAdcModeWrite n value s
  | .gainWrite n gain => Sys2Proof.Machine.execGainWrite n gain s
  | .gainStep u => Sys2Proof.Machine.execGainStep u s
  | .clipHoldEnd n near => Sys2Proof.Machine.execClipHoldEnd n near s
  | .biasCheck n ua limit => Sys2Proof.Machine.execBiasCheck n ua limit s
  | .tlEnable value => Sys2Proof.Machine.execTlEnable value s
  | .tlRelayOpen => Sys2Proof.Machine.execTlRelayOpen s
  | .tlRelayClose => Sys2Proof.Machine.execTlRelayClose s
  | .tlRelayChanged sensed => Sys2Proof.Machine.execTlRelayChanged sensed s
  | .tlRelayFault => Sys2Proof.Machine.execTlRelayFault s
  | .cdcRx t bytes lost => Sys2Proof.Machine.execCdcRx t bytes lost s
  | .cdcTxCommand value => Sys2Proof.Machine.execCdcTxCommand value s
  | .cdcTxStart t => Sys2Proof.Machine.execCdcTxStart t s
  | .cdcTxDone t => Sys2Proof.Machine.execCdcTxDone t s
  | .ampEnable n sense => Sys2Proof.Machine.execAmpEnable n sense s
  | .ampDisable n => Sys2Proof.Machine.execAmpDisable n s
  | .crossDriveTestDone n sensed low sense => Sys2Proof.Machine.execCrossDriveTestDone n sensed low sense s
  | .ampMute n => Sys2Proof.Machine.execAmpMute n s
  | .ampUnmute n => Sys2Proof.Machine.execAmpUnmute n s
  | .ampRampEnd n => Sys2Proof.Machine.execAmpRampEnd n s
  | .ampFault n cause sense => Sys2Proof.Machine.execAmpFault n cause sense s
  | .ampReenable value senses => Sys2Proof.Machine.execAmpReenable value senses s
  | .ampThermal n temp => Sys2Proof.Machine.execAmpThermal n temp s
  | .bridgeWrite value => Sys2Proof.Machine.execBridgeWrite value s
  | .fieldInputSample fid mv => Sys2Proof.Machine.execFieldInputSample fid mv s
  | .fieldOutputCommand value => Sys2Proof.Machine.execFieldOutputCommand value s
  | .foutTrip o => Sys2Proof.Machine.execFoutTrip o s
  | .foutRetry o => Sys2Proof.Machine.execFoutRetry o s
  | .foutOpen o isOpen ma => Sys2Proof.Machine.execFoutOpen o isOpen ma s
  | .slotAllocate slot unit => Sys2Proof.Machine.execSlotAllocate slot unit s
  | .xpCreate x w0 snk gain ramp => Sys2Proof.Machine.execXpCreate x w0 snk gain ramp s
  | .xpChange x w0 gain ramp => Sys2Proof.Machine.execXpChange x w0 gain ramp s
  | .xpReplaceSource x src => Sys2Proof.Machine.execXpReplaceSource x src s
  | .xpRemove x ramp => Sys2Proof.Machine.execXpRemove x ramp s
  | .xpRampEnd x => Sys2Proof.Machine.execXpRampEnd x s
  | .crossfadeEnd x => Sys2Proof.Machine.execCrossfadeEnd x s
  | .sceneGo value => Sys2Proof.Machine.execSceneGo value s
  | .activeHoldEnd x => Sys2Proof.Machine.execActiveHoldEnd x s
  | .nagWrite x value => Sys2Proof.Machine.execNagWrite x value s
  | .calEnable value => Sys2Proof.Machine.execCalEnable value s
  | .calDisable value => Sys2Proof.Machine.execCalDisable value s
  | .zoneConfigWrite z maxg => Sys2Proof.Machine.execZoneConfigWrite z maxg s
  | .calWindowEnd kind n m exc => Sys2Proof.Machine.execCalWindowEnd kind n m exc s
  | .calPublish kind n m r => Sys2Proof.Machine.execCalPublish kind n m r s
  | .forceRequest value => Sys2Proof.Machine.execForceRequest value s
  | .forceExcitationEnd exc => Sys2Proof.Machine.execForceExcitationEnd exc s
  | .pilotFadeInEnd => Sys2Proof.Machine.execPilotFadeInEnd s
  | .trimDue n => Sys2Proof.Machine.execTrimDue n s
  | .trimQuietEnd n mean => Sys2Proof.Machine.execTrimQuietEnd n mean s
  | .trimDone n => Sys2Proof.Machine.execTrimDone n s
  | .captionPortEnable p => Sys2Proof.Machine.execCaptionPortEnable p s
  | .captionPortDisable p => Sys2Proof.Machine.execCaptionPortDisable p s
  | .modeRequest p mode => Sys2Proof.Machine.execModeRequest p mode s
  | .captionFrameStart p => Sys2Proof.Machine.execCaptionFrameStart p s
  | .linePacket p => Sys2Proof.Machine.execLinePacket p s
  | .pageSelect value => Sys2Proof.Machine.execPageSelect value s
  | .cueWrite c tickHi => Sys2Proof.Machine.execCueWrite c tickHi s
  | .scrubRead dram ecc raced use => Sys2Proof.Machine.execScrubRead dram ecc raced use s
  | .storeOpen => Sys2Proof.Machine.execStoreOpen s
  | .storeWrite x => Sys2Proof.Machine.execStoreWrite x s
  | .storeCommit => Sys2Proof.Machine.execStoreCommit s
  | .storeAbort => Sys2Proof.Machine.execStoreAbort s
  | .storeRead x => Sys2Proof.Machine.execStoreRead x s
  | .storeDelete => Sys2Proof.Machine.execStoreDelete s
  | .storeInfo => Sys2Proof.Machine.execStoreInfo s
  | .storeLogRead => Sys2Proof.Machine.execStoreLogRead s
  | .storeFload x => Sys2Proof.Machine.execStoreFload x s
  | .cmdDone => Sys2Proof.Machine.execCmdDone s
  | .patrolRead soft => Sys2Proof.Machine.execPatrolRead soft s
  | .nandMount a b => Sys2Proof.Machine.execNandMount a b s
  | .mountFailed cause => Sys2Proof.Machine.execMountFailed cause s
  | .logPage x => Sys2Proof.Machine.execLogPage x s
  | .logFreeze => Sys2Proof.Machine.execLogFreeze s
  | .logResume => Sys2Proof.Machine.execLogResume s
  | .logMark code => Sys2Proof.Machine.execLogMark code s
  | .telemetrySample e => Sys2Proof.Machine.execTelemetrySample e s
  | .telemetryExport => Sys2Proof.Machine.execTelemetryExport s
  | .roastRequest value => Sys2Proof.Machine.execRoastRequest value s
  | .roastDone hit final => Sys2Proof.Machine.execRoastDone hit final s
  | .inputQualified ac volt freq => Sys2Proof.Machine.execInputQualified ac volt freq s
  | .inputLost ac cause volt => Sys2Proof.Machine.execInputLost ac cause volt s
  | .holdupUpdate ms chg vstore => Sys2Proof.Machine.execHoldupUpdate ms chg vstore s
  | .inputPowerUpdate w vdc vac fac => Sys2Proof.Machine.execInputPowerUpdate w vdc vac fac s
  | .dramInitDone => Sys2Proof.Machine.execDramInitDone s
  | .bootVerify => Sys2Proof.Machine.execBootVerify s
  | .bootEndRecord => Sys2Proof.Machine.execBootEndRecord s
  | .bootDirect => Sys2Proof.Machine.execBootDirect s
  | .bootWindow => Sys2Proof.Machine.execBootWindow s
  | .bootFload x => Sys2Proof.Machine.execBootFload x s
  | .bootWait => Sys2Proof.Machine.execBootWait s
  | .bootWaitEnd => Sys2Proof.Machine.execBootWaitEnd s
  | .chimeRequest value => Sys2Proof.Machine.execChimeRequest value s
  | .chimeRelease value => Sys2Proof.Machine.execChimeRelease value s
  | .ampShed => Sys2Proof.Machine.execAmpShed s
  | .bypassRelease => Sys2Proof.Machine.execBypassRelease s
  | .logicStop cut => Sys2Proof.Machine.execLogicStop cut s
  | .thermalSample renza heatsink air => Sys2Proof.Machine.execThermalSample renza heatsink air s
  | .continuousCheck n partner sense => Sys2Proof.Machine.execContinuousCheck n partner sense s
  | .tripClear o => Sys2Proof.Machine.execTripClear o s
  | .amplifierLevel => Sys2Proof.Machine.execAmplifierLevel s
  | .capacityMeasured cap short => Sys2Proof.Machine.execCapacityMeasured cap short s

end Sys2Proof.Machine
end

