-- ==== Sys2Proof/Safety.lean ====
section
/-! DEFINITION. Safety.lean: what every step keeps: the state of the event queue that R139, R143, R144 and R147 describe. -/

namespace Sys2Proof.Machine

/-- The event queue is sound: at most 1,024 records wait, EVQ_TAIL − EVQ_HEAD is their number, EVQ_HWM is at least that
number, and an overflow episode is open only while the queue is full. -/
structure EvQueue.Sound (q : EvQueue) : Prop where
  bounded : q.entries.length ≤ 1024
  counted : q.tail - q.head = BitVec.ofNat 16 q.entries.length
  marked : q.entries.length ≤ q.hwm ∧ q.hwm ≤ 1024
  full : q.episode ≠ none → q.entries.length = 1024

/-- A state whose event queue is sound. -/
def State.Sound (s : State) : Prop := s.q.Sound

/-- The state with another hub: the event queue and the commands that wait as they are. -/
abbrev State.withHub (s : State) (h : Hub) : State := { s with hub := h }

/-- The state after a register write by the owner of writes: a failure that the write met shows in the bank of that path
(R116). -/
abbrev State.wrote (s : State) (h : Hub) : State := { s with hub := h.noteFail s.hub.owner }

/-- The engine and the mode (true: background code in compact mode) of a command that is an engine operation. -/
def opHome : Instr → Option (Fin 16 × Bool)
  | .mpy n bg _ _ | .mac n bg _ _ | .msu n bg _ _ | .mpyd n bg _ _ | .macd n bg _ _ | .msud n bg _ _ | .aclr n bg _ _
  | .ashf n bg _ _ | .aadd n bg _ _ | .asub n bg _ _ => some (n, bg)
  | .alu n bg _ _ | .shf n bg _ _ | .cmp n bg _ _ | .opExt n bg _ _ | .ins n bg _ _ | .acs n bg _ _ | .dalu n bg _ _
  | .opMov n bg _ _ | .ldx n bg _ _ => some (n, bg)
  | .asrcPut n bg _ _ | .asrcGet n bg _ _ | .asrcStatus n bg _ _ | .fftSubmit n bg _ _ | .fftPoll n bg _ _
  | .correlatorSubmit n bg _ _ | .correlatorPoll n bg _ _ | .versionQuery n bg _ _ | .xlOpcode n bg _ _ _ => some (n, bg)
  | .ld n bg _ _ | .st n bg _ _ | .modp n bg _ _ | .ldi n bg _ _ | .ldip n bg _ _ | .ldio n bg _ _ | .ldib n bg _ _
  | .ldil n bg _ _ | .ldir n bg _ _ | .fld n bg _ _ | .fst n bg _ _ | .push n bg _ _ | .pop n bg _ _ => some (n, bg)
  | .opNop n bg _ | .opEnd n bg _ _ | .opRep n bg _ _ | .opDo n bg _ _ _ | .dor n bg _ | .call n bg _ _ _ | .ret n bg _
  | .wfe n bg _ _ | .sev n bg _ _ | .wtc n bg _ _ | .wfc n bg _ | .acstb n bg _ | .br n bg _ _ | .brp n bg _ _ => some (n, bg)
  | _ => none

/-- What the operation `i`, alone in its bundle, reads from when the sample program of engine `n` executes it: results
that are due have landed (R186, R195). -/
def Hub.slotView (h : Hub) (n : Nat) (i : Instr) : View :=
  ((h.modBank n false fun b => { b with bundle := [] }).modEng n fun e => e.land false).viewOf n false
    (lastWord (h.engine n).shadow.pc [i])

/-- The sample program of engine `n` issues, the words at its PC spell `i`, and `i` stands alone in a defined bundle that ECC
finds good and that does not wait (R36, R161, R167, R185). -/
structure Alone (h : Hub) (n : Nat) (i : Instr) : Prop where
  placed : (h.engine n).placed false i = true
  issues : h.issues n = true
  first : (h.engine n).shadow.bundle = []
  stops : opStops i = true
  ok : bundleOk [i] = true
  good : ((h.engine n).bundleFound [i]).all (fun p => p.2 == .ok) = true
  kept : (h.engine n).run.discard = false
  once : (h.engine n).shadow.rep = none
  goes : (h.slotView n i).bundleWaits [i] = 0

/-- In `s`, `i` alone in its bundle completes with the effect `x` where its predicate lets it, and with none otherwise; the
bundle counts as executed, control goes on, and what waits in the engines is tried again (R186, R188, R191, R244). -/
def RunsAs (s : State) (n : Nat) (i : Instr) (x : Eff) : Prop :=
  let v := s.hub.slotView n i
  let g := v.guard i
  let h := { v.h with free := v.h.free + 16 }.applyEff n false false 0 (if g.2 then (x, g.1) else ({}, rv 0))
  let h := (h.modBank n false fun b => { b with pos := b.pos + 1 }).modRun n fun r => { r with count := r.count + 1 }
  let ctl := if g.2 then x.ctl else .go
  let h := match ctl with | .enter => h.modBank n false fun b => { b with depth := b.depth + 1 } | _ => h
  exec i s = .next (s.withHub (((h.modEng n fun e => e.repDone false).nextBundle n v.last ctl).kickAll))

/-- From queue `q` to queue `t` records `l` entered at the tail, the first `n` were released from the head, and no record was
altered or reordered: EVQ_TAIL counts the entries, EVQ_HEAD the releases (R136, R138, R139). -/
def EvQueue.Leads (q t : EvQueue) (l : List Waiting) (n : Nat) : Prop :=
  n ≤ (q.entries ++ l).length ∧ t.entries = (q.entries ++ l).drop n ∧ t.tail = q.tail + BitVec.ofNat 16 l.length ∧
    t.head = q.head + BitVec.ofNat 16 n

/-- The commands that start the queue afresh or end it with the logic (R132, R603). -/
def restartsQueue : Instr → Bool
  | .fabricStart _ _ | .systemReset _ | .logicStop _ => true
  | _ => false

/-- The commands that may move records of the event queue: frames and single accesses of the control port, the queue's own
commands, and the accesses of the boot image and of the start-up point (R95, R135, R139, R591, R598). -/
def movesQueue : Instr → Bool
  | .cpNop _ _ _ _ _ | .cpRd _ _ _ _ _ | .cpRdf _ _ _ _ _ | .cpWr _ _ _ _ _ _ | .cpWrf _ _ _ _ _ _ | .cpRpl _ _ _ _ _ => true
  | .cpInvalidOp _ _ | .frameTimeout _ | .frameShort _ | .ownerHandover _ _ | .ownerClaim _ _ | .windowWrite _ _ _ => true
  | .conditionalClear _ _ _ | .registerWrite _ _ _ | .eventEntry _ | .eventRelease _ | .hwmReset => true
  | .nandMount _ _ | .mountFailed _ | .amplifierLevel | .bootDirect | .bootWindow => true
  | _ => false

/-- The commands that act whether or not the fabric runs: the qualification of the inputs, the start of the fabric and the stop
of the logic (R24, R591, R603). -/
def supplyActs : Instr → Bool
  | .inputQualified _ _ _ | .inputLost _ _ _ | .fabricStart _ _ | .logicStop _ => true
  | _ => false

/-- No command waits: the block idles. -/
def State.Idle (s : State) : Prop := s.pending = []

end Sys2Proof.Machine
end

