-- ==== Sys2Proof/Certificates/Slice0/Obligations.lean ====
section
/-! DEFINITION. Obligations.lean: what the provers are asked to prove of the model, family by family. `exec c s = .next t`
says that command `c` completes in state `s`; an equation names the whole next state, so what it does not name is unchanged. -/

open Sys2Proof Sys2Proof.Machine

/-- SEARCH_FALLBACK, FINE_CODE_UPDATE, UNLOCK, CORE_STOP_REQUEST, CORE_STOP_WITHDRAW and CORE_RESTART take effect
(R61 to R64). -/
def Obligations.ClockCoresAnswer : Prop :=
  (∀ (s : State) (c : Fin 2), s.live = true → (s.hub.core c).st = .hop →
    let n := (s.hub.core c).entry
    let h := (s.hub.modCore c fun k => { k with st := .search, searching := true }).setReg (kCore c 6)
      ((s.hub.reg (kCore c 6) + 1) % 65536)
    exec (.searchFallback c) s =
      .next (s.withHub (h.issue (96 + c) 2 n (if (s.hub.core c).valid then 2 else 1) (h.reg (kCore c 6))))) ∧
  (∀ (s : State) (tj : Word), s.live = true →
    exec (.fineCodeUpdate tj) s =
      .next (s.withHub ((({ s.hub with clk := { s.hub.clk with tj := s16 tj.toNat } } : Hub).fineStep 0).fineStep 1))) ∧
  (∀ (s : State) (c : Fin 2), s.live = true → (s.hub.core c).st.locked = true →
    let k := s.hub.core c
    let h := (s.hub.issueLimited c (96 + c) 3 k.st.code k.entry 0).setFlag (kCksFlag 1)
    let h := (iter 4 (fun d h => if (h.dom d).core = c.val ∧ (h.dom d).run then
      h.modDom d fun m => { m with run := false, paused := true, lastTick := false } else h) h).stopOutputs c
    exec (.unlock c) s = .next (s.withHub (((h.modCore c fun k => { k with st := .hop, ref := none, relock := true }).loadCodes c k.entry).clkSync))) ∧
  (∀ (s : State) (c : Fin 2), s.live = true → (s.hub.core c).st ≠ .off → (s.hub.core c).stopReq = false → s.hub.enabledOn c = none →
    (s.hub.core c).busy = false →
    exec (.coreStopRequest c) s = .next (s.withHub (s.hub.modCore c fun k => { k with stopReq := true }))) ∧
  (∀ (s : State) (c : Fin 2), s.live = true →
    exec (.coreStopWithdraw c) s = .next (s.withHub (s.hub.modCore c fun k => { k with stopReq := false }))) ∧
  (∀ (s : State) (c : Fin 2), s.live = true → (s.hub.core c).st = .off →
    exec (.coreRestart c) s = .next (s.withHub ((s.hub.modCore c fun k => { k with st := .hop, restart := true }).loadCodes c (s.hub.core c).entry)))

/-- A stop is refused at both judgements in either of the two cases, with STOP_REFUSED (R64). That a domain whose disable waits
counts as enabled is the model's choice (assumption 124). -/
def Obligations.StopRefusedWhileDomainEnabled : Prop :=
  (∀ (s : State) (c : Fin 2), s.live = true → (s.hub.core c).st ≠ .off → (s.hub.core c).stopReq = false →
    (s.hub.enabledOn c ≠ none ∨ (s.hub.core c).busy = true) →
    ∃ t cause dom, exec (.coreStopRequest c) s = .next t ∧ t.hub.core c = s.hub.core c ∧ t.hub.flag (kCksFlag 4) = true ∧
      (bit (s.hub.reg (evCfg (96 + c))) 2 = false →
        ∃ r, t.hub.ev = s.hub.ev.take (96 + c) r ∧ r.code = 10 ∧ r.data0 = cause ∧ r.data1 = dom) ∧
      (cause = 1 ∧ (∃ d : Fin 4, dom = BitVec.ofNat 16 d ∧ (s.hub.dom d).core = c ∧ (s.hub.dom d).en = true) ∨
        cause = 2 ∧ dom = 0xFFFF ∧ s.hub.enabledOn c = none)) ∧
  (∀ (s : State) (c : Fin 2), (s.hub.core c).st.locked = true → (s.hub.core c).stopReq = true →
    (s.hub.enabledOn c ≠ none ∨ (s.hub.core c).busy = true) →
    (s.hub.coreBaseTick c).flag (kCksFlag 4) = true ∧ ((s.hub.coreBaseTick c).core c).st ≠ .off ∧
      ((s.hub.coreBaseTick c).core c).stopReq = false)

/-- CORE_LOCKED and HOP_DONE end a lock (R61, R63, R78, R82). The fine code that a search leaves to the recomputation is the
model's choice (assumption 128). -/
def Obligations.CoreLockAnswers : Prop :=
  (∀ (s : State) (c : Fin 2) (coarse : BitVec 12) (fine : BitVec 10) (skips : List Nat) (m : ClkMeas), s.live = true →
    ((s.hub.core c).st = .search ∨ (s.hub.core c).st = .hop ∧ (s.hub.core c).valid = true) → (s.hub.core c).hopping = false →
    (s.hub.core c).hopHeld = none →
    let k := s.hub.core c
    let h := if k.searching then s.hub.learnCodes c coarse.toNat fine.toNat else s.hub
    let h := h.issue (96 + c) 1 k.entry (h.reg (kCore c 4)) (b2n k.searching)
    exec (.coreLocked c coarse fine skips m) s = .next (s.withHub ((((h.modCore c fun k => { k with st := .free, ref := none, relock := false, restart := false, searching := false }).resumeCore
        c skips).evalOne c m).clkSync))) ∧
  (∀ (s : State) (c : Fin 2) (coarse : BitVec 12) (fine : BitVec 10) (us : Nat) (skips : List Nat) (m : ClkMeas), s.live = true →
    ((s.hub.core c).st = .search ∨ (s.hub.core c).st = .hop ∧ (s.hub.core c).valid = true) → (s.hub.core c).hopping = true →
    let k := s.hub.core c
    let h := if k.searching then s.hub.learnCodes c coarse.toNat fine.toNat else s.hub
    exec (.hopDone c coarse fine us skips m) s = .next (s.withHub (((((h.modCore c fun k => { k with st := .free, ref := none, hopping := false, hopTo := none, searching := false }).resumeCore
        c skips).issue (96 + c) 7 k.entry (satN 0xFFFF us) (b2n k.searching)).evalOne c m).clkSync)))

/-- A domain that resumes after a gap counts the ticks skipped and the tick itself (R82). -/
def Obligations.DomainResumesBySkippedTicks : Prop :=
  ∀ (h : Hub) (c : Fin 2) (d : Fin 4) (skipped : Nat), skipped < 2 ^ 32 →
    let x := (h.dom d).tick.toNat + 2 ^ 32 * (h.dom d).epoch.toNat
    let r := h.resumeDom c d skipped
    (x + skipped + 1 < 2 ^ 80 → (h.dom d).fresh = false →
      (((r.domCount d).dom d).tick.toNat + 2 ^ 32 * ((r.domCount d).dom d).epoch.toNat = x + skipped + 1)) ∧
    r.regN (kGapCnt d) 2 = min (2 ^ 32 - 1) (h.regN (kGapCnt d) 2 + skipped) ∧
    r.flag (kCksFlag 3) = true ∧ (r.dom d).run = true ∧
    (bit (h.reg (evCfg (101 + d))) 2 = false →
      ∃ e, r.ev = h.ev.take (101 + d) e ∧ e.code = 3 ∧ e.data0.toNat + 65536 * e.data1.toNat = skipped ∧
        e.data2 = BitVec.ofNat 16 c)

/-- CORE_BASE_TICK of a locked core (R64, R78, R79, R80, R86); core A's drives the local PTP clock of a master (R320). What
follows what at one base tick and when the entry in force changes are the model's choices (assumptions 123 and 127). -/
def Obligations.BaseTickAnswers : Prop :=
  (∀ (s : State) (c : Fin 2), s.live = true → (s.hub.core c).st.locked = true → (s.hub.core c).stopReq = true →
    s.hub.enabledOn c = none → (s.hub.core c).busy = false →
    exec (.coreBaseTick c) s = .next (s.withHub (((((s.hub.ptpBaseTick c).stopOutputs c).modCore c fun k => { k with st := .off, stopReq := false, ref := none }).issue (96 + c) 9 1
        (s.hub.core c).entry 0).clkSync))) ∧
  (∀ (s : State) (c : Fin 2) (n : Nat), s.live = true → (s.hub.core c).st.locked = true → (s.hub.core c).stopReq = false →
    (s.hub.core c).hopTo = some n →
    let h := iter 4 (fun d h => if (h.dom d).core = c.val ∧ (h.dom d).run ∧ ¬ (h.dom d).rebound then
      h.modDom d fun m => { m with lastTick := true, paused := true } else h)
        (iter 4 (fun d h => h.domBaseTick c d) ((s.hub.ptpBaseTick c).stopOutputs c))
    exec (.coreBaseTick c) s = .next (s.withHub ((((h.loadFamily c n).modCore c fun k => { k with st := .hop, hopping := true, ref := none }).loadCodes c n).clkSync))) ∧
  (∀ (s : State) (c : Fin 2), s.live = true → (s.hub.core c).st.locked = true → (s.hub.core c).stopReq = false →
    (s.hub.core c).hopTo = none →
    exec (.coreBaseTick c) s = .next (s.withHub ((iter 8 (fun m h => h.clkoBaseTick c m) (iter 4 (fun d h => h.domBaseTick c d) (s.hub.ptpBaseTick c))).clkSync)))

/-- REF_SIGNAL_VALID, REF_QUALIFIED, REF_LOST and SLEW_DONE (R66, R68 to R71). The class of REF0, and that the target of a slew
counts as the reference in use, are the model's choices (assumptions 125 and 130). -/
def Obligations.ReferencesAnswer : Prop :=
  (∀ (s : State) (i : Fin 2) (off drift : Word) (m : ClkMeas), s.live = true → s.hub.refState (i + 1) = 0 → (s.hub.ain i).en = true → (s.hub.ain i).lock = true →
    exec (.refSignalValid i.succ off drift m) s = .next (s.withHub (((((s.hub.setReg (kRef (i + 1) 0) (4 * aesFamily (s.hub.ain i).cls + 1)).setReg
        (kRef (i + 1) 1) off.toNat).setReg (kRef (i + 1) 2) drift.toNat).setReg (kRef (i + 1) 3) (s.hub.fld 0x35 7 0)).evalBoth m))) ∧
  (∀ (s : State) (off drift : Word) (m : ClkMeas), s.live = true → s.hub.refState 0 = 0 → bit (s.hub.reg 0x3A) 15 = true →
    ∃ cls, exec (.refSignalValid 0 off drift m) s = .next (s.withHub (((((s.hub.tookFree.setReg (kRef 0 0) (4 * cls + 1)).setReg
        (kRef 0 1) off.toNat).setReg (kRef 0 2) drift.toNat).setReg (kRef 0 3) (s.hub.fld 0x35 7 0)).evalBoth m)) ∧ cls < 3) ∧
  (∀ (s : State) (r : Fin 3) (off drift : Word) (m : ClkMeas), s.live = true → s.hub.refPresent r = false →
    exec (.refSignalValid r off drift m) s = .next s) ∧
  (∀ (s : State) (r : Fin 3) (off drift : Word) (m : ClkMeas), s.live = true → s.hub.refState r = 1 →
    exec (.refQualified r off drift m) s = .next (s.withHub ((((((s.hub.setFld (kRef r 0) 1 0 2).setReg (kRef r 1) off.toNat).setReg (kRef r 2) drift.toNat).setReg (kRef r 3) 0).issue
        (98 + r) 1 (s.hub.fld (kRef r 0) 3 2) off.toNat 0).evalBoth m))) ∧
  (∀ (s : State) (r : Fin 3) (cause : Fin 5) (off drift : Word) (m : ClkMeas), s.live = true → s.hub.refState r ≠ 0 → cause ≠ 0 →
    let h := (((s.hub.setReg (kRef r 0) 0).setReg (kRef r 1) off.toNat).setReg (kRef r 2) drift.toNat).setReg (kRef r 3) 0
    let h := h.issueLimited r (98 + r) 2 cause off.toNat drift.toNat
    exec (.refLost r cause off drift m) s = .next (s.withHub ((if (s.hub.core 0).ref = some r.val ∨ (s.hub.core 1).ref = some r.val then h.setFlag (kCksFlag 2) else h).evalBoth m))) ∧
  (∀ (s : State) (c : Fin 2) (m : ClkMeas), s.live = true → (s.hub.core c).st = .slew → (s.hub.core c).hopHeld = none →
    let r := (s.hub.core c).ref.getD 3
    let h := (s.hub.modCore c fun k => { k with st := .track }).setReg (kCore c 3) 0
    exec (.slewDone c m) s = .next (s.withHub (((h.setReg (kCore c 1) (h.reg (kRef r 1))).issue (96 + c) 5 r 0 0).evalOne c m)))

/-- A core's evaluation of its candidate, state by state; the candidate is the first usable reference of its list (R68). -/
def Obligations.CoreSelectsItsCandidate : Prop :=
  (∀ (h : Hub) (c : Fin 2), h.candidate c = (h.refList c).find? fun r => h.refUsable c r) ∧
  (∀ (h : Hub) (c : Fin 2) (e held : Int) (r : Nat), ((h.core c).st = .free ∨ (h.core c).st = .hold) →
    h.candidate c = some r →
    ((h.evalRefs c e held).core c).st = .slew ∧ ((h.evalRefs c e held).core c).ref = some r) ∧
  (∀ (h : Hub) (c : Fin 2) (e held : Int), ((h.core c).st = .free ∨ (h.core c).st = .hold) → h.candidate c = none →
    h.evalRefs c e held = h) ∧
  (∀ (h : Hub) (c : Fin 2) (e held : Int) (r r' : Nat), (h.core c).st = .track → (h.core c).ref = some r →
    h.candidate c = some r' → (h.refUsable c r = false ∨ (h.higher c r' r = true ∧ bit (h.reg 0x34) 15 = true)) →
    ((h.evalRefs c e held).core c).st = .slew ∧ ((h.evalRefs c e held).core c).ref = some r') ∧
  (∀ (h : Hub) (c : Fin 2) (e held : Int) (r : Nat), (h.core c).st = .track → (h.core c).ref = some r →
    h.refUsable c r = false → h.candidate c = none →
    ((h.evalRefs c e held).core c).st = .hold ∧ ((h.evalRefs c e held).core c).ref = none ∧
      (h.evalRefs c e held).flag (kCksFlag 0) = true) ∧
  (∀ (h : Hub) (c : Fin 2) (e held : Int) (r r' : Nat), (h.core c).st = .track → (h.core c).ref = some r →
    h.refUsable c r = true → h.candidate c = some r' → (h.higher c r' r = false ∨ bit (h.reg 0x34) 15 = false) →
    h.evalRefs c e held = h) ∧
  (∀ (h : Hub) (c : Fin 2) (e held : Int), (h.core c).st = .slew → h.evalRefs c e held = h)

/-- HOP_REQUEST: refused, held or accepted (R77). The order of causes and that a domain whose disable waits counts as enabled
are the model's choices (assumptions 14 and 124). -/
def Obligations.HopRequestsAreJudged : Prop :=
  (∀ (s : State) (c : Fin 2) (n : Fin 8), s.live = true → n.val = (s.hub.core c).entryRead →
    exec (.hopRequest c n false) s = .next s) ∧
  (∀ (s : State) (c : Fin 2) (n : Fin 8) (go : Bool), s.live = true → (n.val ≠ (s.hub.core c).entryRead ∨ go = true) →
    s.hub.hopCause c n false = none → (s.hub.core c).st ≠ .slew →
    exec (.hopRequest c n go) s = .next (s.withHub (s.hub.modCore c fun k => { k with hopTo := some n.val, hopHeld := none }))) ∧
  (∀ (s : State) (c : Fin 2) (n : Fin 8) (go : Bool), s.live = true → (n.val ≠ (s.hub.core c).entryRead ∨ go = true) →
    s.hub.hopCause c n false = none → (s.hub.core c).st = .slew →
    exec (.hopRequest c n go) s = .next (s.withHub (s.hub.modCore c fun k => { k with hopHeld := some n.val }))) ∧
  (∀ (s : State) (c : Fin 2) (n : Fin 8) (go : Bool) (cause : Nat), s.live = true → (n.val ≠ (s.hub.core c).entryRead ∨ go = true) →
    s.hub.hopCause c n false = some cause →
    ∃ t, exec (.hopRequest c n go) s = .next t ∧ t.hub.core c = s.hub.core c ∧ t.hub.flag (kCksFlag 4) = true ∧
      (bit (s.hub.reg (evCfg (96 + c))) 2 = false →
        ∃ r, t.hub.ev = s.hub.ev.take (96 + c) r ∧ r.code = 8 ∧ r.data0 = BitVec.ofNat 16 n ∧ r.data1 = BitVec.ofNat 16 cause)) ∧
  (∀ (h : Hub) (c : Fin 2) (n : Fin 8),
    let bad1 := h.hopValid c n = false
    let bad2 := ∃ d : Fin 4, (h.dom d).core = c ∧ (h.dom d).en = true ∧ rateFam (h.dom d).rate ≠ some (h.hopFam c n)
    let mult := h.effN (kHop c n 0) 2
    let nom := multNominal (h.hopFam c n)
    let bad3 := 2000 * (mult - nom) > nom ∨ 2000 * (nom - mult) > nom
    let bad4 := (h.core c).busy = true
    (bad1 → h.hopCause c n false = some 1) ∧
    (¬ bad1 → bad2 → h.hopCause c n false = some 2) ∧
    (¬ bad1 → ¬ bad2 → bad3 → h.hopCause c n false = some 3) ∧
    (¬ bad1 → ¬ bad2 → ¬ bad3 → bad4 → h.hopCause c n false = some 4) ∧
    (¬ bad1 → ¬ bad2 → ¬ bad3 → ¬ bad4 → (h.core c).st = .off → h.hopCause c n false = some 5) ∧
    (¬ bad1 → ¬ bad2 → ¬ bad3 → ¬ bad4 → (h.core c).st ≠ .off → h.hopCause c n false = none))

/-- DOMAIN_REBIND, DOMAIN_ENABLE and DOMAIN_DISABLE (R79, R80). -/
def Obligations.DomainCommandsAnswer : Prop :=
  (∀ (s : State) (d : Fin 4) (f : BitVec 4), s.live = true → f.toNat ≠ (s.hub.dom d).field → s.hub.bindCause d f.toNat = none →
    let h := s.hub.setFld 0x31 (4 * d + 3) (4 * d) f.toNat
    exec (.domainRebind d f) s = .next (s.withHub (if (s.hub.dom d).en then h.modDom d fun m => { m with rebind := some f.toNat }
      else h.modDom d fun m => { m with core := f.toNat / 8 % 2, rate := f.toNat % 8 }))) ∧
  (∀ (s : State) (d : Fin 4), s.live = true → (s.hub.dom d).disabling = false → (s.hub.dom d).en = false →
    (s.hub.core (s.hub.dom d).core).st ≠ .off → rateFam (s.hub.dom d).rate = some (s.hub.core (s.hub.dom d).core).fam →
    exec (.domainEnable d) s = .next (s.withHub ((s.hub.modDom d fun m => { m with en := true, starting := true }).setFld 0x32 d d 1))) ∧
  (∀ (s : State) (d : Fin 4), s.live = true → (s.hub.dom d).disabling = true →
    exec (.domainEnable d) s = .next (s.withHub ((s.hub.modDom d fun m => { m with disabling := false }).setFld 0x32 d d 1))) ∧
  (∀ (s : State) (d : Fin 4), s.live = true → d ≠ 0 → (s.hub.dom d).en = true →
    exec (.domainDisable d) s = .next (s.withHub ((s.hub.modDom d fun m => { m with disabling := true }).setFld 0x32 d d 0))) ∧
  (∀ s : State, s.live = true → exec (.domainDisable 0) s = .next (s.withHub (s.hub.setFld 0x32 0 0 1)))

/-- RATE_REFUSED (R79); which cause is named where several hold is the model's choice (assumption 14). -/
def Obligations.RateRefusals : Prop :=
  (∀ (s : State) (d : Fin 4) (f : BitVec 4) (cause n : Nat), s.live = true → f.toNat ≠ (s.hub.dom d).field →
    s.hub.bindCause d f.toNat = some (cause, n) →
    ∃ t, exec (.domainRebind d f) s = .next t ∧ t.hub.dom d = s.hub.dom d ∧ t.hub.flag (kCksFlag 4) = true ∧
      (bit (s.hub.reg (evCfg (101 + d))) 2 = false →
        ∃ r, t.hub.ev = s.hub.ev.take (101 + d) r ∧ r.code = 2 ∧ r.data0 = f.zeroExtend 16 ∧ r.data1 = BitVec.ofNat 16 cause ∧
          r.data2 = if cause = 3 then BitVec.ofNat 16 n else 0)) ∧
  (∀ (h : Hub) (d : Fin 4) (c : Fin 2) (rate : Fin 8),
    let f := 8 * c.val + rate.val
    (rate = 7 → h.bindCause d f = some (1, 0)) ∧
    (∀ fam, rateFam rate = some fam → (h.core c).fam ≠ fam → h.bindCause d f = some (2, 0)) ∧
    (∀ n, rateFam rate = some (h.core c).fam → h.plenBlocks d rate = some n → h.bindCause d f = some (3, n)) ∧
    (rateFam rate = some (h.core c).fam → h.plenBlocks d rate = none → (h.core c).st = .off → h.bindCause d f = some (4, 0)) ∧
    (rateFam rate = some (h.core c).fam → h.plenBlocks d rate = none → (h.core c).st ≠ .off → h.bindCause d f = none))

/-- The commands of a clock output (R84 to R86). -/
def Obligations.ClockOutputCommandsAnswer : Prop :=
  ∀ (s : State) (m : Fin 8), s.live = true → (m = 7 → s.hub.capHolds = false) →
  exec (.clkoEnable m) s = .next (s.withHub (((s.hub.modClko m fun o => { o with en := true }).setFld (kClko m 1) 15 15 1).clkSync)) ∧
  (∀ high, exec (.clkoDisable m high) s = .next (s.withHub (((s.hub.modClko m fun o => { o with en := false, run := false, stopping := o.stopping || (o.run && high) }).setFld
      (kClko m 1) 15 15 0).clkSync))) ∧
  exec (.clkoStopComplete m) s = .next (s.withHub (s.hub.modClko m fun o => { o with stopping := false })) ∧
  (∀ (n : Word) (half : Bool),
    let n' := if n = 0 then s.hub.reg (kClko m 0) else n.toNat
    let h := (s.hub.setReg (kClko m 0) n').setFld (kClko m 1) 0 0 (b2n half)
    exec (.clkoDividerChange m n half) s = .next (s.withHub ((if (s.hub.clko m).en then h else h.modClko m fun o => { o with n := n', half := half }).clkSync))) ∧
  (∀ delay : BitVec 10,
    let h := s.hub.setReg (kClko m 2) delay.toNat
    exec (.clkoDelayChange m delay) s = .next (s.withHub ((if (s.hub.clko m).en then h else h.modClko m fun o => { o with delay := delay.toNat }).clkSync))) ∧
  (∀ dom : Fin 4, (s.hub.clko m).en = false →
    exec (.clkoDomChange m dom) s = .next (s.withHub (((s.hub.modClko m fun o => { o with dom := dom }).setFld (kClko m 1) 2 1 dom).clkSync)))

/-- DOMAIN_TICK of a running domain, and a domain's counter and epoch (R19, R80, R81). The places of the parts beside publish,
snapshot, start and mix are the model's reading (assumption 43). -/
def Obligations.DomainTickAnswers : Prop :=
  (∀ (s : State) (d : Fin 4) (x : TickIn), s.live = true → (s.hub.dom d).run = true →
    let h := (s.hub.domCount d).publish d
    let h := if d.val = 0 ∧ s.hub.clk.started = false then h.firstTick else h
    let h := (h.strTick d).sinksTick d
    let h := (if d.val = 0 then h.chimeTick else h).snapshot d x
    let h := (h.engsOf d).foldl (fun h n => h.engJudge n) h
    let h := (h.matrixTick d).calTick d
    let h := if d.val = 0 then h.cueFire else h
    exec (.domainTick d x) s = .next (s.withHub (((h.engsOf d).foldl (fun h n => h.engBegin n) h).kickAll))) ∧
  (∀ (h : Hub) (d : Fin 4),
    ((h.dom d).fresh = false →
      ((h.domCount d).dom d).tick = (h.dom d).tick + 1 ∧
      ((h.domCount d).dom d).epoch = (h.dom d).epoch + if (h.dom d).tick = BitVec.allOnes 32 then 1 else 0) ∧
    ((h.dom d).fresh = true → ((h.domCount d).dom d).tick = 0 ∧ ((h.domCount d).dom d).epoch = 0) ∧
    (∀ e : Fin 4, e ≠ d → (h.domCount d).dom e = h.dom e))

/-- BUNDLE_LIMIT_END, SE_PLEN_WRITE, SLACK_MIN_RESET and SPEED_MONITOR_READING (R37, R40, R41, R194); the last clause: the length
in force stands (R37). -/
def Obligations.DeadlineCommandsAnswer : Prop :=
  (∀ (s : State) (n : Fin 16) (x : EndIn), s.live = true → (s.hub.engine n).run.inprog = true → 8192 ≤ (s.hub.engine n).run.count →
    let r := (s.hub.engine n).run
    let h := if r.count = r.plen then (s.hub.seFlag n 0x004).issueLimited 0 n 0x102 r.plen r.count 0 else s.hub
    exec (.bundleLimitEnd n x) s = .next (s.withHub (h.programEnd n x))) ∧
  (∀ (s : State) (n : Fin 16) (len : BitVec 14), s.live = true → s.hub.reserved n = false →
    ((s.hub.engine n).run.spen = true → len ≠ 0 ∧ len.toNat ≤ s.hub.budget n) →
    exec (.sePlenWrite n len) s = .next (s.wrote ((s.hub.setReg (kSe n 1) len.toNat).imageReg n 0x40001))) ∧
  (∀ (s : State) (n : Fin 16), s.live = true → s.hub.reserved n = false →
    exec (.slackMinReset n) s = .next (s.wrote (s.hub.setReg (kSe n 7) 0xFFFF))) ∧
  (∀ (s : State) (m : Fin 8) (rate : Word), s.live = true → rate.toNat < 480 →
    let h := s.hub.setReg (spc 0x3F (0x108 + m)) rate.toNat
    let h := { h with asc := { h.asc with breach := true, good := tput (fun _ => 0) h.asc.good m 0 } }
    exec (.speedMonitorReading m rate) s = .next (s.withHub
      (((h.setFlag (spc 0x3F 0x110)).issueLimited m 225 1 m rate.toNat (s.hub.reg 0x6E)).setCode (s.hub.fld 0x6F 13 8)))) ∧
  (∀ (s : State) (m : Fin 8) (rate : Word), s.live = true → 480 ≤ rate.toNat →
    let good := tput (fun _ => 0) s.hub.asc.good m (min 1000 (tget (fun _ => 0) s.hub.asc.good m + 1))
    let all := ∀ i : Fin 8, 1000 ≤ tget (fun _ => 0) good i
    ∃ t, exec (.speedMonitorReading m rate) s = .next t ∧ t.hub.reg (spc 0x3F (0x108 + m)) = rate.toNat ∧
      t.hub.asc.good = good ∧ (all → t.hub.asc.breach = false) ∧ (¬ all → t.hub.asc.breach = s.hub.asc.breach)) ∧
  (∀ (s : State) (n : Fin 16) (len : BitVec 14), s.live = true → s.hub.reserved n = false → (s.hub.engine n).run.spen = true →
      (len = 0 ∨ tickBudget (s.hub.dom (s.hub.domOf n)).rate < len.toNat) → s.hub.cp.fail = none →
      ∃ t, exec (.sePlenWrite n len) s = .next t ∧ t.hub.regs = s.hub.regs ∧ t.hub.engs = s.hub.engs ∧
        (s.hub.owner = 0 → s.hub.cp.serial.wstat = 0 → t.hub.cp.serial.wstat = 3) ∧
        (s.hub.owner = 1 → s.hub.cp.tunnel.wstat = 0 → t.hub.cp.tunnel.wstat = 3))

/-- ASC_EVALUATION in automatic mode (R43), with the code at or below CEIL. Where the count of intervals restarts beside a
lowering is the model's choice (assumption 126). -/
def Obligations.SupplyControlEvaluates : Prop :=
  ∀ s : State, s.live = true → s.hub.clk.started = true → s.hub.asc.breach = false → s.hub.fld 0x6F 1 0 = 0 →
    s.hub.reg 0x6E ≤ s.hub.fld 0x6F 13 8 →
    let code := s.hub.reg 0x6E
    let ceil := s.hub.fld 0x6F 13 8
    let slack := if s.hub.asc.any then s.hub.asc.slack else 0xFFFF
    let dwell := if s.hub.reg (spc 0x3F 0x101) ≤ slack then s.hub.asc.dwell + 1 else 0
    ∃ t, exec .ascEvaluation s = .next t ∧
      (s.hub.asc.missed = true → t.hub.reg 0x6E = min ceil (code + 8) ∧ t.hub.asc.dwell = 0) ∧
      (s.hub.asc.missed = false → slack < s.hub.reg (spc 0x3F 0x100) →
        t.hub.reg 0x6E = min ceil (code + 2) ∧ t.hub.asc.dwell = 0) ∧
      (s.hub.asc.missed = false → s.hub.reg (spc 0x3F 0x100) ≤ slack → s.hub.reg (spc 0x3F 0x102) ≤ dwell →
        t.hub.reg 0x6E = code - 1 ∧ t.hub.asc.dwell = 0) ∧
      (s.hub.asc.missed = false → s.hub.reg (spc 0x3F 0x100) ≤ slack → dwell < s.hub.reg (spc 0x3F 0x102) →
        t.hub.reg 0x6E = code ∧ t.hub.asc.dwell = dwell)

/-- The commands of SE_CTL, SE_BGCMD, SE_FAILREQ and SE_EVSET, and the two events of undefined code (R157, R164 to R166,
R170, R253). `ctl` is SE_CTL with only its defined fields. -/
def Obligations.EngineControlAnswers : Prop :=
  ∀ (s : State) (n : Fin 16), s.live = true → s.hub.reserved n = false →
  let old := s.hub.reg (kSe n 0x100)
  let ctl := fun spen bgen dom ecc : Nat => 32768 * spen + 16384 * bgen + 256 * dom + ecc
  let takes := fun (h : Hub) (w : Nat) =>
    (((h.setReg (kSe n 0x100) w).imageReg n 0x40100).modEng n fun e =>
      if bit w 14 then { e with bgen := true } else { e.dropHold true with bgen := false, fore := { (e.dropHold true).fore with wait := 0 } }).kickBg n
  (∀ w : Word, s.hub.calHolds n = false → s.hub.enableCause n 1 (bits w.toNat 9 8) = none →
    exec (.sampleProgramEnable n w) s =
      .next (s.wrote (takes s.hub (ctl 1 (bits w.toNat 14 14) (bits w.toNat 9 8) (bits w.toNat 0 0))))) ∧
  (s.hub.enableCause n 0 (bits old 9 8) = none →
    exec (.sampleProgramDisable n) s = .next (s.wrote (takes s.hub (ctl 0 (bits old 14 14) (bits old 9 8) (bits old 0 0))))) ∧
  (∀ d : Fin 4, s.hub.enableCause n (bits old 15 15) d = none →
    exec (.engineDomainChange n d) s = .next (s.wrote (takes s.hub (ctl (bits old 15 15) (bits old 14 14) d (bits old 0 0))))) ∧
  (s.hub.calHolds n = false →
    exec (.backgroundEnable n) s = .next (s.wrote (takes s.hub (ctl (bits old 15 15) 1 (bits old 9 8) (bits old 0 0))))) ∧
  exec (.backgroundDisable n) s = .next (s.wrote (takes s.hub (ctl (bits old 15 15) 0 (bits old 9 8) (bits old 0 0)))) ∧
  (((s.hub.engine n).bgen = false ∨ (s.hub.engine n).halt ≠ 0) →
    exec (.backgroundRestart n 1) s = .next (s.wrote (s.hub.bgStart n))) ∧
  (∀ fetch : Ecc, s.hub.bgRuns n = true → (s.hub.engine n).fore.held = [] →
    let pc := (s.hub.engine n).fore.pc
    let bad := (0, pc) ∈ (s.hub.engine n).ue ∨ fetch = .uncorrectable
    let halts := fun (h : Hub) (cause : Nat) =>
      ((h.modEng n fun e => ({ e with halt := cause, fore := { e.fore with held := [], wait := 0, rep := none, hold := false } } : Engine).flush).seFlag
        n 0x111).issue n 0x204 cause pc 0
    (bad → exec (.bgHalt n fetch) s = .next (s.withHub (halts (s.hub.engEcc n 0 pc .uncorrectable false) 2))) ∧
    (¬ bad → (∀ i, decodeSlot n true ((s.hub.engine n).progWord pc) ((s.hub.engine n).progWord (pc + 1)) = some i →
        (s.hub.engine n).fore.undefinedOp i = true) →
      exec (.bgHalt n fetch) s = .next (s.withHub (halts (s.hub.engEcc n 0 pc fetch false) 1)))) ∧
  (∀ fetch : List Ecc, s.hub.issues n = true → (s.hub.engine n).undefinedBundle n = true →
    let k := (s.hub.engine n).bundleWords (s.hub.engine n).shadow.pc
    ((s.hub.engine n).wordsFound k fetch).all (fun p => p.2 == .ok) = true →
    let h := s.hub.modBank n false fun b => { b with bundle := [] }
    exec (.illegalBundle n fetch) s = .next (s.withHub
      ((h.issueLimited 0 n 0x20A (h.engine n).shadow.pc 0 0).voidBundle n k))) ∧
  ((s.hub.engine n).st = .normal →
    exec (.engineFailRequest n 0x00FA) s = .next (s.wrote ((s.hub.declare n 3).kickSample n true))) ∧
  (∀ set : Word,
    let f := fun b : Bank => { b with latch := b.latch ||| set }
    exec (.eventLineSet n set) s = .next (s.wrote ((s.hub.modEng n fun e => { e with shadow := f e.shadow, fore := f e.fore }).kick n)))

/-- ENABLE_REFUSED (R157), of a reserved engine under cause 2 (R169); the order of the other causes is the model's choice
(assumption 14). -/
def Obligations.EngineEnableRefusals : Prop :=
  (∀ (s : State) (n : Fin 16) (w : Word) (c i : Nat), s.live = true → s.hub.reserved n = false → s.hub.calHolds n = false →
    (bit (s.hub.reg (kSe n 0x100)) 15 = false ∨ bits w.toNat 9 8 ≠ s.hub.fld (kSe n 0x100) 9 8) →
    s.hub.enableCause n 1 (bits w.toNat 9 8) = some (c, i) →
    let old := s.hub.reg (kSe n 0x100)
    let word := 32768 * bits old 15 15 + 16384 * bits w.toNat 14 14 + 256 * bits old 9 8 + bits w.toNat 0 0
    exec (.sampleProgramEnable n w) s = .next (s.wrote
      (((((s.hub.issue n 0x202 c i (putBits w.toNat 15 15 1)).setReg (kSe n 0x100) word).imageReg n 0x40100).modEng n fun e =>
        if bit w.toNat 14 then { e with bgen := true }
        else { e.dropHold true with bgen := false, fore := { (e.dropHold true).fore with wait := 0 } }).kickBg n))) ∧
  (∀ (h : Hub) (n : Fin 16) (spen : Fin 2) (dom : Fin 4),
    let bad1 := spen = 1 ∧ (h.reg (kSe n 1) = 0 ∨ tickBudget (h.dom dom).rate < h.reg (kSe n 1))
    let bad2 := (h.engine n).st ≠ .normal ∨ h.hasPe n = false
    let bad3 := spen = 1 ∧ (h.dom dom).en = false
    let bad4 := dom.val ≠ h.domOf n ∧ (h.engine n).run.spen = true
    let bad5 := ∃ i : Fin 32, let w := h.eff (kSe n (0x200 + i))
      bit w 15 = true ∧ ¬ (h.slotV (bits w 8 0) = true ∧ h.slotDom (bits w 8 0) = dom)
    let bad6 := ∃ o : Fin 32, let w := h.eff (kSe n (0x220 + o))
      bit w 15 = true ∧ h.slotIs (bits w 8 0) 0 (32 * n + o) = false
    let cause := (h.enableCause n spen dom).map Prod.fst
    (h.reserved n = true → cause = some 2) ∧
    (h.reserved n = false →
      (bad1 → cause = some 1) ∧ (¬ bad1 → bad2 → cause = some 2) ∧ (¬ bad1 → ¬ bad2 → bad3 → cause = some 3) ∧
      (¬ bad1 → ¬ bad2 → ¬ bad3 → bad4 → cause = some 4) ∧
      (¬ bad1 → ¬ bad2 → ¬ bad3 → ¬ bad4 → bad5 → cause = some 5) ∧
      (¬ bad1 → ¬ bad2 → ¬ bad3 → ¬ bad4 → ¬ bad5 → bad6 → cause = some 6) ∧
      (¬ bad1 → ¬ bad2 → ¬ bad3 → ¬ bad4 → ¬ bad5 → ¬ bad6 → cause = none)))

/-- SPARE_RESERVE, ENGINE_RETIRED and SPARE_RESTORED (R169, R609, R610, R614). -/
def Obligations.SubstitutionAnswers : Prop :=
  (∀ (s : State) (w : Word), s.live = true → s.hub.spareRefused w.toNat = false →
    let old := s.hub.reg 0x23
    let used := 64 * b2n (bit old 6 && bit w.toNat 7) + 16384 * b2n (bit old 14 && bit w.toNat 15)
    exec (.spareReserve w) s = .next (s.withHub ((s.hub.setReg 0x23 ((w.toNat &&& 0x8F8F) + used)).markSpares.serveLost))) ∧
  (∀ (s : State) (n : Fin 16) (k : Nat), s.live = true → s.hub.sub.active = none → s.hub.sub.waiting.head? = some n.val →
    (s.hub.engine n).st = .failing →
    let pe := s.hub.peOf n
    let h := s.hub.modSub fun x => { x with waiting := x.waiting.drop 1 }
    let h := h.modEng n fun e =>
      { e with shadow := { e.shadow.unhold with rep := none, hold := false }, fore := { e.fore.unhold with rep := none, hold := false },
               park := [], faults := [], heldWr := [], tags := ⟨{}, {}, {}, {}⟩,
               run := { e.run with inprog := false, pend := false, oldPe := pe } }.farRetire
    let h := { h with clu := { h.clu with xl := h.clu.xl.filter fun q => q.eng != n } }
    let h := ((h.setReg (kMapSe n) 0).setReg (kPe pe) 0x8000).markSpares
    (h.spareEntry = some k → exec (.engineRetired n) s = .next (s.withHub (h.takeSpare n k))) ∧
    (h.spareEntry = none → ∃ t, exec (.engineRetired n) s = .next t ∧ (t.hub.engine n).st = .failed)) ∧
  (∀ (s : State) (n : Fin 16) (us : Word) (old new : Nat), s.live = true → s.hub.sub.active = some (n.val, old, new) → s.hub.sub.ready = false →
    let h := (s.hub.restore n).modSub fun x => { x with us := us }
    (bit (h.reg (kSe n 0x100)) 15 = true →
      exec (.spareRestored n us) s = .next (s.withHub (h.modSub fun x => { x with ready := true }))) ∧
    (bit (h.reg (kSe n 0x100)) 15 = false →
      exec (.spareRestored n us) s = .next (s.withHub (((h.serve n false).substituted n old new).kick n))))

/-- SPARE_RESERVE, ENGINE_RETIRED and SPARE_RESTORED complete, by what each leaves, where no engine is lost (R168, R169, R609,
R610, R614); which engine is the source of SPARE_REFUSED may be the model's choice (assumption 135). -/
def Obligations.SpareCommandsComplete : Prop :=
  (∀ (s : State) (w : Word), s.live = true → (∀ m : Fin 16, (s.hub.engine m).st ≠ .failed) →
    let old := s.hub.reg 0x23
    let l := fun (x : Nat) (k : Fin 2) => bits x (8 * k + 3) (8 * k)
    let names := fun (x : Nat) (k : Fin 2) => bit x (8 * k + 7) = true
    let runs := fun m : Nat => bit (s.hub.reg (kSe m 0x100)) 15 = true ∨ (s.hub.engine m).run.spen = true ∨ (s.hub.engine m).bgen = true
    let newly := ∃ k, names w.toNat k ∧ s.hub.reserved (l w.toNat k) = false ∧ runs (l w.toNat k)
    let releases := ∃ k : Fin 2, names old k ∧ bit old (8 * k + 6) = true ∧ ¬ (names w.toNat k ∧ l w.toNat k = l old k)
    let busy := s.hub.sub.active ≠ none ∨ s.hub.sub.waiting ≠ []
    let same := names w.toNat 0 ∧ names w.toNat 1 ∧ l w.toNat 0 = l w.toNat 1
    (¬ (newly ∨ releases ∨ busy ∨ same) → ∃ t, exec (.spareReserve w) s = .next t ∧
      t.hub.reg 0x23 = (w.toNat &&& 0x8F8F) + 64 * b2n (bit old 6 && bit w.toNat 7) + 16384 * b2n (bit old 14 && bit w.toNat 15) ∧
      (∀ m : Fin 16, t.hub.reserved m = true ↔ ∃ k, names w.toNat k ∧ l w.toNat k = m) ∧
      t.hub.engs = s.hub.engs ∧ t.hub.sub = s.hub.sub ∧ t.hub.ev = s.hub.ev ∧ t.q = s.q) ∧
    (newly ∨ releases ∨ busy ∨ same → ∃ src, src < 16 ∧
      exec (.spareReserve w) s = .next (s.withHub (s.hub.issue src 0x20B w.toNat 0 0)))) ∧
  (∀ (s : State) (n : Fin 16), s.live = true → s.hub.sub.active = none → s.hub.sub.waiting.head? = some n.val →
    (s.hub.engine n).st = .failing →
    (∀ k : Fin 2, s.hub.spareThere k = true → (k = 1 → s.hub.spareThere 0 = false) →
      let l := s.hub.fld 0x23 (8 * k + 3) (8 * k)
      ∃ t, exec (.engineRetired n) s = .next t ∧ (t.hub.engine n).st = .substituting ∧ (t.hub.engine n).park = [] ∧
        (t.hub.engine n).tags = ⟨{}, {}, {}, {}⟩ ∧ t.hub.sub.active = some (n.val, s.hub.peOf n, s.hub.peOf l) ∧
        t.hub.sub.waiting = s.hub.sub.waiting.drop 1 ∧ t.hub.hasPe n = true ∧ t.hub.peOf n = s.hub.peOf l ∧
        t.hub.hasPe l = false ∧ bit (t.hub.reg 0x23) (8 * k + 6) = true ∧ t.hub.ev = s.hub.ev) ∧
    (s.hub.spareThere 0 = false → s.hub.spareThere 1 = false → s.hub.calHolds n = false →
      ∃ t, exec (.engineRetired n) s = .next t ∧ (t.hub.engine n).st = .failed ∧ t.hub.hasPe n = false ∧ t.hub.sub.active = none ∧
        t.hub.sub.waiting = s.hub.sub.waiting.drop 1 ∧ t.hub.flag 0x7B = true ∧
        (bit (s.hub.reg (evCfg 245)) 2 = false → ∃ r, t.hub.ev = s.hub.ev.take 245 r ∧ r.code = 3 ∧ r.data0 = BitVec.ofNat 16 n ∧
          r.data1 = BitVec.ofNat 16 (s.hub.peOf n) ∧ r.data2 = BitVec.ofNat 16 (s.hub.engine n).run.failCause))) ∧
  (∀ (s : State) (n : Fin 16) (us : Word) (old new : Nat), s.live = true → s.hub.sub.active = some (n.val, old, new) →
    s.hub.sub.ready = false →
    let img := (s.hub.engine n).image
    let spen := bit (tget imageReset img.regs 0x40100).toNat 15
    let got := fun e : Engine => e.prog = img.prog ∧ e.y = img.y ∧ e.x = [] ∧ e.xVoid = [] ∧ e.walk = []
    (spen = true → ∃ t, exec (.spareRestored n us) s = .next t ∧ t.hub.sub.ready = true ∧ t.hub.sub.us = us ∧
      t.hub.sub.active = some (n.val, old, new) ∧ got (t.hub.engine n)) ∧
    (spen = false → old < 16 → new < 16 → (s.hub.engine n).run.failCause < 16 → (∀ m : Fin 16, (s.hub.engine m).st ≠ .failed) →
      ∃ t, exec (.spareRestored n us) s = .next t ∧ t.hub.sub.active = none ∧ (t.hub.engine n).st = .normal ∧
        t.hub.reg 0x79 = 4096 * n + 256 * new + 16 * old + (s.hub.engine n).run.failCause ∧ t.hub.reg 0x7A = us.toNat ∧
        t.hub.flag 0x7B = true ∧ got (t.hub.engine n)))

/-- ENGINE_FAIL_REQUEST (R170). -/
def Obligations.FailingEngineIsDeclared : Prop :=
  (∀ (s : State) (n : Fin 16), s.live = true → s.hub.reserved n = false → (s.hub.engine n).st = .normal →
    (s.hub.engine n).shadow.held = [] →
    ∃ t, exec (.engineFailRequest n 0x00FA) s = .next t ∧ (t.hub.engine n).st = .failing ∧
      (t.hub.engine n).run.failCause = 3 ∧ (t.hub.engine n).commit = none ∧
      t.hub.sub.waiting = s.hub.sub.waiting ++ [n.val] ∧
      (∀ m : Fin 16, m ≠ n → t.hub.engine m = s.hub.engine m)) ∧
  (∀ (s : State) (n : Fin 16) (key : Word), s.live = true → key ≠ 0x00FA → s.hub.cp.fail = none →
    exec (.engineFailRequest n key) s = .next s) ∧
  (∀ (s : State) (n : Fin 16), s.live = true → (s.hub.engine n).st ≠ .normal → (s.hub.engine n).shadow.held = [] → s.hub.cp.fail = none →
    exec (.engineFailRequest n 0x00FA) s = .next s)

/-- Every well-formed operation is read back from its slot words with every field; a slot word spells at most one operation,
which is well-formed and gives the word back; an opcode that is not assigned spells none (R182, R184, R189, R191). -/
def Obligations.SlotWordsRoundTrip : Prop :=
  (∀ (i : Instr) (n : Fin 16) (bg : Bool) (hd : Hdr) (c : Cls), opHome i = some (n, bg) → opSlot i = some (hd, c) → i.wf = true →
    hd.fetch = .ok → hd.reads = [] → (∀ x, i = .opEnd n bg hd x → x = ⟨0, 0⟩) →
    ∃ w ws, slotWords i = w :: ws ∧ ∀ lit : BitVec 32, (ws = [] ∨ ws = [lit]) → decodeSlot n bg w lit = some i) ∧
  (∀ (n : Fin 16) (bg : Bool) (w lit : BitVec 32) (i : Instr), decodeSlot n bg w lit = some i →
    opHome i = some (n, bg) ∧ i.wf = true ∧ (slotWords i).head? = some w) ∧
  (∀ (n : Fin 16) (bg : Bool) (w lit : BitVec 32),
    let opc := bits w.toNat 24 20
    let assigned := match bits w.toNat 30 29 with
      | 0 => opc ≤ 0x02 ∨ (0x04 ≤ opc ∧ opc ≤ 0x06) ∨ (0x08 ≤ opc ∧ opc ≤ 0x0B)
      | 1 => opc ≤ 0x08 ∨ 0x10 ≤ opc
      | 2 => opc ≤ 0x0C
      | _ => opc ≤ 0x0B ∨ opc = 0x10 ∨ opc = 0x11
    ((∃ i, decodeSlot n bg w lit = some i) ↔ assigned))

/-- Operations of a sample program whose stop bit is clear are gathered (R182, R185). -/
def Obligations.SlotsGatherInTheirBundle : Prop :=
  ∀ (s : State) (i : Instr) (n : Fin 16), s.live = true → opHome i = some (n, false) → (s.hub.engine n).placed false i = true →
    s.hub.issues n = true → opStops i = false →
    let is := (s.hub.engine n).shadow.bundle ++ [i]
    words is < 4 → exec i s = .next (s.withHub (s.hub.modBank n false fun b => { b with bundle := is }))

/-- A complete bundle executes: all slots read before any writes (R186). -/
def Obligations.BundlesExecuteWhole : Prop :=
  ∀ (s : State) (i : Instr) (n : Fin 16), s.live = true → opHome i = some (n, false) → (s.hub.engine n).placed false i = true →
    s.hub.issues n = true → opStops i = true → (s.hub.engine n).shadow.rep = none →
    let is := (s.hub.engine n).shadow.bundle ++ [i]
    let last := lastWord (s.hub.engine n).shadow.pc is
    let h := (s.hub.modBank n false fun b => { b with bundle := [] }).modEng n fun e => e.land false
    let v := h.viewOf n false last
    bundleOk is = true → ((s.hub.engine n).bundleFound is).all (fun p => p.2 == .ok) = true → (s.hub.engine n).run.discard = false →
    (∀ j ∈ is, (∀ m b hd f, j ≠ .opRep m b hd f) ∧ ∀ m b hd x, j ≠ .opEnd m b hd x) → v.bundleWaits is = 0 →
    let effs := bundleEffs v is
    let h := effs.zipIdx.foldl (fun h x => h.applyEff n false false x.2 x.1) { h with free := h.free + 16 * is.length }
    let h := (h.modBank n false fun b => { b with pos := b.pos + 1 }).modRun n fun r => { r with count := r.count + 1 }
    let ctl := (effs.map fun x => x.1.ctl).getLastD .go
    let h := match ctl with | .enter => h.modBank n false fun b => { b with depth := b.depth + 1 } | _ => h
    exec i s = .next (s.withHub (((h.modEng n fun e => e.repDone false).nextBundle n last ctl).kickAll))

/-- An undefined bundle has no effect but the count, the void outputs and its event (R166). -/
def Obligations.UndefinedBundlesAreVoid : Prop :=
  ∀ (s : State) (i : Instr) (n : Fin 16), s.live = true → opHome i = some (n, false) → (s.hub.engine n).placed false i = true →
    s.hub.issues n = true → opStops i = true →
    let is := (s.hub.engine n).shadow.bundle ++ [i]
    bundleOk is = false → ((s.hub.engine n).bundleFound is).all (fun p => p.2 == .ok) = true →
    let h := (s.hub.modBank n false fun b => { b with bundle := [] }).issueLimited 0 n 0x20A (s.hub.engine n).shadow.pc 0 0
    let h := h.modEng n fun e =>
      let e := (e.land false).repDone false
      { e with shadow := { e.shadow with pos := e.shadow.pos + 1 }, run := { e.run with outVoid := true, count := e.run.count + 1 } }
    exec i s = .next (s.withHub ((h.advance n false ((h.engine n).shadow.pc + min 4 (words is) - 1)).kickAll))

/-- The multiplying operations (R220). -/
def Obligations.MultipliesRun : Prop :=
  ∀ (s : State) (n : Fin 16) (hd : Hdr) (f : MM), s.live = true →
  let uns := fun (k : Nat) (r : RVal) => if bit f.sg.val k then ((r.n % 65536 : Nat) : Int) else r.s 16
  let acc := fun (v : View) => v.chain 3 (16 + f.ad)
  let res := fun (t : Int) (chain : Bool) (ops : List RVal) =>
    let x := fit (if bit f.aux.toNat 1 then roundAt t 16 f.rm else t) 40 f.sat
    ({ wr := [⟨16 + f.ad, (rvI 40 x.1).joins ops, 3, chain, false⟩], ops := ops, stick := x.2 } : Eff)
  let p16 := fun (v : View) => uns 1 (v.d 0 f.sa) * uns 0 (v.d 2 f.sb) * (if bit f.aux.toNat 0 then 1 else 2)
  let p32 := fun (v : View) =>
    shrRound ((if bit f.sg.val 1 then ((v.pair 0 f.sa).n : Int) else (v.pair 0 f.sa).s 32) * uns 0 (v.d 2 f.sb) * 2) 16 f.rm
  (∀ i, i = .mpy n false hd f → Alone s.hub n i → let v := s.hub.slotView n i
    RunsAs s n i (res (p16 v) false [v.d 0 f.sa, v.d 2 f.sb])) ∧
  (∀ i, i = .mac n false hd f → Alone s.hub n i → let v := s.hub.slotView n i
    RunsAs s n i (res ((acc v).s 40 + p16 v) true [acc v, v.d 0 f.sa, v.d 2 f.sb])) ∧
  (∀ i, i = .msu n false hd f → Alone s.hub n i → let v := s.hub.slotView n i
    RunsAs s n i (res ((acc v).s 40 - p16 v) true [acc v, v.d 0 f.sa, v.d 2 f.sb])) ∧
  (∀ i, i = .mpyd n false hd f → Alone s.hub n i → let v := s.hub.slotView n i
    RunsAs s n i (res (p32 v) false [v.pair 0 f.sa, v.d 2 f.sb])) ∧
  (∀ i, i = .macd n false hd f → Alone s.hub n i → let v := s.hub.slotView n i
    RunsAs s n i (res ((acc v).s 40 + p32 v) true [acc v, v.pair 0 f.sa, v.d 2 f.sb])) ∧
  (∀ i, i = .msud n false hd f → Alone s.hub n i → let v := s.hub.slotView n i
    RunsAs s n i (res ((acc v).s 40 - p32 v) true [acc v, v.pair 0 f.sa, v.d 2 f.sb]))

/-- ACLR, ASHF, AADD, ASUB (R221), EXT (R226) and ACS (R230). -/
def Obligations.AccumulatorOpsRun : Prop :=
  ∀ (s : State) (n : Fin 16) (hd : Hdr), s.live = true →
  (∀ (f : MM) i, i = .aclr n false hd f → Alone s.hub n i → let v := s.hub.slotView n i
    RunsAs s n i (if f.aux = 0 then .one (16 + f.ad) 3 (rv 0) []
      else if f.aux = 1 then .one (16 + f.ad) 3 (rvI 40 ((v.d 0 f.sa).s 16 * 65536)) [v.d 0 f.sa]
      else .one (16 + f.ad) 3 (rvI 40 ((v.pair 0 f.sa).s 32)) [v.pair 0 f.sa])) ∧
  (∀ (f : MM) i, i = .ashf n false hd f → Alone s.hub n i → let v := s.hub.slotView n i
    let a := v.reg 0 (16 + f.sa.val)
    let x := fit (if 0 ≤ f.aux.toInt then a.s 40 * 2 ^ f.aux.toInt.toNat else shrRound (a.s 40) (-f.aux.toInt).toNat f.rm) 40 f.sat
    RunsAs s n i (.one (16 + f.ad) 3 (rvI 40 x.1) [a] x.2)) ∧
  (∀ (f : MM) (sub : Bool) i, i = (if sub then .asub n false hd f else .aadd n false hd f) → Alone s.hub n i →
    let v := s.hub.slotView n i
    let a := v.reg 0 (16 + f.ad)
    let b := v.reg 1 (16 + f.sa.val)
    let t := if sub then a.s 40 - b.s 40 else a.s 40 + b.s 40
    let x := fit (if f.aux = 2 then roundAt t 16 f.rm else t) 40 f.sat
    RunsAs s n i { wr := [⟨16 + f.ad, (rvI 40 x.1).joins [a, b], 3, false, false⟩], ops := [a, b], stick := x.2 }) ∧
  (∀ (f : XR) i, i = .opExt n false hd f → Alone s.hub n i → let v := s.hub.slotView n i
    let a := v.reg 0 (16 + f.ax)
    let hi := fit (shrRound (a.s 40) 16 f.rm) 16 f.sat
    let pr := fit (a.s 40) 32 f.sat
    let int := fit (a.s 40) 16 f.sat
    RunsAs s n i (if f.fn = 0 then .one f.dst 1 (rvI 16 hi.1) [a] hi.2
      else if f.fn = 1 then .one f.dst 1 (rv (a.n % 65536)) [a]
      else if f.fn = 2 then .pair f.dst 1 (BitVec.ofInt 32 pr.1).toNat [a] pr.2
      else if f.fn = 3 then .one f.dst 1 (rvI 16 (a.s 40 / 2 ^ 32)) [a]
      else .one f.dst 1 (rvI 16 int.1) [a] int.2)) ∧
  (∀ (f : XR) i, i = .acs n false hd f → Alone s.hub n i → let v := s.hub.slotView n i
    let m0 := v.d 0 f.sa
    let m1 := v.d 1 (f.sa.val + 1)
    let dec := v.reg 3 (16 + f.ax)
    let b := if bit f.fn.val 0 then -((v.d 2 f.sb).s 16) else (v.d 2 f.sb).s 16
    let better := fun y x : Int => let d := (BitVec.ofInt 16 (y - x)).toInt; if bit f.fn.val 1 then decide (d < 0) else decide (0 < d)
    let d0 := better (m1.s 16 - b) (m0.s 16 + b)
    let d1 := better (m1.s 16 + b) (m0.s 16 - b)
    let ops := [m0, m1, v.d 2 f.sb, dec]
    RunsAs s n i
      { wr := [⟨f.dst, (rvI 16 (if d0 then m1.s 16 - b else m0.s 16 + b)).joins ops, 1, false, false⟩,
               ⟨f.dst.val + 1, (rvI 16 (if d1 then m1.s 16 + b else m0.s 16 - b)).joins ops, 1, false, false⟩,
               ⟨16 + f.ax, (rv ((dec.n * 4 + 2 * b2n d1 + b2n d0) % 2 ^ 40)).joins ops, 1, false, false⟩,
               ⟨64 + f.fn.val / 4, (rv (b2n d0)).joins ops, 2, false, false⟩], ops := ops })

/-- ALU (R222), DALU (R225), SHF (R223), CMP (R224), INS (R227), MOV (R228) and LDX (R229). -/
def Obligations.XSlotOpsRun : Prop :=
  ∀ (s : State) (n : Fin 16) (hd : Hdr), s.live = true →
  let fn2 := fun (fn w : Nat) (sat rm : Bool) (a b : Nat) =>
    let sa := sgn w a; let sb := sgn w b
    ([fit (sa + sb) w sat, fit (sa - sb) w sat, fit (-sa) w sat, fit |sa| w sat, (((a &&& b : Nat) : Int), 0), (((a ||| b : Nat) : Int), 0),
      (((a ^^^ b : Nat) : Int), 0), (((2 ^ w - 1 - a : Nat) : Int), 0), (min sa sb, 0), (max sa sb, 0), (((min a b : Nat) : Int), 0),
      (((max a b : Nat) : Int), 0), (shrRound (sa + sb) 1 rm, 0)] : List (Int × Nat)).getD fn (0, 0)
  let one := fun fn : Nat => fn = 2 ∨ fn = 3 ∨ fn = 7
  (∀ (f : XR) i, i = .alu n false hd f → Alone s.hub n i → let v := s.hub.slotView n i
    let a := v.d 0 f.sa; let b := v.d 1 f.sb; let x := fn2 f.fn 16 f.sat f.rm a.n b.n
    RunsAs s n i (.one f.dst 1 (rvI 16 x.1) (if one f.fn then [a] else [a, b]) x.2)) ∧
  (∀ (f : XR) i, i = .dalu n false hd f → Alone s.hub n i → let v := s.hub.slotView n i
    let a := v.pair 0 f.sa; let b := v.pair 2 f.sb; let x := fn2 f.fn 32 f.sat f.rm a.n b.n
    RunsAs s n i (.pair f.dst 1 (BitVec.ofInt 32 x.1).toNat (if one f.fn then [a] else [a, b]) x.2)) ∧
  (∀ (f : XR) i, i = .shf n false hd f → Alone s.hub n i → let v := s.hub.slotView n i
    let a := v.d 0 f.sa; let c := v.d 1 f.sb
    let k := if bit f.fn.val 2 then f.sb.val else c.n % 32
    let ops := if bit f.fn.val 2 then [a] else [a, c]
    let u := a.n % 65536
    let l := fit (a.s 16 * 2 ^ k) 16 f.sat
    RunsAs s n i (if f.fn.val % 4 = 0 then .one f.dst 1 (rvI 16 l.1) ops l.2
      else if f.fn.val % 4 = 1 then .one f.dst 1 (rv (u / 2 ^ k)) ops
      else if f.fn.val % 4 = 2 then .one f.dst 1 (rvI 16 (shrRound (a.s 16) (min k 16) f.rm)) ops
      else .one f.dst 1 (rv (u * 2 ^ (k % 16) % 65536 + u / 2 ^ (16 - k % 16))) ops)) ∧
  (∀ (f : XR) i, i = .cmp n false hd f → Alone s.hub n i → let v := s.hub.slotView n i
    let a := v.d 0 f.sa; let b := v.d 1 f.sb; let p := v.reg 2 (64 + f.dst)
    let c := [decide (a.n = b.n), decide (a.n ≠ b.n), decide (a.s 16 < b.s 16), decide (a.s 16 ≤ b.s 16), decide (a.n < b.n),
      decide (a.n ≤ b.n), decide (a.n &&& b.n ≠ 0)].getD (f.fn.val % 8) false
    RunsAs s n i (if bit f.fn.val 3 then .one (64 + f.dst) 2 (rv (b2n (c && p.n == 1))) [a, b, p]
      else .one (64 + f.dst) 2 (rv (b2n c)) [a, b])) ∧
  (∀ (f : XR) i, i = .ins n false hd f → Alone s.hub n i → let v := s.hub.slotView n i
    let old := v.file 0 (f.fn.val / 4) f.dst; let a := v.d 4 f.sa; let c := v.d 5 f.sb
    let pos := c.n % 16
    let mask := (2 ^ (c.n / 16 % 16 + 1) - 1) * 2 ^ pos % 65536
    RunsAs s n i (fileWrite (f.fn.val / 4) f.dst
      (rv ((old.n % 65536 &&& (65535 - mask)) ||| (a.n * 2 ^ pos % 65536 &&& mask))) [old, a, c])) ∧
  (∀ (f : XR) i, i = .opMov n false hd f → Alone s.hub n i → let v := s.hub.slotView n i
    let a := v.file 0 (f.fn.val % 4) f.sa
    RunsAs s n i (fileWrite (f.fn.val / 4) f.dst a [a])) ∧
  (∀ (f : TI) i, i = .ldx n false hd f → Alone s.hub n i → RunsAs s n i (.one f.dst 1 (rv f.imm.toNat) []))

/-- LD and ST (R235), MODP (R237), LDI to LDIR (R240), FLD and FST (R241), PUSH and POP (R250). -/
def Obligations.TSlotOpsRun : Prop :=
  ∀ (s : State) (n : Fin 16) (hd : Hdr), s.live = true →
  (∀ (f : TM) i, i = .ld n false hd f → Alone s.hub n i → let v := s.hub.slotView n i
    let m := b2n f.ms
    let a := v.tmAddr f
    let x := v.read m a (found hd.reads 0)
    let y := v.read m (a + 1) (found hd.reads 1)
    RunsAs s n i (if f.w then
        { wr := [⟨f.dr, x.1, 2, false, false⟩, ⟨f.dr.val + 1, y.1, 2, false, false⟩] ++ v.tmWr f, ops := [x.1, y.1], ecc := x.2 ++ y.2 }
      else { wr := ⟨f.dr, x.1, 2, false, false⟩ :: v.tmWr f, ops := [x.1], ecc := x.2 })) ∧
  (∀ (f : TM) i, i = .st n false hd f → Alone s.hub n i → let v := s.hub.slotView n i
    let m := b2n f.ms
    let a := v.tmAddr f
    let x := v.d 0 f.dr
    let y := v.d 1 (f.dr.val + 1)
    let step := (v.tmWr f).map fun w => { w with free := true }
    RunsAs s n i (if f.w then { wr := step, st := [(m, a, x), (m, a + 1, y)], ops := [x, y] }
      else { wr := step, st := [(m, a, x)], ops := [x] })) ∧
  (∀ (f : TM) i, i = .modp n false hd f → Alone s.hub n i → let v := s.hub.slotView n i
    RunsAs s n i { wr := [⟨rP f.pr, rv (v.tmPost f), 1, false, false⟩] }) ∧
  (∀ (f : TI) i, i = .ldi n false hd f → Alone s.hub n i → RunsAs s n i (.one f.dst 1 (rv f.imm.toNat) [])) ∧
  (∀ (f : TI) i, i = .ldip n false hd f → Alone s.hub n i → RunsAs s n i (.one (rP f.dst) 1 (rv f.imm.toNat) [])) ∧
  (∀ (f : TI) i, i = .ldio n false hd f → Alone s.hub n i → RunsAs s n i (.one (rO f.dst) 1 (rv f.imm.toNat) [])) ∧
  (∀ (f : TI) i, i = .ldib n false hd f → Alone s.hub n i → RunsAs s n i (.one (rB f.dst) 1 (rv f.imm.toNat) [])) ∧
  (∀ (f : TI) i, i = .ldil n false hd f → Alone s.hub n i → RunsAs s n i (.one (rL f.dst) 1 (rv f.imm.toNat) [])) ∧
  (∀ (f : TI) i, i = .ldir n false hd f → Alone s.hub n i →
    let level := f.dst.val / 4
    RunsAs s n i (.one (if f.dst.val % 4 = 0 then rLS level else if f.dst.val % 4 = 1 then rLE level else rLC level) 4 (rv f.imm.toNat) [])) ∧
  (∀ (f : TF) (store : Bool) i, i = (if store then .fst n false hd f else .fld n false hd f) → Alone s.hub n i →
    let v := s.hub.slotView n i
    let fa := v.pair 0 f.fa
    let px := (v.reg 8 (rP f.px)).n
    let k := f.nm1.toNat + 1
    let src := if store then (List.range k).map fun j => v.read 0 ((px + j) % 0x8000) (found hd.reads j) else []
    RunsAs s n i
      { far := some { store := store, far := fa.n % 2 ^ 24, x := px % 0x8000, n := k,
                      data := src.map fun p => BitVec.ofNat 16 p.1.n },
        wr := if f.aux.getLsbD 0 then [⟨rP f.px, rv ((px + k) % 65536), 1, false, true⟩] else [], ops := [fa],
        met := src.map Prod.fst, ecc := (src.map Prod.snd).flatten }) ∧
  (∀ (f : TM) i, i = .push n false hd f → Alone s.hub n i → let v := s.hub.slotView n i
    let sp := (v.reg 8 rSP).n
    s.hub.reg (kSe n 0x107) ≤ sp →
    RunsAs s n i { st := [(0, sp, v.d 0 f.dr)], wr := [⟨rSP, rv ((sp + 65535) % 65536), 1, false, false⟩], ops := [v.d 0 f.dr] }) ∧
  (∀ (f : TM) i, i = .pop n false hd f → Alone s.hub n i → let v := s.hub.slotView n i
    let sp := (v.reg 8 rSP).n
    let x := v.read 0 (sp + 1) (found hd.reads 0)
    sp < s.hub.reg (kSe n 0x106) →
    RunsAs s n i { wr := [⟨f.dr, x.1, 2, false, false⟩, ⟨rSP, rv (sp + 1), 1, false, false⟩], ops := [x.1], ecc := x.2 })

/-- The K-class operations (R243, R249, R253 to R255) and ACSTB (R231). -/
def Obligations.ControlOpsRun : Prop :=
  ∀ (s : State) (n : Fin 16) (hd : Hdr), s.live = true →
  (∀ i, i = .opNop n false hd → Alone s.hub n i → RunsAs s n i {}) ∧
  (∀ (cm1 : BitVec 12) (ofs : Byte) i, i = .opDo n false hd cm1 ofs → Alone s.hub n i → let v := s.hub.slotView n i
    let d := v.b.depth
    d < 4 → RunsAs s n i
      { wr := [⟨rLS d, rv ((v.last + 1) % 0x8000), 4, false, false⟩, ⟨rLE d, rv ((v.last + 1 + ofs.toNat) % 0x8000), 4, false, false⟩,
               ⟨rLC d, rv (cm1.toNat + 1), 4, false, false⟩], ctl := .enter }) ∧
  (∀ i, i = .dor n false hd → Alone s.hub n i → let v := s.hub.slotView n i
    v.b.depth < 4 → RunsAs s n i { wr := [⟨rLS v.b.depth, rv ((v.last + 1) % 0x8000), 4, false, false⟩], ctl := .enter }) ∧
  (∀ (tgt : BitVec 15) (lit : BitVec 32) i, i = .call n false hd tgt lit → Alone s.hub n i → let v := s.hub.slotView n i
    let sp := (v.reg 8 rSP).n
    let mask := lit.toNat % 65536
    let rs := (List.range 16).filter fun k => bit mask k
    let frame := (rs.map fun k => v.d (k % 8) k) ++ [rv mask, rv ((v.last + 1) % 0x8000)]
    s.hub.reg (kSe n 0x107) + frame.length ≤ sp + 1 →
    RunsAs s n i { st := frame.zipIdx.map fun p => (0, sp - p.2, p.1),
                   wr := [⟨rSP, rv ((sp + 65536 - frame.length) % 65536), 1, false, false⟩],
                   ops := rs.map fun k => v.d (k % 8) k, ctl := .jump tgt.toNat }) ∧
  (∀ i, i = .ret n false hd → Alone s.hub n i → let v := s.hub.slotView n i
    let sp := (v.reg 8 rSP).n
    let link := v.read 0 (sp + 1) (found hd.reads 0)
    let mask := v.read 0 (sp + 2) (found hd.reads 1)
    let rd := ((List.range 16).filter fun k => bit mask.1.n k).reverse.zipIdx.map fun p => (p.1, v.read 0 (sp + 3 + p.2) (found hd.reads (2 + p.2)))
    sp + rd.length + 2 ≤ s.hub.reg (kSe n 0x106) →
    RunsAs s n i { wr := rd.map (fun p => ⟨p.1, p.2.1, 2, false, false⟩) ++ [⟨rSP, rv ((sp + rd.length + 2) % 65536), 1, false, false⟩],
                   ops := [link.1, mask.1] ++ rd.map fun p => p.2.1,
                   ecc := link.2 ++ mask.2 ++ (rd.map fun p => p.2.2).flatten, ctl := .jump (link.1.n % 0x8000) }) ∧
  (∀ (f : KW) i, i = .wfe n false hd f → Alone s.hub n i → RunsAs s n i { wfe := some f.ev }) ∧
  (∀ (f : KW) i, i = .sev n false hd f → Alone s.hub n i → RunsAs s n i { sev := some f.ev }) ∧
  (∀ (f : KW) i, i = .wtc n false hd f → Alone s.hub n i → RunsAs s n i { ops := [(s.hub.slotView n i).pair 0 f.cr] }) ∧
  (∀ i, i = .wfc n false hd → Alone s.hub n i → RunsAs s n i {}) ∧
  (∀ i, i = .acstb n false hd → Alone s.hub n i → let v := s.hub.slotView n i
    let d15 := v.d 0 15; let d14 := v.d 1 14; let p7 := (v.reg 2 (rP 7)).n
    let j := d15.n % 32
    let hi := d15.n % 64 / 32
    let r := v.read 0 ((p7 + j / 8) % 65536) (found hd.reads 0)
    let w := r.1
    let dec := w.n / 2 ^ (2 * (7 - j % 8) + hi) % 2
    RunsAs s n i { wr := [⟨14, (rv (d14.n / 2 + hi * 32768)).joins [d14, d15, w], 2, false, false⟩, ⟨15, (rv (2 * j + dec)).joins [d14, d15, w], 2, false, false⟩,
                          ⟨rP 7, rv (circ p7 (v.reg 3 (rB 7)).n (v.reg 4 (rL 7)).n (v.reg 5 (rO 7)).n), 1, false, false⟩], ops := [d14, d15, w],
                   ecc := r.2 })

/-- What a bundle of one waiting operation does: it is held (R36, R253 to R255). -/
def Obligations.WaitsHoldTheBundle : Prop :=
  ∀ (s : State) (n : Fin 16) (hd : Hdr) (i : Instr), s.live = true → (s.hub.engine n).placed false i = true → s.hub.issues n = true →
    (s.hub.engine n).shadow.bundle = [] → hd.s = true → (s.hub.engine n).run.discard = false →
    ((s.hub.engine n).bundleFound [i]).all (fun p => p.2 == .ok) = true → bundleOk [i] = true →
    let v := s.hub.slotView n i
    ∀ code, ((∃ f, i = .wfe n false hd f ∧ v.b.latch.getLsbD f.ev = false ∧ code = 1) ∨
      (∃ f, i = .wtc n false hd f ∧ (v.pair 0 f.cr).conf = true ∧ v.h.reached f.dom (v.pair 0 f.cr).n = false ∧ code = 2) ∨
      (i = .wfc n false hd ∧ v.e.cremaOut false = true ∧ code = 3)) →
    ∃ h : Hub, exec i s = .next (s.withHub h.kickAll) ∧ (h.engine n).shadow.held = [i] ∧ (h.engine n).shadow.wait = code ∧
      (h.engine n).shadow.pc = (s.hub.engine n).shadow.pc ∧ (h.engine n).run.inprog = true

/-- END (R161, R192) and REP (R247): a bundle under REP stays until its last repetition. That each repetition is a command of
its own is the model's reading (assumption 42). -/
def Obligations.EndAndRepRun : Prop :=
  (∀ (s : State) (n : Fin 16) (hd : Hdr) (x : EndIn), s.live = true → Alone s.hub n (.opEnd n false hd x) →
    let last := lastWord (s.hub.engine n).shadow.pc [.opEnd n false hd x]
    let h := (s.hub.modBank n false fun b => { b with bundle := [] }).once n false false [.opEnd n false hd x] last
    exec (.opEnd n false hd x) s = .next (s.withHub
      ((((h.1.modEng n fun e => e.repDone false).loopTest n false last 5).1.programEnd n x).kickAll))) ∧
  (∀ (s : State) (n : Fin 16) (hd : Hdr) (f : KR), s.live = true → hd.s = true → (s.hub.engine n).placed false (.opRep n false hd f) = true →
    s.hub.issues n = true → (s.hub.engine n).run.discard = false →
    let is := (s.hub.engine n).shadow.bundle ++ [.opRep n false hd f]
    let ops := (s.hub.engine n).shadow.bundle
    let last := lastWord (s.hub.engine n).shadow.pc is
    let h := s.hub.modBank n false fun b => { b with bundle := [] }
    bundleOk is = true → ((s.hub.engine n).bundleFound is).all (fun p => p.2 == .ok) = true →
    ((h.modEng n fun e => e.land false).viewOf n false last).bundleWaits ops = 0 →
    let r := h.once n false false ops last
    (∀ k m, (s.hub.engine n).shadow.rep = some (k + 2, m) →
      exec (.opRep n false hd f) s = .next (s.withHub ((r.1.modBank n false fun b => b.again (k + 1) m).kickAll))) ∧
    ((s.hub.engine n).shadow.rep = none → f.cm1 ≠ 0 →
      exec (.opRep n false hd f) s = .next (s.withHub ((r.1.modBank n false fun b => b.again f.cm1.toNat f.n).kickAll))) ∧
    ((∃ m, (s.hub.engine n).shadow.rep = some (1, m)) ∨ ((s.hub.engine n).shadow.rep = none ∧ f.cm1 = 0) →
      exec (.opRep n false hd f) s = .next (s.withHub (((r.1.modEng n fun e => e.repDone false).nextBundle n last r.2).kickAll))))

/-- Compact operations, BR and BRP among them (R201 to R203). -/
def Obligations.CompactOperationsRun : Prop :=
  (∀ (s : State) (i : Instr) (n : Fin 16), s.live = true → opHome i = some (n, true) → (s.hub.engine n).placed true i = true →
    s.hub.bgRuns n = true → (s.hub.engine n).fore.held = [] → (s.hub.engine n).fore.rep = none → (s.hub.engine n).fore.branch = none →
    (s.hub.engine n).fore.undefinedOp i = false →
    ((s.hub.engine n).fetchFound (s.hub.engine n).fore.pc i).all (fun p => p.2 == .ok) = true → (∀ hd f, i ≠ .opRep n true hd f) →
    let last := lastWord (s.hub.engine n).fore.pc [i]
    (s.hub.viewOf n true last).bundleWaits [i] = 0 →
    let r := s.hub.once n true false [i] last
    (r.1.engine n).halt = 0 →
    exec i s = .next (s.withHub (((r.1.modEng n fun e => e.repDone true).nextCompact n last (hasDelay i) none r.2).kickAll))) ∧
  (∀ (s : State) (i : Instr) (n : Fin 16), s.live = true → opHome i = some (n, true) → (s.hub.engine n).placed true i = true → s.hub.bgRuns n = true →
    (s.hub.engine n).fore.held = [] → (s.hub.engine n).fore.undefinedOp i = true →
    ((s.hub.engine n).fetchFound (s.hub.engine n).fore.pc i).all (fun p => p.2 == .ok) = true →
    exec i s = .next (s.withHub ((s.hub.bgHalt n 1).kickAll))) ∧
  (∀ (h : Hub) (n : Fin 16) (last t : Nat) (slot : Bool) (delay : Option Nat),
    ((h.nextCompact n last slot delay (.branch t)).engine n).fore.branch = some t) ∧
  (∀ (v : View) (n : Fin 16) (bg : Bool) (hd : Hdr) (tgt : BitVec 15) (f : XR),
    opEff v (.br n bg hd tgt) = { ctl := .branch tgt.toNat } ∧
    opEff v (.brp n bg hd f) = { ctl := .branch ((v.reg 8 (rP (f.sa.val % 8))).n % 0x8000) })

/-- XE0 to XE15 as operations of a bundle (R204, R205). The zero operand where the operand is void at issue is the model's
choice (assumption 134). -/
def Obligations.ExtensionOpsRun : Prop :=
  ∀ (s : State) (n : Fin 16) (hd : Hdr) (f : XE), s.live = true →
  let ext := fun (num : Nat) (args : List Nat) (x : RVal) => ({ ext := some (num, args, f.dst.val, x), ops := [x] } : Eff)
  let ptr := fun (v : View) (i k : Nat) => (v.reg i (rP (f.arg.toNat / 2 ^ k % 8))).n
  (∀ i, i = .asrcPut n false hd f → Alone s.hub n i → RunsAs s n i (ext 0 [f.arg.toNat] ((s.hub.slotView n i).pair 0 f.sa))) ∧
  (∀ i, i = .asrcGet n false hd f → Alone s.hub n i → RunsAs s n i (ext 1 [f.arg.toNat] (rv 0))) ∧
  (∀ i, i = .asrcStatus n false hd f → Alone s.hub n i → RunsAs s n i (ext 2 [f.arg.toNat % 32, f.arg.toNat / 32] (rv 0))) ∧
  (∀ i, i = .fftSubmit n false hd f → Alone s.hub n i →
    RunsAs s n i (ext 3 [ptr (s.hub.slotView n i) 8 0, ptr (s.hub.slotView n i) 9 3, f.arg.toNat / 64] (rv 0))) ∧
  (∀ i, i = .fftPoll n false hd f → Alone s.hub n i → RunsAs s n i (ext 4 [] ((s.hub.slotView n i).d 0 f.sa))) ∧
  (∀ i, i = .correlatorSubmit n false hd f → Alone s.hub n i → let v := s.hub.slotView n i
    let w := (List.range 6).map fun k => v.read 0 ((ptr v 8 0 + k) % 65536) (found hd.reads k)
    RunsAs s n i { ext := some (5, w.map (fun x => x.1.n % 65536), f.dst, (rv 0).joins (w.map fun x => x.1)),
                   ops := w.map fun x => x.1, ecc := (w.map fun x => x.2).flatten }) ∧
  (∀ i, i = .correlatorPoll n false hd f → Alone s.hub n i → RunsAs s n i (ext 6 [] ((s.hub.slotView n i).d 0 f.sa))) ∧
  (∀ i, i = .versionQuery n false hd f → Alone s.hub n i → RunsAs s n i (ext 7 [f.arg.toNat] (rv 0))) ∧
  (∀ (op : Fin 8) i, i = .xlOpcode n false hd op f → Alone s.hub n i →
    RunsAs s n i (ext (8 + op) [f.arg.toNat] ((s.hub.slotView n i).d 0 f.sa)))

/-- The cluster's answers (R171 to R173, R205); tags and channel results are free values (assumptions 5 and 30). -/
def Obligations.ClusterAnswersOpcodes : Prop :=
  ∀ (h : Hub) (n : Fin 16), (∀ unit, (n.val, unit) ∉ h.clu.stalls) →
  (∀ src dst inv x, h.clu.fftq.length < 32 →
    ∃ t, t < 0x8000 ∧ (h.cluOp n 3 [src, dst, inv] x).2 = rv t ∧ (∀ j ∈ h.clu.fftq, j.tag ≠ t) ∧
      (h.cluOp n 3 [src, dst, inv] x).1.clu.fftq =
        h.clu.fftq ++ [{ eng := n, tag := t, src := src, dst := dst, inverse := inv == 1 }]) ∧
  (∀ src dst inv x, 32 ≤ h.clu.fftq.length → h.cluOp n 3 [src, dst, inv] x = (h, rv 0xFFFF)) ∧
  (∀ src src2 pairs lags first dst x, 1 ≤ pairs → pairs ≤ 4096 → 1 ≤ lags → lags ≤ 1024 → h.clu.corq.length < 4 →
    ∃ t, t < 0x8000 ∧ (h.cluOp n 5 [src, src2, pairs, lags, first, dst] x).2 = rv t ∧ (∀ j ∈ h.clu.corq, j.tag ≠ t) ∧
      (h.cluOp n 5 [src, src2, pairs, lags, first, dst] x).1.clu.corq = h.clu.corq ++
        [{ eng := n, tag := t, src := src, src2 := src2, dst := dst, n := pairs, lags := lags, first := s16 first }]) ∧
  (∀ src src2 pairs lags first dst x, (pairs < 1 ∨ 4096 < pairs ∨ lags < 1 ∨ 1024 < lags ∨ 4 ≤ h.clu.corq.length) →
    h.cluOp n 5 [src, src2, pairs, lags, first, dst] x = (h, rv 0xFFFF)) ∧
  (∀ x : RVal, (h.cluOp n 4 [] x).1 = h ∧ (h.cluOp n 4 [] x).2 =
    if ∃ j ∈ h.clu.fftq, j.tag = x.n % 65536 then rv 0 else if x.n % 65536 ∈ h.clu.fftDone then rv 1 else rv 0xFFFF) ∧
  (∀ x : RVal, (h.cluOp n 6 [] x).1 = h ∧ (h.cluOp n 6 [] x).2 =
    if ∃ j ∈ h.clu.corq, j.tag = x.n % 65536 then rv 0 else if x.n % 65536 ∈ h.clu.corDone then rv 1 else rv 0xFFFF) ∧
  (∀ (c : Fin 32) (num : Fin 3) (arg : Fin 2) x, h.reg (kAsrc c) ≠ 0x8000 + n → h.cluOp n num [c.val, arg.val] x = (h, rv 0xFFFF))

/-- FFT_JOB_DONE, CORRELATOR_JOB_DONE, XL_ANSWER and ASRC_ASSIGN (R172, R173, R204); the results are free values. -/
def Obligations.ClusterEventsAnswer : Prop :=
  (∀ (s : State) (j : Job) (q : List Job), s.live = true → s.hub.clu.fftq = j :: q → s.hub.hasPe j.eng = true → j.cal = false →
    exec .fftJobDone s = .next (s.withHub
      ({ s.hub with clu := { s.hub.clu with fftq := q, fftDone := s.hub.clu.fftDone ++ [j.tag] } }.jobWords j.eng j.dst 512))) ∧
  (∀ (s : State) (j : Job) (q : List Job), s.live = true → s.hub.clu.corq = j :: q → s.hub.hasPe j.eng = true → j.cal = false →
    exec .correlatorJobDone s = .next (s.withHub
      ({ s.hub with clu := { s.hub.clu with corq := q, corDone := s.hub.clu.corDone ++ [j.tag] } }.jobWords j.eng j.dst (3 * j.lags)))) ∧
  (∀ (s : State) (q : XlReq) (qs : List XlReq) (result : Word) (void : Bool), s.live = true → s.hub.clu.xl = q :: qs →
    let h := { s.hub with clu := { s.hub.clu with xl := qs } }
    let r := { rv result.toNat with void := void }
    (q.dst = none → exec (.xlAnswer result void) s =
      .next (s.withHub ((h.modBank q.eng q.bg fun b => { b with answer := some r }).kick q.eng))) ∧
    (∀ d, q.dst = some d → exec (.xlAnswer result void) s =
      .next (s.withHub (h.modEng q.eng fun e => e.extResult q.bg q.born (8 + q.op) d r)))) ∧
  (∀ (s : State) (ch : Fin 32) (n : Fin 16), s.live = true → s.hub.fld (kAsrc ch) 15 14 = 0 →
    exec (.asrcAssign ch (BitVec.ofNat 16 (0x8000 + n))) s = .next (s.wrote (s.hub.setReg (kAsrc ch) (0x8000 + n)))) ∧
  (∀ (s : State) (ch : Fin 32), s.live = true → s.hub.fld (kAsrc ch) 15 14 ≠ 1 →
    exec (.asrcAssign ch 0) s = .next (s.wrote (s.hub.setReg (kAsrc ch) 0)))

/-- Y_PAGE_PRIME, PRIME_COMPLETE, COMMIT_REQUEST, GLIDE_TARGET_WRITE, VERIFY_CHECK, VCHK_DONE and QUOTA_WRITE (R266 to R268,
R273, R275, R278, R289). -/
def Obligations.LiveUpdateCommandsAnswer : Prop :=
  ∀ (s : State) (n : Fin 16), s.live = true → s.hub.reserved n = false →
  let k := fun o : Nat => eng n (0x51000 + o)
  (∀ mask : BitVec 4, exec (.yPagePrime n mask) s = .next (s.wrote
    (iter 4 (fun p h => if bit mask.toNat p && !h.stageHeld n p then h.setFld (k p) 15 15 1 else h) s.hub))) ∧
  (∀ p : Fin 4, bit (s.hub.reg (k p)) 15 = true →
    exec (.primeComplete n p) s = .next (s.withHub
      (((iter 256 (fun i h => h.setReg (kStage n p i)
        (tget (fun _ => (0 : Word)) (h.engine n).y (256 * s.hub.fld (k p) 5 0 + i)).toNat) s.hub).modEng n
          fun e => e.primeMarks p (s.hub.fld (k p) 5 0)).setFld (k p) 15 15 0))) ∧
  (∀ w : Word, bits w.toNat 15 12 = 0xC → (bit w.toNat 4 = true ∨ w.toNat % 16 ≠ 0) → s.hub.commitCause n w.toNat = none →
    exec (.commitRequest n w) s = .next (s.wrote
      (if (s.hub.engine n).run.spen then s.hub.modEng n fun e => { e with commit := some w, bound := false }
       else (s.hub.modEng n fun e => { e with commit := some w, bound := false }).commitNow n 0))) ∧
  (∀ (g : Fin 16) (t : Word), (s.hub.engine n).run.spen = true →
    exec (.glideTargetWrite n g t) s = .next (s.wrote
      (((s.hub.setReg (kGlide n g 1) t.toNat).modGlide n g fun x => { x with fresh := true }).imageReg n (0x51041 + 8 * g)))) ∧
  (∀ (g : Fin 16) (t : Word), (s.hub.engine n).run.spen = false →
    let h := s.hub.setEff (kGlide n g 1) t.toNat
    let h := (h.modGlide n g fun x => { x with c := BitVec.ofNat 32 (t.toNat * 65536), fresh := false, taken := false }).setReg (kGlide n g 5) 0
    exec (.glideTargetWrite n g t) s = .next (s.wrote ((h.glideOut n g).imageReg n (0x51041 + 8 * g)))) ∧
  (bit (s.hub.reg (k 0x104)) 15 = false → s.hub.reg (k 0x102) ≠ 0 →
    exec (.verifyCheck n 1) s = .next (s.wrote (s.hub.setReg (k 0x104) 0x8000))) ∧
  (bit (s.hub.reg (k 0x104)) 15 = true →
    let mem := s.hub.reg (k 0x100) % 4
    let r := s.hub.vchkWords n mem (s.hub.reg (k 0x101)) (s.hub.reg (k 0x102))
    let bad := min 0xFFFF r.2
    exec (.vchkDone n) s = .next (s.withHub
      ((((s.hub.setReg (k 0x104) 0x4000).setReg (k 0x105) (crcWords r.1)).setReg (k 0x106) bad).issue n 0x403 (crcWords r.1) bad mem))) ∧
  (∀ q : Word, s.hub.quotaSum - s.hub.reg (kDmu n 2) + q.toNat % 2048 ≤ 1600 →
    exec (.quotaWrite n q) s = .next (s.wrote (s.hub.setReg (kDmu n 2) (q.toNat % 2048))))

/-- COMMIT_REFUSED (R267); the order of causes is the model's choice (assumption 14). -/
def Obligations.CommitRefusals : Prop :=
  (∀ (s : State) (n : Fin 16) (w : Word) (c : Nat), s.live = true → s.hub.reserved n = false → bits w.toNat 15 12 = 0xC →
    (bit w.toNat 4 = true ∨ w.toNat % 16 ≠ 0) → s.hub.commitCause n w.toNat = some c →
    exec (.commitRequest n w) s = .next (s.wrote (s.hub.issue n 0x402 c w.toNat (if c = 1 then s.hub.reg (eng n 0x51011) else 0)))) ∧
  (∀ (h : Hub) (n : Fin 16) (w : Word),
    let prog := bit w.toNat 4 = true
    let nx := fun o : Nat => h.reg (eng n o)
    let bad1 := prog ∧ (nx 0x51011 = 0 ∨ h.budget n < nx 0x51011)
    let bad2 := prog ∧ (nx 0x51013 < nx 0x51012 ∨ nx 0x51010 < nx 0x51012 ∨ nx 0x51013 < nx 0x51010)
    let named := (List.range 4).filter fun p => bit w.toNat p
    let bad3 := (∃ p ∈ named, bit (nx (0x51000 + p)) 15 = true) ∨ ¬ (named.map fun p => bits (nx (0x51000 + p)) 5 0).Nodup
    (bad1 → h.commitCause n w.toNat = some 1) ∧ (¬ bad1 → bad2 → h.commitCause n w.toNat = some 2) ∧
    (¬ bad1 → ¬ bad2 → bad3 → h.commitCause n w.toNat = some 3) ∧
    (¬ bad1 → ¬ bad2 → ¬ bad3 → (h.engine n).commit ≠ none → h.commitCause n w.toNat = some 4) ∧
    (¬ bad1 → ¬ bad2 → ¬ bad3 → (h.engine n).commit = none → (h.engine n).st ≠ .normal → h.commitCause n w.toNat = some 5) ∧
    (¬ bad1 → ¬ bad2 → ¬ bad3 → (h.engine n).commit = none → (h.engine n).st = .normal → h.commitCause n w.toNat = none))

/-- FAR_LANDING, FAR_STORE_WRITTEN and TAG_RESOLUTION (R292, R294, R396). The order of releases at a resolution is the model's
reading (assumption 53). -/
def Obligations.FarRequestsAnswer : Prop :=
  (∀ (s : State) (n : Fin 16) (i : Nat) (x : FarEcc) (r : FarReq), s.live = true → (s.hub.engine n).infl[i]? = some r → r.store = false →
    (s.hub.engine n).farTurn i r = true →
    let h := s.hub.modEng n fun e => { e with infl := e.infl.eraseIdx i }
    (∀ h' a, h.translate n r x = (h', .ok a) → exec (.farLanding n i x) s =
      .next (s.withHub (((h'.unitsFound n r a x (reqUnits a r.n)).landWords n r a).pump 600))) ∧
    (∀ h' c a, h.translate n r x = (h', .error (c, a)) → exec (.farLanding n i x) s = .next (s.withHub ((h'.farFault n r c a).pump 600)))) ∧
  (∀ (s : State) (n : Fin 16) (i : Nat) (x : FarEcc) (r : FarReq), s.live = true → (s.hub.engine n).infl[i]? = some r → r.store = true →
    (s.hub.engine n).farTurn i r = true →
    let h := s.hub.modEng n fun e => { e with infl := e.infl.eraseIdx i }
    (∀ h' a, h.translate n r x = (h', .ok a) →
      let part := (reqUnits a r.n).filter fun u => !(decide (a ≤ 8 * u) && decide (8 * u + 8 ≤ a + 2 * r.n))
      exec (.farStoreWritten n i x) s = .next (s.withHub (((h'.unitsFound n r a x part).writeDram (a / 2) r.data).pump 600))) ∧
    (∀ h' c a, h.translate n r x = (h', .error (c, a)) →
      exec (.farStoreWritten n i x) s = .next (s.withHub ((h'.farFault n r c a).pump 600)))) ∧
  (∀ (s : State) (n : Fin 16) (t : Fin 4), s.live = true → let e := s.hub.engine n
    let tag := e.tags.get {} t
    tag.pending = true → (tag.void = true ∨ tag.frames = []) →
    let res := fun l : Tbl RVal => l.map fun p => (p.1, p.2.resolve t tag.void)
    let h := s.hub.setEng n { e with
      tags := e.tags.mod t fun _ => {}, shadow := e.shadow.resolve t tag.void, fore := e.fore.resolve t tag.void,
      inRun := res e.inRun, outWin := res e.outWin, handed := res e.handed,
      park := e.park.map fun p => { p with val := p.val.resolve t tag.void },
      faults := e.faults.map fun p => { p with val := p.val.resolve t tag.void } }
    let h := (h.releaseAll n [] (h.engine n).park 65).modEng n fun x =>
      { x with shadow := x.shadow.setSticky (e.stickyOf false t tag.void), fore := x.fore.setSticky (e.stickyOf true t tag.void) }
    exec (.tagResolution n t) s = .next (s.withHub ((h.faultsDue n).kick n))) ∧
  (∀ (r : RVal) (t : Fin 4) (void : Bool),
      (r.tags.getLsbD t = false → r.resolve t void = r) ∧
      (r.tags.getLsbD t = true → (r.resolve t void).v = r.v ∧ (r.resolve t void).tags.getLsbD t = false ∧
        (void = true → (r.resolve t void).void = true ∧ (r.resolve t void).crema = false) ∧
        (void = false → (r.resolve t void).void = r.void ∧ ∀ u : Fin 4, u ≠ t → (r.resolve t void).tags.getLsbD u = r.tags.getLsbD u)))

/-- Memories: a word stored is the word read, and no other word changes (R150, R167, R296); every operation on a memory keeps
its canonical form. -/
def Obligations.MemoryKeepsItsForm : Prop :=
  (∀ (e : Engine) (mem a w : Nat), mem < 2 → inMem mem a = true → e.parkedStore mem a = none →
    (e.poke mem a w).load mem a = rv (w % 65536)) ∧
  (∀ (e : Engine) (mem a w mem' b : Nat), mem < 2 → mem' < 2 → inMem mem a = true → (mem', b) ≠ (mem, a) →
    (e.poke mem a w).load mem' b = e.load mem' b) ∧
  (∀ (e : Engine) (mem a w : Nat), (e.poke mem a w).prog = e.prog ∧ (e.poke mem a w).shadow = e.shadow ∧
    (e.poke mem a w).fore = e.fore ∧ (e.poke mem a w).park = e.park) ∧
  (∀ (h : Hub) (a w b : Nat), (h.putDram a w).dramWord b = if b = a then w % 65536 else h.dramWord b) ∧
  (twf resetWord Hub.reset.regs ∧ twf (fun _ => (0 : Word)) Hub.reset.dram ∧
    twf (fun _ => (0 : Word)) ({} : Engine).x ∧ twf (fun _ => (0 : Word)) ({} : Engine).y ∧
    twf (fun _ => (0 : BitVec 32)) ({} : Engine).prog) ∧
  (∀ (h : Hub) (k v : Nat), twf resetWord h.regs → twf resetWord (h.setReg k v).regs) ∧
  (∀ (h : Hub) (a : Nat) (ws : List Word), twf (fun _ => 0) h.dram → twf (fun _ => 0) (h.writeDram a ws).dram) ∧
  (∀ (e : Engine) (mem a w : Nat), twf (fun _ => 0) e.x → twf (fun _ => 0) e.y →
    twf (fun _ => 0) (e.poke mem a w).x ∧ twf (fun _ => 0) (e.poke mem a w).y) ∧
  (∀ (e : Engine) (a w : Nat), twf (fun _ => 0) e.prog → twf (fun _ => 0) (e.setSlotWord a w).prog)

/-- LINK_UP, LINK_DOWN, NET_RELAY_OPEN, NET_RELAY_CLOSE, RELAY_CHANGED, RELAY_FAULT, FRAME_ARRIVAL, PASS_DECISION,
FRAME_END, FRAME_TRANSMIT and TC_ENTRY_TIMEOUT (R304, R305, R309, R312, R324, R325, R331, R332, R353, R370). When a stored frame
counts as sent is the model's reading (assumption 145). -/
def Obligations.LinksAndFramesAnswer : Prop :=
  (∀ (s : State) (p : Fin 2) (speed : Fin 3) (mdix : Bool), s.live = true → bit (s.hub.reg 0x39) p = true → s.hub.linkUp p = false →
    s.hub.net.relay.closed = false →
    let force := s.hub.fld (kNet (0x400 + 0x10 * p)) 5 4
    let able := if force = 0 then bit (s.hub.reg (kNet (0x400 + 0x10 * p))) speed = true else speed.val = if force = 1 then 1 else 0
    let h := s.hub.setFld 0x38 (4 * p + 3) (4 * p) (8 + 2 * speed + b2n mdix)
    (able → exec (.linkUp p speed mdix false) s = .next (s.withHub
      (((h.addWrap (kNet (0x401 + 0x10 * p)) 1 1).setFlag (kNet 0x630)).issue (32 + p) 1 speed (b2n mdix) (b2n (force != 0))))) ∧
    h.linkUp p = true ∧ h.linkSpeed p = speed ∧
    (¬ able → exec (.linkUp p speed mdix false) s = .next s) ∧
    exec (.linkUp p speed mdix true) s = .next (s.withHub (s.hub.issueLimited p (32 + p) 3 speed 0 0))) ∧
  (∀ (s : State) (p : Fin 2) (sending : Bool), s.live = true → s.hub.linkUp p = true →
    let lost := (s.hub.wire p).any fun w => w.since.isSome
    let h := if sending then (if lost then (s.hub.portErr p 6).setWire p none else s.hub) else s.hub.sentDone p
    let h := (((h.cutLoss p true).setFld 0x38 (4 * p + 3) (4 * p) 0).addWrap (kNet (0x401 + 0x10 * p)) 1 1).setFlag (kNet 0x630)
    exec (.linkDown p sending) s = .next (s.withHub
      ((h.issue (32 + p) 2 (s.hub.linkSpeed p) (h.reg (kNet (0x401 + 0x10 * p))) 0).ptpLinkDown p)) ∧ h.linkUp p = false) ∧
  (∀ s : State, s.live = true →
    let opened := s.hub.setFld 0x39 15 15 0
    (3 ≤ s.hub.fld 0x04 15 12 → exec .netRelayOpen s = .next (s.withHub (let h := opened.flightLoss
      { h with net := { h.net with relay := { h.net.relay with closed := false, cause := 2, moving := true } } }))) ∧
    (s.hub.fld 0x04 15 12 < 3 → exec .netRelayOpen s = .next (s.withHub opened)) ∧
    exec .netRelayClose s = .next (s.withHub (let h := (((s.hub.setFld 0x39 15 15 1).flightLoss).phyDown 0 false false).phyDown 1 false false
      (({ h with net := { h.net with relay := { h.net.relay with closed := true, cause := 2, moving := true } } }).ptpLinkDown 0).ptpLinkDown 1)) ∧
    (s.hub.net.relay.sensed ≠ s.hub.net.relay.closed →
      exec .relayFault s = .next (s.withHub ((s.hub.setFlag (kNet 0x631)).issueLimited 0 34 1 (b2n s.hub.net.relay.closed)
        (b2n s.hub.net.relay.sensed) 0)))) ∧
  (∀ (s : State) (sensed : Bool), s.live = true → exec (.relayChanged sensed) s = .next (s.withHub
    (let h := s.hub.setFld 0x38 15 15 (b2n sensed)
     ({ h with net := { h.net with relay := { h.net.relay with moving := false, sensed := sensed } } }).issue 34 2 (b2n sensed)
       s.hub.net.relay.cause 0))) ∧
  (∀ (s : State) (p : Fin 2) (b : List Byte), s.live = true → s.hub.linkUp p = true →
    (s.hub.flying < 256 → exec (.frameArrival p b) s = .next (s.withHub { s.hub with net :=
      { s.hub.net with nextId := s.hub.net.nextId + 1, fly := s.hub.net.fly ++ [{ id := s.hub.net.nextId, port := p, bytes := b }] } })) ∧
    (256 ≤ s.hub.flying → exec (.frameArrival p b) s = .next (s.withHub
      (let h := (s.hub.clsCnt 0).setFlag (kCls 0x121); h.issueLimited 0 49 1 (h.reg (kCls 0x1220)) p 0)))) ∧
  (∀ (s : State) (i : Fin 256) (idle : Bool) (f : Fly), s.live = true → s.hub.net.fly[i.val]? = some f → f.decided = false →
    (f.recirc = 0 ∨ (s.hub.recirc f.recirc).head? = some f.id) →
    let p := f.parsed.getD (s.hub.parse f.bytes)
    let h := s.hub.modFly f.id fun x => { x with stamp := s.hub.stamp, cells := cellsFor (p.declared.getD 2000), parsed := some p }
    let h := if f.pass = 0 then h.passZero f.id { f with stamp := h.stamp } p idle else h.passOnce f.id p idle
    exec (.passDecision i idle) s = .next (s.withHub
      (match h.flyOf f.id with
        | some g => (match g.ended with | some ok => if g.decided then h.finishFrame g ok else h | none => h)
        | none => h))) ∧
  (∀ (s : State) (i : Fin 256) (fate : Fin 4) (res : BitVec 64) (rx : Int) (f : Fly), s.live = true → s.hub.net.fly[i.val]? = some f → f.ended = none →
    let n := f.bytes.length + 4
    let short := n < (s.hub.parse f.bytes).declared.getD 0
    let ends := fun (h : Hub) (ok : Bool) =>
      let g := fun x : Fly => { x with ended := some ok, residence := res, rx := rx }
      let h := h.modFly f.id g
      Host.Outcome.next (s.withHub (if f.decided then h.finishFrame (g f) ok else h))
    let good := (s.hub.portCnt f.port 0 1).portCnt f.port 1 n
    (n < 64 → exec (.frameEnd i fate res rx) s = ends (s.hub.portErr f.port 1) false) ∧
    (2000 < n → exec (.frameEnd i fate res rx) s = ends (s.hub.portErr f.port 2) false) ∧
    (64 ≤ n → n ≤ 2000 →
      ((fate.val = 1 ∨ (fate.val = 0 ∧ short)) → exec (.frameEnd i fate res rx) s = ends (s.hub.portErr f.port 0) false) ∧
      (fate.val = 2 → exec (.frameEnd i fate res rx) s = ends (s.hub.portErr f.port 3) false) ∧
      (fate.val = 3 → exec (.frameEnd i fate res rx) s = ends s.hub false) ∧
      (fate.val = 0 → ¬ short → exec (.frameEnd i fate res rx) s = ends (if isPause f.bytes then good.portErr f.port 4 else good) true))) ∧
  (∀ (s : State) (p : Fin 2) (res : BitVec 64) (q : Nat) (f : QFrame) (fs : List QFrame), s.live = true → s.hub.cutting p = false →
    s.hub.linkUp p = true →
    let h := s.hub.sentDone p
    h.nextQueue (h.boundQueues 1 p fun q => match (h.queue q).head? with
      | some f => f.fly.isNone && !h.waitsSync p f.bytes
      | none => false) p = some q → h.queue q = f :: fs →
    let x := ((h.modQueue q fun _ => fs).served p q).passSwitch f.bytes f.port p res
    exec (.frameTransmit p res) s = .next (s.withHub (x.1.setWire p (some { bytes := x.2, stomp := false, since := some x.1.refMs })))) ∧
  (∀ (s : State) (i : Fin 32), s.live = true → exec (.tcEntryTimeout i) s =
    .next (s.withHub { s.hub with net := { s.hub.net with tc := s.hub.net.tc.eraseIdx i } }))

/-- PTP_ANNOUNCE_RX, PTP_SYNC_RX, PTP_FOLLOW_UP_RX, PTP_DELAY_RESP_RX, PTP_DELAY_REQ_RX, PTP_ANNOUNCE_TIMEOUT,
PTP_ANNOUNCE_TX, PTP_SYNC_TX, PTP_DELAY_REQ_TX, PTP_TIME_SET, TIME_CAPTURE and PROFILE_CHANGE (R316 to R323). The layout of the
messages, the window of four intervals and what the spec leaves open in their headers are the model's (assumptions 64, 140 and
142). -/
def Obligations.PtpCommandsAnswer : Prop :=
  (∀ (s : State) (m : PtpAnn), s.live = true → s.hub.ptpHears = true → s.hub.ptpState ≠ 1 → m.dom.toNat = s.hub.ptpSet 0 →
    m.ident.toNat / 65536 ≠ s.hub.clockId →
    let h := s.hub.ageMasters
    let l := h.net.ptp.masters
    let entry := fun bound : Bool =>
      ({ ident := m.ident, port := m.port, last := h.refMs, bound := bound, gm := m.gm, prio1 := m.prio1, cls := m.cls, acc := m.acc, var := m.var,
         prio2 := m.prio2, steps := m.steps } : Foreign)
    ((∀ x ∈ l, x.ident ≠ m.ident) → l.length < 8 → exec (.ptpAnnounceRx m) s =
      .next (s.withHub ((h.modPtp fun p => { p with masters := l ++ [entry false] }).decideMaster false))) ∧
    (∀ x, l = [x] → x.ident = m.ident → x.port = m.port.val → exec (.ptpAnnounceRx m) s =
      .next (s.withHub ((h.modPtp fun p => { p with masters := [entry (x.bound || decide (h.refMs ≤ x.last + h.announceMs 4))] }).decideMaster
        false))) ∧
    ((∃ x ∈ l, x.ident = m.ident ∧ x.bound = true ∧ x.port ≠ m.port.val) → exec (.ptpAnnounceRx m) s = .next (s.withHub h))) ∧
  (∀ (s : State) (m : PtpMsg), s.live = true → s.hub.fromMaster m = true →
    let n := if s.hub.net.ptp.syncSec = s.hub.refMs / 1000 then s.hub.net.ptp.syncs else 0
    let took := s.hub.modPtp fun p => { p with syncSec := s.hub.refMs / 1000, syncs := n + 1 }
    (128 ≤ n → exec (.ptpSyncRx m) s = .next (s.withHub (s.hub.addSat (kNet 0x5CC) 2 1))) ∧
    (n < 128 → m.twoStep = true → exec (.ptpSyncRx m) s =
      .next (s.withHub (took.modPtp fun p => { p with wait := some ⟨m.seq, m.stamp * 2 ^ 14, m.corr⟩ }))) ∧
    (n < 128 → m.twoStep = false → exec (.ptpSyncRx m) s = .next (s.withHub (took.syncDone (m.time + m.corr) (m.stamp * 2 ^ 14))))) ∧
  (∀ (s : State) (m : PtpMsg) (w : SyncWait), s.live = true → s.hub.fromMaster m = true → s.hub.net.ptp.wait = some w → w.seq = m.seq →
    exec (.ptpFollowUpRx m) s = .next (s.withHub (s.hub.syncDone (m.time + w.corr + m.corr) w.rx))) ∧
  (∀ (s : State) (m : PtpMsg) (t3 : Int), s.live = true → s.hub.fromMaster m = true → m.req = s.hub.portId → m.seq = s.hub.net.ptp.reqSeq →
    s.hub.net.ptp.t3 = some t3 → s.hub.net.ptp.haveSync = true → s.hub.net.ptp.fresh = false →
    let d := divOpen ((s.hub.net.ptp.t2 - t3) + (m.time - m.corr - s.hub.net.ptp.t1)) 2
    exec (.ptpDelayRespRx m) s = .next (s.withHub
      (((s.hub.modPtp fun p => { p with t3 := none }).setRegN (kNet 0x5C3) 2 (BitVec.ofInt 32 (nsOf d)).toNat).modPtp fun p =>
        { p with haveMpd := true, fresh := false }))) ∧
  (∀ (s : State) (m : PtpMsg), s.live = true → s.hub.ptpHears = true → s.hub.ptpState = 6 → m.dom.toNat = s.hub.ptpSet 0 →
    let t := m.stamp * 2 ^ 14
    exec (.ptpDelayReqRx m) s = .next (s.withHub (s.hub.ptpSend m.port false (some m.peer)
      (s.hub.ptpMessage 9 0 (m.corr - t % 65536) m.seq 3 (s.hub.ptpSet 3) (ptpStampBytes t ++ beBytes 10 m.ident.toNat))))) ∧
  (∀ s : State, s.live = true → s.hub.ptpOn = true → s.hub.ptpState ≠ 6 → s.hub.ptpState ≠ 1 → exec .ptpAnnounceTimeout s = .next (s.withHub
    ((s.hub.modPtp fun p => { p with masters := p.masters.filter fun m => some m.ident != s.hub.net.ptp.parent }).decideMaster true))) ∧
  (∀ s : State, s.live = true → s.hub.ptpOn = true → s.hub.ptpState = 6 →
    (let msg := s.hub.ptpMessage 11 0x0008 0 s.hub.net.ptp.seqAnn 5 (s.hub.ptpSet 1) s.hub.announceBody
     exec .ptpAnnounceTx s = .next (s.withHub (s.hub.livePorts.foldl (fun h i => h.ptpSend i false none msg)
       (s.hub.modPtp fun p => { p with seqAnn := p.seqAnn + 1 })))) ∧
    ∀ ts : List Int, exec (.ptpSyncTx ts) s = .next (s.withHub (s.hub.livePorts.foldl (fun h i =>
      let t := lget 0 ts i * 2 ^ 14
      let h := h.ptpSend i true none (h.ptpMessage 0 0x0200 0 s.hub.net.ptp.seqSync 0 (h.ptpSet 2) (ptpStampBytes h.net.ptp.time))
      h.ptpSend i false none (h.ptpMessage 8 0 (t % 65536) s.hub.net.ptp.seqSync 2 (h.ptpSet 2) (ptpStampBytes t)))
        (s.hub.modPtp fun p => { p with seqSync := p.seqSync + 1 })))) ∧
  (∀ (s : State) (t : Int), s.live = true → s.hub.ptpOn = true → (s.hub.ptpState = 8 ∨ s.hub.ptpState = 9) →
    let h := s.hub.modPtp fun p => { p with reqSeq := p.reqSeq + 1, t3 := some (t * 2 ^ 14) }
    exec (.ptpDelayReqTx t) s = .next (s.withHub
      (h.ptpSend h.ptpPort true none (h.ptpMessage 1 0 0 h.net.ptp.reqSeq 1 0x7F (beBytes 10 0))))) ∧
  (∀ (s : State) (sec : BitVec 48) (ns : BitVec 32), s.live = true →
    (s.hub.ptpState ≠ 8 → s.hub.ptpState ≠ 9 → exec (.ptpTimeSet sec ns) s =
      .next (s.withHub (s.hub.modPtp fun p => { p with time := ptpTime sec.toNat ns.toNat, part := 0 }))) ∧
    ((s.hub.ptpState = 8 ∨ s.hub.ptpState = 9) → exec (.ptpTimeSet sec ns) s = .next s)) ∧
  (∀ s : State, s.live = true → ∃ h : Hub, exec .timeCapture s = .next (s.withHub h) ∧ h.regN (kNet 0x611) 2 = s.hub.clk.doms.e0.tick.toNat ∧
    h.regN (kNet 0x613) 3 = s.hub.ptpNow / 10 ^ 9 % 2 ^ 48 ∧ h.regN (kNet 0x616) 2 = s.hub.ptpNow % 10 ^ 9 ∧ h.reg (kNet 0x610) = 0x8000) ∧
  (∀ (s : State) (p : BitVec 2), s.live = true → p.toNat < 2 → s.hub.fld 0x39 5 4 ≠ p.toNat →
    exec (.profileChange p) s = .next (s.withHub (iter 7 (fun i h => h.setReg (kNet (0x580 + i))
      (lget 0 [0, 1, if p.toNat = 1 then 0xFD else 0, if p.toNat = 1 then 0xFD else 0, 3, 128, 128] i))
        (s.hub.setFld 0x39 5 4 p.toNat)).ptpRestart))

/-- CLS_ENTRY_INSERT, CLS_ACTION_CHANGE, CLS_ENTRY_REMOVE, KEY_PROFILE_WRITE, FENCE_START, FENCE_DONE, SEED_WRITE,
PATTERN_WRITE, FRAG_TIMEOUT, QUEUE_BIND, DEFAULT_TX_WRITE, RX_RELEASE, TX_SEND and TX_SEND_DONE (R341 to R377). -/
def Obligations.ClassifierAndQueueWritesAnswer : Prop :=
  (∀ (s : State) (e : BitVec 14) (p : Fin 8), s.live = true →
    let k := e.toNat
    let h := s.hub.clsFresh (kEnt k 31)
    let twin := ∃ i < 4, k / 4 * 4 + i ≠ k ∧ h.entV (k / 4 * 4 + i) = true ∧ h.entProf (k / 4 * 4 + i) = p ∧ h.entKey (k / 4 * 4 + i) = h.entKey k
    (h.entV k = false → ¬ twin → exec (.clsEntryInsert e p) s = .next (s.wrote
      ((h.setReg (kEnt k 31) (0x8000 + p)).setReg (kCls (0x11C + k / 8192)) ((h.setReg (kEnt k 31) (0x8000 + p)).reg (kCls (0x11C + k / 8192)) + 1)))) ∧
    (h.entV k = false → twin → exec (.clsEntryInsert e p) s = .next (s.wrote (h.failWin 3 (32 * k + 31)))) ∧
    (h.entV k = true → h.entProf k ≠ p → exec (.clsEntryInsert e p) s = .next (s.wrote (h.failWin 3 (32 * k + 31)))) ∧
    (h.entV k = true → exec (.clsEntryRemove e) s = .next (s.wrote
      ((h.setReg (kEnt k 31) (h.entProf k)).setReg (kCls (0x11C + k / 8192)) ((h.setReg (kEnt k 31) (h.entProf k)).reg (kCls (0x11C + k / 8192)) - 1))))) ∧
  (∀ (s : State) (e : BitVec 14) (w : Word), s.live = true →
    let h := (s.hub.clsFresh (kEnt e.toNat 23)).setReg (kEnt e.toNat 23) w.toNat
    (h.fld (kEnt e.toNat 20) 3 0 ≤ 5 → exec (.clsActionChange e w) s = .next (s.wrote (iter 4 (fun i h => h.enforce (kEnt e.toNat 20 + i)) h))) ∧
    (6 ≤ h.fld (kEnt e.toNat 20) 3 0 → exec (.clsActionChange e w) s =
      .next (s.wrote ((iter 4 (fun i h => h.revert (kEnt e.toNat 20 + i)) h).failWin 3 (32 * e.toNat + 23))))) ∧
  (∀ (s : State) (p : Fin 8) (w : Word), s.live = true →
    let h := (s.hub.clsFresh (kCls (16 * p + 15))).setReg (kCls (16 * p + 15)) (w.toNat &&& 0xE70F)
    let width := fun i => (h.field {} 0 0 0 0 (h.fld (kCls (16 * p + i)) 4 0)).map (·.1)
    let good := w.toNat % 16 ≤ 12 ∧ (∀ i < w.toNat % 16, (width i).isSome = true) ∧ ((List.range (w.toNat % 16)).map fun i => (width i).getD 0).sum ≤ 320
    (good → exec (.keyProfileWrite p w) s = .next (s.wrote (iter 16 (fun i h => h.enforce (kCls (16 * p) + i)) h))) ∧
    (¬ good → exec (.keyProfileWrite p w) s = .next (s.wrote ((iter 16 (fun i h => h.revert (kCls (16 * p) + i)) h).failWin 3 (16 * p + 15))))) ∧
  (∀ s : State, s.live = true → exec .fenceStart s = .next (s.withHub (let h := s.hub.setReg (kCls 0x11E) 0x8000
      { h with net := { h.net with fence := h.net.fly.map (·.id) } })) ∧
    ((∀ i ∈ s.hub.net.fence, ∀ f, s.hub.flyOf i = some f → f.decided = true) →
      exec .fenceDone s = .next (s.withHub (let h := s.hub.setReg (kCls 0x11E) 0; { h with net := { h.net with fence := [] } })))) ∧
  (∀ (s : State) (t : Fin 2) (w : Word), s.live = true → s.hub.reg (kCls (0x11C + t)) = 0 → exec (.seedWrite t w) s =
    .next (s.wrote (iter 2 (fun i h => h.enforce (kCls (0x118 + 2 * t) + i)) (s.hub.setReg (kCls (0x118 + 2 * t) + 1) w.toNat)))) ∧
  (∀ (s : State) (k : Fin 64) (w : Word), s.live = true → bits w.toNat 7 0 + bits w.toNat 11 8 + 1 ≤ 256 →
    exec (.patternWrite k w) s = .next (s.wrote (iter 17 (fun i h => h.enforce (kCls (0x200 + 32 * k) + i))
      ((s.hub.clsFresh (kCls (0x210 + 32 * k))).setReg (kCls (0x210 + 32 * k)) w.toNat)))) ∧
  (∀ (s : State) (f : Fin 128) (e : FragEntry), s.live = true → s.hub.frag f = some e → exec (.fragTimeout f) s = .next (s.withHub
    (((s.hub.setFrag f none).clsCnt 5).issueLimited 0 50 3 (if e.v6 then 6 else 4) (e.ident % 65536) (e.seen % 65536)))) ∧
  (∀ (s : State) (q : Fin 1024) (w : Word), s.live = true →
    let v := bits w.toNat 15 12 * 4096 + bits w.toNat 7 0
    let bad := 1020 ≤ q.val ∨ bits v 15 12 = 4 ∨ s.hub.holdsFrames q = true ∨ q.val = s.hub.defTx 0 ∨ q.val = s.hub.defTx 1
    let odd := 4 < bits v 15 12 ∨ (bits v 15 12 = 1 ∧ 1 < bits v 7 0) ∨ (bits v 15 12 = 2 ∧ 15 < bits v 7 0)
    (v ≠ s.hub.reg (kQue (4 * q)) → ¬ bad → odd → exec (.queueBind q w) s = .next (s.wrote s.hub)) ∧
    (v ≠ s.hub.reg (kQue (4 * q)) → ¬ bad → ¬ odd → exec (.queueBind q w) s = .next (s.wrote (s.hub.setReg (kQue (4 * q)) v))) ∧
    (v ≠ s.hub.reg (kQue (4 * q)) → bad → exec (.queueBind q w) s = .next (s.wrote (s.hub.failWin 3 (4 * q))))) ∧
  (∀ (s : State) (p : Fin 2) (q : Fin 1024), s.live = true → s.hub.qKind q = 1 → s.hub.qTarget q = p →
    exec (.defaultTxWrite p q) s = .next (s.wrote (s.hub.setReg (kQue (0x3282 + p)) q))) ∧
  (∀ (s : State) (r : Fin 16) (q : Nat), s.live = true → tget (fun _ => none) s.hub.net.heads r = some q →
    exec (.rxRelease r 1) s = .next (s.withHub (let h := s.hub.modQueue q List.tail
      ({ h with net := { h.net with heads := tput (fun _ => none) h.net.heads r none } }).ringHead r))) ∧
  (∀ (s : State) (t : Fin 16) (len : Word), s.live = true → s.hub.txBusy t = none →
    (1 ≤ len.toNat → len.toNat ≤ 1996 → s.hub.qKind (s.hub.fld (kTx t 1) 9 0) = 1 → exec (.txSend t len) s = .next (s.wrote
      (let x := some (s.hub.fld (kTx t 1) 9 0, s.hub.wordBytes (kTx t 0x10) len.toNat)
       { s.hub with net := { s.hub.net with txBusy := tput (fun _ => none) s.hub.net.txBusy t x } }))) ∧
    ((len.toNat = 0 ∨ 1996 < len.toNat) → exec (.txSend t len) s = .next (s.wrote (s.hub.issue 87 1 t 1 (s.hub.fld (kTx t 1) 9 0))))) ∧
  (∀ (s : State) (t : Fin 16) (q : Nat) (b : List Byte), s.live = true → s.hub.txBusy t = some (q, b) → exec (.txSendDone t) s = .next (s.withHub
    (({ s.hub with net := { s.hub.net with txBusy := tput (fun _ => none) s.hub.net.txBusy t none } }).sendFrame q b)))

/-- LANE_RESULT, REORDER_TIMEOUT, LANE_SELF_CHECK, LANE_STALL, STREAM_ENABLE, STREAM_DISABLE, KEY_SET_WRITE and
CONFIRM_WINDOW_END (R380, R381, R383, R384, R390); the order of causes is the model's choice (assumption 14). How results wait
for each other is the model's reading (assumption 118). -/
def Obligations.LanesAndStreamsAnswer : Prop :=
  (∀ (s : State) (l : Fin 4) (j : Fin 16) (c id : Nat), s.live = true → (s.hub.lane l).held[j.val]? = some (c, id) →
    let h := s.hub.modLane l fun x => { x with held := x.held.eraseIdx j }
    (∀ r, (h.ctxOf c).frame id = some r → exec (.laneResult l j) s = .next (s.withHub
      ((h.modCtx c fun x => x.modFrame id fun r => { r with auth := some r.verdict }).judge c id))) ∧
    ((h.ctxOf c).frame id = none → exec (.laneResult l j) s = .next (s.withHub
      ((h.modCtx c fun x => { x with jobs := x.jobs.map fun k => if k.id = id then { k with done := true } else k }).pushJobs c)))) ∧
  (∀ (s : State) (c : Byte) (i : Nat) (r : RxFrame) (ok : Bool) (l : Nat), s.live = true → (s.hub.ctxOf c.toNat).frames[i]? = some r → r.res = some ok →
    r.lane = some l → i ≠ 0 → r.lost = false → exec (.reorderTimeout c i) s = .next (s.withHub (
      let h := s.hub.modCtx c.toNat fun x => { x with frames := (x.frames.take i).filter (fun q => !q.lost) ++ x.frames.drop i }
      ((h.releaseRx c.toNat r).addSat (kQue (0x32A5 + 8 * l)) 2 1).releaseCtx c.toNat))) ∧
  (∀ (s : State) (l : Fin 4), s.live = true → exec (.laneSelfCheck l true) s = .next s ∧
    ((s.hub.lane l).failed = false →
      let lost := (s.hub.lane l).held
      let fails := fun cause : Nat =>
        let h := ((s.hub.modLane l fun x => { x with failed := true, held := [] }).setFlag (kQue 0x32E0)).setFlag 0x7B
        let h := lost.foldl (fun h f =>
          (h.loseFrame f.1 f.2).modCtx f.1 fun x => { x with jobs := x.jobs.map fun k => if k.id = f.2 then { k with lost := true } else k }) h
        h.issue (80 + l) 1 cause lost.length ((List.range 4).filter fun i => !(h.lane i).failed).length
      exec (.laneSelfCheck l false) s = .next (s.withHub (fails 1)) ∧
      (lost ≠ [] → exec (.laneStall l) s = .next (s.withHub (fails 2))))) ∧
  (∀ (s : State) (c : Byte) (w : Word), s.live = true →
    let v := s.hub.strWord c.toNat (putBits w.toNat 15 15 1)
    let h := s.hub.setReg (str c.toNat 0) v
    (h.strCause c.toNat v = none → exec (.streamEnable c w) s =
      .next (s.withHub (h.modCtx c.toNat fun x => { x with starting := true, stopping := false }))) ∧
    (∀ x, h.strCause c.toNat v = some x → exec (.streamEnable c w) s =
      .next (s.withHub ((h.setReg (str c.toNat 0) (s.hub.reg (str c.toNat 0))).issue 85 4 c.toNat x 0))) ∧
    exec (.streamDisable c w) s = .next (s.withHub ((s.hub.setReg (str c.toNat 0) (s.hub.strWord c.toNat (putBits w.toNat 15 15 0))).modCtx c.toNat
      fun x => { x with starting := false, stopping := x.run, keyv := x.keyv && !bit (s.hub.reg (str c.toNat 0)) 15 })) ∧
    exec (.keySetWrite c w) s = .next (s.withHub ((iter 25 (fun i h => h.enforce (str c.toNat (0x40 + i)))
      (s.hub.setReg (str c.toNat 0x58) w.toNat)).modCtx c.toNat fun x => { x with keyv := true }))) ∧
  (∀ (s : State) (c : Byte) (i : Nat) (r r' : RxFrame), s.live = true → (s.hub.ctxOf c.toNat).frames[i]? = some r →
    (s.hub.ctxOf c.toNat).frame r.id = some r' → r'.res = none →
    exec (.confirmWindowEnd c i) s = .next (s.withHub ((s.hub.reject c.toNat r' 3).releaseCtx c.toNat)))

/-- AES_SUBFRAME_RX, AES_BLOCK_END, AES_LOCK_LOST, AES_INPUT_ENABLE, AES_INPUT_DISABLE, AES_INPUT_CONFIG, AES_OUTPUT_ENABLE
and AES_OUTPUT_DISABLE (R407 to R427); the order of causes is the model's choice (assumption 14). Offset and drift of a
reference that appears so are free values (assumption 130). -/
def Obligations.AesCommandsAnswer : Prop :=
  (∀ (s : State) (i ch : Fin 2) (w : BitVec 24) (v user cs parity viol : Bool), s.live = true → (s.hub.ain i).en = true →
    let h := if parity then s.hub.rxError i ch 1 else s.hub
    let h := if viol then h.rxError i ch 2 else h
    let h := if v then h.ainCnt i 4 1 else h
    let h := if (s.hub.ain i).lock ∧ ch.val = 1 then h.addWrap (kAin i 8) 3 1 else h
    let swap := parity || viol || (v && bit (s.hub.reg (0x42 + i)) 9)
    exec (.aesSubframeRx i ch w v user cs parity viol) s = .next (s.withHub (h.modAin i fun x => x.modCh ch fun k =>
      { k with word := if swap then (if bit (s.hub.reg (0x42 + i)) 8 then 0 else k.good) else w, good := if swap then k.good else w,
               done := k.done + 1, cs := k.cs ++ [cs], user := k.user ++ [user], bad := k.bad || (parity || viol), v := k.v || v }))) ∧
  (∀ (s : State) (i : Fin 2) (rate : BitVec 32), s.live = true → (s.hub.ain i).en = true →
    let clear := fun h : Hub => h.modAin i fun x =>
      { x with a := { x.a with cs := [], user := [], bad := false, vLast := x.a.v, v := false },
               b := { x.b with cs := [], user := [], bad := false, vLast := x.b.v, v := false } }
    ((s.hub.ain i).lock = false → aesClass rate.toNat ≠ 0 →
      exec (.aesBlockEnd i rate true true) s = .next (s.withHub (clear (s.hub.aesLock i rate.toNat)))) ∧
    (∀ aligned alternating : Bool, (s.hub.ain i).lock = false → (aligned && alternating) = false →
      exec (.aesBlockEnd i rate aligned alternating) s = .next (s.withHub (clear s.hub))) ∧
    (∀ alternating : Bool, (s.hub.ain i).lock = true →
      exec (.aesBlockEnd i rate false alternating) s = .next (s.withHub (clear (s.hub.aesUnlock i 3))))) ∧
  (∀ (s : State) (i : Fin 2) (cause : Fin 4), s.live = true → (s.hub.ain i).lock = true → cause ≠ 0 →
    let h := ((s.hub.ainCnt i 0 1).setFlag (kAesFlag i))
    let h := h.issueLimited 32 (112 + i) 2 cause (s.hub.ain i).cls (h.reg (kAin i 0x10))
    exec (.aesLockLost i cause) s = .next (s.withHub ((h.modAin i fun x => { x with
      lock := false, cls := 0, last := 0, rates := [], asm := false, down := 0, up := 0, mis := false,
      a := { x.a with prev := none, held := x.a.out }, b := { x.b with prev := none, held := x.b.out } }).aesRate i |>.refGone (1 + i) 1))) ∧
  (∀ (h : Hub) (i : Fin 2) (rate : Nat), (h.ain i).en = true → aesClass rate ≠ 0 → h.refState (1 + i) = 0 →
    (h.aesLock i rate).refState (1 + i) = 1 ∧ (h.aesLock i rate).fld (kRef (1 + i) 0) 3 2 = aesFamily (aesClass rate)) ∧
  (∀ (h : Hub) (i : Fin 2) (cause : Fin 4), (h.ain i).lock = true → cause ≠ 0 → (h.aesUnlock i cause).refState (1 + i) = 0) ∧
  (∀ (h : Hub) (i : Fin 2) (c : Nat), (h.ain i).en = true → (h.ain i).lock = true → c ≠ 0 →
    (h.aesReclass i c).refState (1 + i) = 1 ∧ (h.aesReclass i c).fld (kRef (1 + i) 0) 3 2 = aesFamily c) ∧
  (∀ (s : State) (i : Fin 2) (w : Word), s.live = true →
    let cfg := fun n : Nat => bits n 15 12 * 4096 + bits n 10 8 * 256
    let old := s.hub.reg (0x42 + i)
    let on := cfg (putBits w.toNat 15 15 1)
    (bit old 15 = false → (s.hub.dom (bits on 13 12)).en = true → s.hub.ainSlotOk i (bits on 13 12) 0 = true →
      s.hub.ainSlotOk i (bits on 13 12) 1 = true → bit on 14 = false →
      exec (.aesInputEnable i w) s = .next (s.withHub ((s.hub.setReg (0x42 + i) on).modAin i fun x => { x with starting := true }))) ∧
    (bit old 15 = false → (s.hub.dom (bits on 13 12)).en = false →
      exec (.aesInputEnable i w) s = .next (s.withHub ((s.hub.setFlag (kAesFlag 8)).issue (112 + i) 6 2 (putBits w.toNat 15 15 1) 0))) ∧
    (bit old 15 = true → bits on 14 12 ≠ bits old 14 12 →
      exec (.aesInputConfig i w) s = .next (s.withHub ((s.hub.setFlag (kAesFlag 8)).issue (112 + i) 6 1 (putBits w.toNat 15 15 1) 0))) ∧
    (bit old 15 = true → bits on 14 12 = bits old 14 12 →
      exec (.aesInputConfig i w) s = .next (s.withHub (s.hub.setReg (0x42 + i) on))) ∧
    (bit old 15 = true → exec (.aesInputDisable i) s = .next (s.withHub
      ((((s.hub.setReg (0x42 + i) (cfg (putBits old 15 15 0))).ainFree i).modAin i fun _ => {}).refGone (1 + i) 1)))) ∧
  (∀ (s : State) (o : Fin 2) (w : Word), s.live = true → let old := s.hub.reg (0x44 + o)
    let v := bits (putBits w.toNat 15 15 1) 15 12 * 4096
    (bit old 15 = false → (s.hub.aoutClk o).en = true → s.hub.aoutMatches o = true → s.hub.aoutSlotOk o 0 = true → s.hub.aoutSlotOk o 1 = true →
      exec (.aesOutputEnable o w) s = .next (s.withHub ((s.hub.setReg (0x44 + o) v).modAout o fun x => { x with starting := true, stopping := false }))) ∧
    (bit old 15 = false → (s.hub.aoutClk o).en = false → exec (.aesOutputEnable o w) s = .next (s.withHub
      ((s.hub.setFlag (kAesFlag 8)).issue (114 + o) 3 1 (s.hub.aoutClk o).n (s.hub.dom (s.hub.aoutClk o).dom).field))) ∧
    (bit old 15 = true → exec (.aesOutputDisable o w) s = .next (s.withHub
      ((s.hub.setReg (0x44 + o) (bits (putBits w.toNat 15 15 0) 15 12 * 4096)).modAout o fun x => { x with starting := false, stopping := x.run }))))

/-- SLOT_ALLOCATE, XP_CREATE, XP_CHANGE, XP_REPLACE_SOURCE, XP_REMOVE, XP_RAMP_END, CROSSFADE_END, SCENE_GO,
ACTIVE_HOLD_END and NAG_WRITE (R466 to R478); the order of causes is the model's choice (assumption 14). -/
def Obligations.RouteCommandsAnswer : Prop :=
  (∀ (s : State) (slot : Fin 512) (u : Word), s.live = true → let w0 := s.hub.reg (kSlot slot 0)
    (s.hub.slotCause slot w0 u.toNat = none →
      let h := ((s.hub.setReg (kSlot slot 1) u.toNat).enforce (kSlot slot 0)).enforce (kSlot slot 1)
      exec (.slotAllocate slot u) s = .next (s.withHub (({ h with
        bus := tput (fun _ => {}) h.bus slot {}, rtm := { h.rtm with snks := tput (fun _ => {}) h.rtm.snks slot {} } }).calHitSink slot))) ∧
    (∀ c, s.hub.slotCause slot w0 u.toNat = some c → exec (.slotAllocate slot u) s = .next (s.withHub
      ((((s.hub.revert (kSlot slot 0)).revert (kSlot slot 1)).setFlag (kRtm 0xB000)).issue 160 2 slot c w0)))) ∧
  (∀ (s : State) (x : Fin 4096) (w0 gain ramp : Word) (snk src : Fin 512), s.live = true →
    let put := fun (a b c d : Nat) =>
      ((((s.hub.setReg (kXp x 0) a).setReg (kXp x 1) b).setReg (kXp x 2) c).setReg (kXp x 3) (if 1000 < bits d 9 0 then bits (s.hub.eff (kXp x 3)) 9 0 else bits d 9 0))
    let lands := fun (i : Instr) (h : Hub) => let ws := h.xpWords x
      (∀ c, h.xpCause x ws = some c → exec i s = .next (s.withHub (h.xpRefuse x c (lget 0 ws 1)))) ∧
      (h.xpCause x ws = none → bit (lget 0 ws 0) 14 = false →
        exec i s = .next (s.withHub (h.modXp x fun e => { e with next := some (ws.map (BitVec.ofNat 16)), later := true }))) ∧
      (h.xpCause x ws = none → bit (lget 0 ws 0) 14 = true →
        exec i s = .next (s.withHub (h.modXp x fun e => { e with wait := some (ws.map (BitVec.ofNat 16)), later := false })))
    lands (.xpCreate x w0 snk gain ramp) (put (putBits w0.toNat 15 15 1) snk gain.toNat ramp.toNat) ∧
    lands (.xpChange x w0 gain ramp)
      (put (putBits (putBits w0.toNat 15 15 (s.hub.fld (kXp x 0) 15 15)) 8 0 (s.hub.fld (kXp x 0) 8 0)) (s.hub.reg (kXp x 1)) gain.toNat ramp.toNat) ∧
    lands (.xpReplaceSource x src) (put (putBits (s.hub.reg (kXp x 0)) 8 0 src) (s.hub.reg (kXp x 1)) (s.hub.reg (kXp x 2)) (s.hub.reg (kXp x 3))) ∧
    lands (.xpRemove x ramp) (put (putBits (s.hub.reg (kXp x 0)) 15 15 0) (s.hub.reg (kXp x 1)) (s.hub.reg (kXp x 2)) ramp.toNat)) ∧
  (∀ (s : State) (x : Fin 4096) (r : Ramp), s.live = true → (s.hub.xp x).ramp = some r → r.n ≤ r.j →
    ((s.hub.xp x).removing = true → exec (.xpRampEnd x) s = .next (s.withHub (((s.hub.modXp x Xp.blank).asrcSweep).chimeFreed))) ∧
    ((s.hub.xp x).removing = false →
      exec (.xpRampEnd x) s = .next (s.withHub ((s.hub.modXp x fun e => { e with ramp := none, a := r.a1 }).chimeFreed)))) ∧
  (∀ (s : State) (x : Fin 4096) (old n j : Nat), s.live = true → (s.hub.xp x).fade = some (old, n, j) → n ≤ j → (s.hub.xp x).heldSrc = none →
    exec (.crossfadeEnd x) s = .next (s.withHub ((s.hub.modXp x fun e => { e with fade := none }).asrcSweep))) ∧
  (∀ (s : State) (w : Word), s.live = true →
    (w.toNat / 256 = 0x6D → exec (.sceneGo w) s = .next (s.withHub ((s.hub.rtm.xps.map (·.1)).foldl (fun h x =>
      if (h.xp x).wait.isSome then h.modXp x Xp.release else h) s.hub))) ∧
    (w.toNat / 256 ≠ 0x6D → exec (.sceneGo w) s = .next s)) ∧
  (∀ (s : State) (x : Fin 4096), s.live = true → s.hub.xpActive x = false →
    exec (.activeHoldEnd x) s = .next (s.withHub (s.hub.modXp x fun e => { e with quiet := none }))) ∧
  (∀ (s : State) (k : Fin 512) (w : Word), s.live = true →
    let bad := s.hub.isSink k = false ∨ (bit (s.hub.reg (kSnk k 5)) 15 = true ∧ bits w.toNat 8 0 ≠ s.hub.fld (kSnk k 5) 8 0)
    (bad → exec (.nagWrite k w) s = .next (s.wrote (s.hub.failWin 3 (0x9005 + 16 * k)))) ∧
    (¬ bad → exec (.nagWrite k w) s = .next (s.wrote (s.hub.setReg (kSnk k 5)
      (putBits (if bits w.toNat 8 0 ≤ 240 then bits w.toNat 8 0 else s.hub.fld (kSnk k 5) 8 0) 15 15 (bits w.toNat 15 15))))))

/-- ADC_INPUT_ENABLE, ADC_MODE_WRITE, GAIN_WRITE, GAIN_STEP, CLIP_HOLD_END, BIAS_CHECK, TL_ENABLE, TL_RELAY_OPEN,
TL_RELAY_CLOSE, TL_RELAY_CHANGED, TL_RELAY_FAULT, CDC_RX, CDC_TX_COMMAND, CDC_TX_START and CDC_TX_DONE (R431 to R444). -/
def Obligations.AnalogCommandsAnswer : Prop :=
  (∀ (s : State) (v : Byte), s.live = true → exec (.adcInputEnable v) s = .next (s.withHub (iter 8 (fun n h =>
    if bit v.toNat n = bit (h.reg 0x48) n then h
    else if bit v.toNat n = false then h.setFld 0x48 n n 0
    else match h.enableRefused (n / 4) (h.fld (kAdc n 1) 8 0) 1 n with
      | some c => (h.setFlag (kAioFlag 8)).issue (120 + n) 3 c (h.fld (kAdc n 1) 8 0) 0
      | none => h.setFld 0x48 n n 1) s.hub))) ∧
  (∀ (s : State) (n : Fin 8) (w : Word) (g : BitVec 6), s.live = true →
    let cfg := fun (mode gain : Nat) => ((s.hub.calHitMic n).setReg (kAdc n 0) (mode * 4096 + gain)).modAdc n
      fun a => { a with bias := mode == 2, low := 0, biasf := false }
    let now := s.hub.fld (kAdc n 0) 5 0
    (bits w.toNat 13 12 = 3 → exec (.adcModeWrite n w) s = .next s) ∧
    (bits w.toNat 13 12 ≠ 3 → bits w.toNat 5 0 ≤ 60 → exec (.adcModeWrite n w) s = .next (s.withHub (cfg (bits w.toNat 13 12) (bits w.toNat 5 0)))) ∧
    (bits w.toNat 13 12 ≠ 3 → 60 < bits w.toNat 5 0 → exec (.adcModeWrite n w) s = .next (s.withHub (cfg (bits w.toNat 13 12) now))) ∧
    (s.hub.fld (kAdc n 0) 13 12 ≠ 3 → g.toNat ≤ 60 →
      exec (.gainWrite n g) s = .next (s.withHub (cfg (s.hub.fld (kAdc n 0) 13 12) g.toNat)))) ∧
  (∀ (s : State) (u : Fin 10), s.live = true → ∃ h : Hub, exec (.gainStep u) s = .next (s.withHub h) ∧
    (∀ n : Fin 8, u.val = n.val → h = s.hub.setReg (kAdc n 3) (stepTo (s.hub.fld (kAdc n 3) 5 0) (s.hub.fld (kAdc n 0) 5 0))) ∧
    (∀ t : Fin 2, u.val = 8 + t.val → (h.tl t).gain = stepTo (s.hub.tl t).gain (s.hub.fld (kTl t 2) 4 0))) ∧
  (∀ (s : State) (n : Fin 8), s.live = true → exec (.clipHoldEnd n true) s = .next (s.withHub (s.hub.modAdc n fun a => { a with near := false })) ∧
    exec (.clipHoldEnd n false) s = .next (s.withHub (s.hub.modAdc n fun a => { a with clip := false }))) ∧
  (∀ (s : State) (n : Fin 8) (ua : Word), s.live = true → s.hub.fld (kAdc n 0) 13 12 = 2 → (s.hub.adc n).bias = true →
    let h := s.hub.setReg (kAdc n 5) ua.toNat
    let fault := fun (kind : Nat) (on : Bool) (low : Nat) =>
      ((h.modAdc n fun a => { a with bias := on, low := low, biasf := true }).setFlag (kAioFlag 1)).issue (120 + n) 2 kind ua.toNat 0
    let low := if ua.toNat < 50 then (s.hub.adc n).low + 1 else 0
    exec (.biasCheck n ua true) s = .next (s.withHub (fault 2 false low)) ∧
    (low = 10 → exec (.biasCheck n ua false) s = .next (s.withHub (fault 1 true low))) ∧
    (low ≠ 10 → exec (.biasCheck n ua false) s = .next (s.withHub (h.modAdc n fun a => { a with low := low })))) ∧
  (∀ (s : State) (v : BitVec 2), s.live = true → exec (.tlEnable v) s = .next (s.withHub (iter 2 (fun t h =>
    if bit v.toNat t = bit (h.reg 0x4A) t then h
    else if bit v.toNat t = false then h.setFld 0x4A t t 0
    else match h.enableRefused 3 (h.fld (kTl t 0) 8 0) 2 t, h.enableRefused 3 (h.fld (kTl t 1) 8 0) 6 t with
      | some c, _ => (h.setFlag (kAioFlag 8)).issue (128 + t) 5 c (h.fld (kTl t 0) 8 0) 0
      | none, some c => (h.setFlag (kAioFlag 8)).issue (128 + t) 5 c (h.fld (kTl t 1) 8 0) 0
      | none, none => h.setFld 0x4A t t 1) s.hub))) ∧
  (∀ s : State, s.live = true → let open_ := s.hub.setFld 0x4A 15 15 0
    (8 ≤ open_.phase → exec .tlRelayOpen s = .next (s.withHub (open_.modAio fun a =>
      { a with tlRelay := { a.tlRelay with closed := false, cause := 2, moving := true } }))) ∧
    (open_.phase < 8 → exec .tlRelayOpen s = .next (s.withHub open_)) ∧
    exec .tlRelayClose s = .next (s.withHub ((s.hub.setFld 0x4A 15 15 1).modAio fun a =>
      { a with tlRelay := { a.tlRelay with closed := true, cause := 2, moving := true } })) ∧
    (s.hub.aio.tlRelay.sensed ≠ s.hub.aio.tlRelay.closed → exec .tlRelayFault s = .next (s.withHub
      ((s.hub.setFlag (kAioFlag 2)).issueLimited 0 130 1 (b2n s.hub.aio.tlRelay.closed) (b2n s.hub.aio.tlRelay.sensed) 0)))) ∧
  (∀ (s : State) (sensed : Bool), s.live = true → let h := s.hub.modAio fun a => { a with tlRelay := { a.tlRelay with moving := false, sensed := sensed } }
    exec (.tlRelayChanged sensed) s = .next (s.withHub ((h.setFld 0x4B 15 15 (b2n sensed)).issue 130 2 (b2n sensed) s.hub.aio.tlRelay.cause 0))) ∧
  (∀ (s : State) (t : Fin 2) (b : List Byte), s.live = true → bit (s.hub.reg 0x4A) (8 + t) = true → s.hub.tlLive t = true →
    let fails := fun cause : Nat => let h := (s.hub.addSat (kTl t 6) 2 1).setFlag (kAioFlag 3)
      Host.Outcome.next (s.withHub (h.issueLimited t (128 + t) 2 cause (h.reg (kTl t 6)) 0))
    let len := byteAt b 1
    exec (.cdcRx t b true) s = fails 2 ∧
    ((len = 0 ∨ 64 < len) → exec (.cdcRx t b false) s = fails 3) ∧
    (1 ≤ len → len ≤ 64 → (b.length ≠ len + 4 ∨ cdcCrc (b.take (len + 2)) ≠ beAt b (len + 2) 2) → exec (.cdcRx t b false) s = fails 1) ∧
    (1 ≤ len → len ≤ 64 → b.length = len + 4 → cdcCrc (b.take (len + 2)) = beAt b (len + 2) 2 →
      let body := (b.drop 2).take len
      let h := iter 32 (fun i h => h.setReg (kCdcRx t (1 + i)) (256 * byteAt body (2 * i) + byteAt body (2 * i + 1)))
        (s.hub.setReg (kCdcRx t 0) (256 * len + byteAt b 0))
      let h := (h.addWrap (kCdcRx t 33) 1 1).addSat (kTl t 4) 2 1
      exec (.cdcRx t b false) s = .next (s.withHub ((h.issue (128 + t) 1 (byteAt b 0) len (h.reg (kCdcRx t 33))).caption t (b.take (len + 2)))))) ∧
  (∀ (s : State) (w : Word) (t : Fin 2), s.live = true → bits w.toNat 15 12 = 0xA → bits w.toNat 8 8 = t.val →
    let len := bits w.toNat 6 0
    let refuse := fun c : Nat => Host.Outcome.next (s.withHub (s.hub.issue (128 + t) 4 c w.toNat 0))
    ((len = 0 ∨ 64 < len) → exec (.cdcTxCommand w) s = refuse 1) ∧
    (1 ≤ len → len ≤ 64 → (s.hub.tl t).tx.isSome = true → exec (.cdcTxCommand w) s = refuse 2) ∧
    (1 ≤ len → len ≤ 64 → (s.hub.tl t).tx = none → bit (s.hub.reg 0x4A) (4 + t) = true → s.hub.tlLive t = true →
      exec (.cdcTxCommand w) s = .next (s.withHub (s.hub.modTl t fun x =>
        { x with tx := some { ty := BitVec.ofNat 8 (s.hub.reg (kCdcTx t 0)), body := s.hub.wordBytes (kCdcTx t 1) len } })))) ∧
  (∀ (s : State) (t : Fin 2) (m : CdcTx), s.live = true → (s.hub.tl t).tx = some m →
    (m.started = false → ∃ h : Hub, exec (.cdcTxStart t) s = .next (s.withHub h) ∧ (h.tl t).tx = some { m with started := true } ∧
      (h.tl t).symbols = cdcSymbols m) ∧
    (m.started = true → exec (.cdcTxDone t) s = .next (s.withHub
      ((s.hub.modTl t fun x => { x with tx := none }).issue (128 + t) 3 m.ty.toNat m.body.length (s.hub.stamp.toNat % 65536)))))

/-- AMP_ENABLE, AMP_DISABLE, CROSS_DRIVE_TEST_DONE, AMP_MUTE, AMP_UNMUTE, AMP_RAMP_END, AMP_FAULT, AMP_REENABLE,
AMP_THERMAL, BRIDGE_WRITE, CONTINUOUS_CHECK, FIELD_INPUT_SAMPLE, FIELD_OUTPUT_COMMAND, FOUT_TRIP, FOUT_RETRY, FOUT_OPEN and
TRIP_CLEAR (R446 to R460). A retry that falls due while the command is 0 follows the next command of 1 by the model's reading
(assumption 143). -/
def Obligations.AmplifierAndFieldCommandsAnswer : Prop :=
  (∀ (s : State) (n : Fin 8) (m : Sense), s.live = true → bit (s.hub.reg 0x4E) n = false → s.hub.isL = false →
    let slot := s.hub.fld (kAmp n 0) 8 0
    (∀ c, s.hub.enableRefused 2 slot 5 n = some c → exec (.ampEnable n m) s = .next (s.withHub
      ((s.hub.setFlag (kAioFlag 8)).issue (136 + n) 4 c (s.hub.reg 0x4E + 2 ^ n.val) 0))) ∧
    (s.hub.enableRefused 2 slot 5 n = none → ¬ (s.hub.bridged n = true ∧ n.val % 2 = 1) → s.hub.pwr.shed = false →
      exec (.ampEnable n m) s = .next (s.withHub ((s.hub.setReg 0x4E (s.hub.reg 0x4E + 2 ^ n.val)).ampCheck n m)))) ∧
  (∀ (s : State) (n : Fin 8), s.live = true → bit (s.hub.reg 0x4E) n = true →
    let h := s.hub.setFld 0x4E n n 0
    ((h.ampState n = 3 ∨ h.ampState n = 4 ∨ (h.ampCh n).ramp.isSome = true) → exec (.ampDisable n) s = .next (s.withHub (h.ampRamp n 3 .off))) ∧
    (h.ampState n ≠ 3 → h.ampState n ≠ 4 → (h.ampCh n).ramp = none → exec (.ampDisable n) s = .next (s.withHub (h.ampRest n 0 0)))) ∧
  (∀ (s : State) (n : Fin 8) (m : Sense) (sensed : BitVec 8), s.live = true → let l := s.hub.ampLead n
    let other := fun p : Nat => p != l && bit sensed.toNat p && !(s.hub.bridged l && p == mate l)
    s.hub.ampState l = 1 →
    (∀ p, firstBelow 8 other = some p → ∀ low, exec (.crossDriveTestDone n sensed low m) s = .next (s.withHub (s.hub.paralleled l p 1 m))) ∧
    (firstBelow 8 other = none →
      exec (.crossDriveTestDone n sensed true m) s = .next (s.withHub (s.hub.isolatePair l 1 m)) ∧
      exec (.crossDriveTestDone n sensed false m) s = .next (s.withHub
        (if bit (s.hub.reg 0x4F) l then s.hub.ampRest l 2 0 else s.hub.ampRamp l 3 .run)))) ∧
  (∀ (s : State) (n : Fin 8), s.live = true →
    (let h := s.hub.setFld 0x4F n n 1
     (h.ampLead n ≠ n → exec (.ampMute n) s = .next (s.withHub h)) ∧
     (h.ampLead n = n → h.ampState n = 4 → exec (.ampMute n) s = .next (s.withHub (h.ampRamp n 3 .muted))) ∧
     (h.ampLead n = n → h.ampState n = 5 → exec (.ampMute n) s = .next (s.withHub (h.modAmp n fun a => { a with before := 2 })))) ∧
    (let h := s.hub.setFld 0x4F n n 0
     (h.ampLead n = n → h.ampState n = 2 → exec (.ampUnmute n) s = .next (s.withHub (h.ampRamp n 3 .run))))) ∧
  (∀ (s : State) (n : Fin 8) (t : RampTo), s.live = true → (s.hub.ampCh n).ramp = some t → exec (.ampRampEnd n) s = .next (s.withHub
    ((match t with
      | .run => s.hub.ampRest n 4 1
      | .muted => s.hub.ampRest n 2 0
      | .off => s.hub.ampRest n 0 0
      | .thermal => s.hub.ampRest n 5 0).chimeReady))) ∧
  (∀ (s : State) (n : Fin 8) (c : Fin 5) (m : Sense), s.live = true → s.hub.isL = false → (c.val = 1 ∨ c.val = 2 ∨ c.val = 4) →
    let lead := (s.hub.ampPair n).headD n
    bit (s.hub.reg 0x4E) lead = true → s.hub.ampState lead ≠ 6 → s.hub.ampState lead ≠ 0 →
    exec (.ampFault n c m) s = .next (s.withHub (s.hub.isolatePair n c m))) ∧
  (∀ (s : State) (w : Word) (ms : List Sense), s.live = true → s.hub.isL = false → w.toNat / 256 = 0x5A →
    exec (.ampReenable w ms) s = .next (s.withHub (iter 8 (fun n h =>
      if bit w.toNat n = true ∧ h.ampState n = 6 ∧ bit (h.reg 0x4E) n = true then h.ampCheck n (lget ⟨false, 0, 0⟩ ms n) else h) s.hub))) ∧
  (∀ (s : State) (n : Fin 8) (t : Word), s.live = true → s.hub.isL = false → let l := s.hub.ampLead n
    (s.hub.ampState l = 4 → 150 ≤ t.toInt → (s.hub.ampCh l).ramp ≠ some .off → exec (.ampThermal n t) s = .next (s.withHub
      (((s.hub.ampRamp l 5 .thermal).modAmp l fun a => { a with before := 4 }).issue (136 + l) 3 1 t.toNat 0))) ∧
    (s.hub.ampState l = 5 → t.toInt < 130 → (s.hub.ampCh l).before = 4 →
      exec (.ampThermal n t) s = .next (s.withHub ((s.hub.ampRamp l 3 .run).issue (136 + l) 3 0 t.toNat 0)))) ∧
  (∀ (s : State) (v : BitVec 4), s.live = true → s.hub.isL = false →
    let bad := ∃ b < 4, bit (s.hub.reg 0x52) b ≠ bit v.toNat b ∧ (bit (s.hub.reg 0x4E) (2 * b) = true ∨ bit (s.hub.reg 0x4E) (2 * b + 1) = true)
    (bad → exec (.bridgeWrite v) s = .next (s.wrote (s.hub.failWin 3 0x52))) ∧
    (¬ bad → exec (.bridgeWrite v) s = .next (s.wrote (s.hub.setReg 0x52 v.toNat)))) ∧
  (∀ (s : State) (n p : Fin 8) (m : Sense), s.live = true → s.hub.isL = false → n ≠ p → ¬ (s.hub.bridged n = true ∧ p = mate n) → (s.hub.ampState n = 3 ∨ s.hub.ampState n = 4) →
    exec (.continuousCheck n p m) s = .next (s.withHub (s.hub.paralleled n p 2 m))) ∧
  (∀ (s : State) (i : Fin 16) (mv : Int), s.live = true → let nom := vnom (s.hub.fld (kFin i 0) 2 0)
    let f := s.hub.fieldIn i
    let volt := wordOf (divOpen mv 500)
    f.range ≠ 2 → f.seen = true → 7 * nom ≤ 10 * mv → bit (s.hub.reg 0x54) i = false → 2 * s.hub.fld (kFin i 0) 15 8 ≤ f.differ + 1 →
    let h := (s.hub.setReg (kFin i 1) volt).modFin i fun f => { f with raw := true, seen := true }
    let h := (((h.modFin i fun f => { f with differ := 0 }).setFld 0x54 i i 1).addWrap (kFin i 2) 1 1).issue 144 1 i 1 volt
    let h := h.finRange i (if 14 * nom < 10 * mv then 1 else if 10 * mv < -nom then 2 else 0) volt
    exec (.fieldInputSample i mv) s = .next (s.withHub (h.chimeInput i (bit (s.hub.reg 0x54) i)))) ∧
  (∀ (s : State) (v : Byte), s.live = true → exec (.fieldOutputCommand v) s = .next (s.withHub (iter 8 (fun o h =>
    if bit v.toNat o = false then h.modFout o fun f => { f with on := false, armed := true }
    else if h.tripped o = false then h.modFout o fun f => { f with on := true }
    else if h.fld (kFout o 0) 1 0 = 0 ∧ (h.fieldOut o).armed = true then (h.setFld 0x57 (8 + o) (8 + o) 0).modFout o fun f => { f with on := true }
    else if (h.fieldOut o).due = true then h.modFout o fun f => { f with on := true }
    else h) (s.hub.setReg 0x56 v.toNat)))) ∧
  (∀ (s : State) (o : Fin 8), s.live = true →
    ((s.hub.fieldOut o).on = true →
      let h := ((s.hub.modFout o fun _ => { on := false, armed := false }).addSat (kFout o 2) 2 1).setFld 0x57 (8 + o) (8 + o) 1
      exec (.foutTrip o) s = .next (s.withHub ((h.setFlag (kAioFlag 7)).issue 145 1 o (h.fld (kFout o 0) 1 0) (h.reg (kFout o 2)))) ∧
      exec (.tripClear o) s = .next (s.withHub (s.hub.setFld 0x57 (8 + o) (8 + o) 0)) ∧
      ∀ (isOpen : Bool) (ma : Word), (isOpen = true ↔ ma.toNat < 5) →
        (bit (s.hub.reg 0x57) o ≠ isOpen → exec (.foutOpen o isOpen ma) s = .next (s.withHub
          (((s.hub.setReg (kFout o 1) ma.toNat).setFld 0x57 o o (b2n isOpen)).issue 145 2 o (b2n isOpen) ma.toNat))) ∧
        (bit (s.hub.reg 0x57) o = isOpen → exec (.foutOpen o isOpen ma) s = .next s)) ∧
    (s.hub.tripped o = true → s.hub.fld (kFout o 0) 1 0 ≠ 0 →
      (bit (s.hub.reg 0x56) o = true → exec (.foutRetry o) s = .next (s.withHub (s.hub.modFout o fun f => { f with on := true }))) ∧
      (bit (s.hub.reg 0x56) o = false → exec (.foutRetry o) s = .next (s.withHub (s.hub.modFout o fun f => { f with due := true })))))

/-- CAL_ENABLE, CAL_DISABLE, ZONE_CONFIG_WRITE, CAL_WINDOW_END, CAL_PUBLISH, FORCE_REQUEST, FORCE_EXCITATION_END,
PILOT_FADE_IN_END, TRIM_DUE, TRIM_QUIET_END and TRIM_DONE (R483 to R502). -/
def Obligations.CalibrationCommandsAnswer : Prop :=
  (∀ (s : State) (w : Word), s.live = true → s.hub.cal.on = false →
    let v := putBits w.toNat 15 15 1
    let n := bits v 3 0
    let h := s.hub
    let refuse := fun c : Nat => Host.Outcome.next (s.wrote ((h.setFlag (kCal 0x803)).issue 164 1 c v 0))
    ((h.reserved n = true ∨ (h.engine n).st ≠ .normal) → exec (.calEnable w) s = refuse 1) ∧
    (h.reserved n = false → (h.engine n).st = .normal → (h.engine n).bgen = true → exec (.calEnable w) s = refuse 2) ∧
    (h.reserved n = false → (h.engine n).st = .normal → (h.engine n).bgen = false →
      exec (.calEnable w) s = .next (s.wrote ((h.setReg 0x5C (bits v 15 11 * 2048 + n)).modCal fun c => { c with on := true })))) ∧
  (∀ (s : State) (w : Word), s.live = true → s.hub.cal.on = true →
    let v := putBits w.toNat 15 15 0
    (bits v 3 0 = s.hub.fld 0x5C 3 0 → exec (.calDisable w) s = .next (s.wrote
      (((s.hub.setReg 0x5C (bits v 15 11 * 2048 + bits v 3 0)).pilotStop 3 20).modCal fun c => { c with on := false, wins := [], work := [], forced := none }))) ∧
    (bits v 3 0 ≠ s.hub.fld 0x5C 3 0 → exec (.calDisable w) s = .next (s.wrote (s.hub.failWin 3 0x5C)))) ∧
  (∀ (s : State) (z : Fin 8) (w : Word), s.live = true →
    let k := kCal (16 * z)
    let h := s.hub.setReg (k + 4) (bits w.toNat 7 0)
    (240 < bits w.toNat 7 0 → exec (.zoneConfigWrite z w) s = .next s) ∧
    (bits w.toNat 7 0 ≤ 240 → h.zoneBad z = true → exec (.zoneConfigWrite z w) s = .next (s.withHub
      (((iter 5 (fun i h => h.revert (k + i)) h).setFlag (kCal 0x803)).issue 164 1 3 w.toNat z))) ∧
    (bits w.toNat 7 0 ≤ 240 → h.zoneBad z = false →
      let h := iter 5 (fun i h => h.enforce (k + i)) h
      exec (.zoneConfigWrite z w) s = .next (s.withHub (h.modCal fun c => { c with wins := c.wins.filter fun w => w.forced ||
        (if w.kind = 3 then (h.zoneOfMic w.mic).isSome
         else (h.zoneOfAmp w.amp).isSome && (w.kind == 1 || h.zoneOfMic w.mic == h.zoneOfAmp w.amp)) })))) ∧
  (∀ (s : State) (kind : BitVec 2) (n m : Fin 8) (exc : Int) (w : CalWin), s.live = true →
    (s.hub.cal.wins.find? fun w => w.is kind.toNat n m && w.left == 0) = some w →
    (s.hub.cal.work.find? fun v => v.is kind.toNat n m) = none →
    let h := s.hub.modCal fun c => { c with wins := c.wins.erase w }
    let reason := w.reason.orElse fun _ => if kind.toNat < 3 ∧ w.pilot = false ∧ exc < -400 then some 1 else none
    (∀ r, reason = some r → exec (.calWindowEnd kind n m exc) s = .next (s.withHub (h.calFail w r).calOpenAll)) ∧
    (reason = none → exec (.calWindowEnd kind n m exc) s =
      .next (s.withHub ((h.modCal fun c => { c with work := c.work ++ [w] }).calSubmit kind.toNat).calOpenAll))) ∧
  (∀ (s : State) (kind : BitVec 2) (n m : Fin 8) (r : CalRes) (w : CalWin), s.live = true →
    (s.hub.cal.work.find? fun w => w.is kind.toNat n m) = some w →
    let h := s.hub.modCal fun c => { c with work := c.work.erase w }
    let reason := w.reason.orElse fun _ => if kind.toNat = 2 ∧ r.coh.toNat < h.reg (kCal 0x700) then some 11 else none
    (∀ x, reason = some x → exec (.calPublish kind n m r) s = .next (s.withHub (h.calFail w x))) ∧
    (reason = none → w.forced = false →
      (kind.toNat = 1 → exec (.calPublish kind n m r) s = .next (s.withHub (h.linePublish w r))) ∧
      (kind.toNat = 2 → exec (.calPublish kind n m r) s = .next (s.withHub (h.pathPublish w r))) ∧
      (kind.toNat = 3 → exec (.calPublish kind n m r) s = .next (s.withHub (h.noisePublish w r))))) ∧
  (∀ (s : State) (w : Word), s.live = true → bits w.toNat 15 12 = 0xF →
    let kind := bits w.toNat 11 10
    let amp := bits w.toNat 6 4
    let mic := bits w.toNat 2 0
    let refuse := fun c : Nat => Host.Outcome.next (s.withHub ((s.hub.setFlag (kCal 0x803)).issue 164 1 c w.toNat 0))
    let bad := (kind ≠ 1 ∧ kind ≠ 2) ∨ (kind = 1 ∧ s.hub.isL = true) ∨ s.hub.zoneOfAmp amp = none ∨
      (kind = 2 ∧ s.hub.zoneOfMic mic ≠ s.hub.zoneOfAmp amp)
    ((s.hub.cal.on = false ∨ s.hub.cal.forced ≠ none) → exec (.forceRequest w) s = refuse 4) ∧
    (s.hub.cal.on = true → s.hub.cal.forced = none → bad → exec (.forceRequest w) s = refuse 5) ∧
    (s.hub.cal.on = true → s.hub.cal.forced = none → ¬ bad → exec (.forceRequest w) s = .next (s.withHub (s.hub.modCal fun c =>
      { c with wins := c.wins.filter fun w => !(w.kind == kind && w.amp == amp), forced := some { kind := kind, amp := amp, mic := mic } })))) ∧
  (∀ (s : State) (f : Forced) (exc : Int), s.live = true → s.hub.cal.forced = some f →
    (f.st = .measuring →
      (-400 ≤ exc → exec (.forceExcitationEnd exc) s = .next (s.withHub (s.hub.forceOpen f false))) ∧
      (exc < -400 → rateHz (s.hub.dom s.hub.calDom).rate < 44100 → exec (.forceExcitationEnd exc) s = .next (s.withHub
        (s.hub.calFail { kind := f.kind, amp := f.amp, mic := f.mic, left := 0, last := 0, forced := true } 13))) ∧
      (exc < -400 → 44100 ≤ rateHz (s.hub.dom s.hub.calDom).rate → exec (.forceExcitationEnd exc) s = .next (s.withHub
        ((s.hub.modCal fun c => { c with forced := some { f with st := .fadeIn, pilot := true }, pilot := some { amp := f.amp } }).issue
          168 1 f.amp (s.hub.tickLo s.hub.calDom) 0)))) ∧
    (f.st = .fadeIn → exec .pilotFadeInEnd s = .next (s.withHub (s.hub.forceOpen f true)))) ∧
  (∀ (s : State) (n : Fin 8), s.live = true → bit (s.hub.reg 0x5C) 11 = true → bit (s.hub.reg 0x48) n = true →
    (s.hub.reg (kTrimSt n) = 0 → exec (.trimDue n) s = .next (s.withHub (s.hub.setReg (kTrimSt n) 1))) ∧
    ∀ mean : Int, s.hub.reg (kTrimSt n) = 1 → (s.hub.adc n).biasf = false → s.hub.fld (kAdc n 3) 5 0 = s.hub.fld (kAdc n 0) 5 0 →
      let now := s16 (s.hub.reg (kAdc n 4))
      let wanted := now - divOpen mean 256
      exec (.trimQuietEnd n mean) s = .next (s.withHub ((s.hub.setReg (kTrimSt n) 2).modCal fun c =>
        { c with trims := tput (fun _ => none) c.trims n.val (some { before := now, target := clampI (-512) 512 wanted, wanted := wanted }) }))) ∧
  (∀ (s : State) (n : Fin 8) (t : Trim), s.live = true → tget (fun _ => none) s.hub.cal.trims n.val = some t → s16 (s.hub.reg (kAdc n 4)) = t.target →
    t.wanted = t.target → exec (.trimDone n) s = .next (s.withHub
      ((((s.hub.modCal fun c => { c with trims := tput (fun _ => none) c.trims n.val none }).setReg (kTrimSt n) 0).addSat (kCal (0x606 + 16 * n)) 2 1).issue
        169 1 n (wordOf t.target) (wordOf (t.target - t.before)))))

/-- CAPTION_PORT_ENABLE, CAPTION_PORT_DISABLE, MODE_REQUEST, CAPTION_FRAME_START, LINE_PACKET, PAGE_SELECT and CUE_WRITE (R508
to R521). A stalled read of pixels gives zeros by the model's reading of a stall (assumption 28). -/
def Obligations.CaptionCommandsAnswer : Prop :=
  (∀ (s : State) (p : Fin 2), s.live = true → bit (s.hub.reg 0x60) p = false →
    let req := s.hub.reg (0x64 + p)
    let refuse := fun c : Nat => Host.Outcome.next (s.withHub ((s.hub.setFlag (kCapFlag 0)).issue (176 + p) 5 c req 0))
    let other := (s.hub.clko 7).en = true ∧ ((s.hub.clko 7).dom ≠ 0 ∨ s.hub.reg (kClko 7 0) ≠ 16 ∨ s.hub.fld (kClko 7 1) 0 0 ≠ 0)
    (s.hub.modeValid p req = false → exec (.captionPortEnable p) s = refuse 1) ∧
    (s.hub.modeValid p req = true → other → exec (.captionPortEnable p) s = refuse 2) ∧
    (s.hub.modeValid p req = true → ¬ other → exec (.captionPortEnable p) s = .next (s.withHub
      (((s.hub.capClock.setFld 0x60 p p 1).setReg (0x62 + p) req).modPort p fun c => { c with pend := false }).capSync))) ∧
  (∀ (s : State) (p : Fin 2), s.live = true → bit (s.hub.reg 0x60) p = true →
    let h := (s.hub.setFld 0x60 p p 0).portStop p 1
    (h.capHolds = true → exec (.captionPortDisable p) s = .next (s.withHub h)) ∧
    (h.capHolds = false → exec (.captionPortDisable p) s = .next (s.withHub (h.tookFree.clkoDisable 7 (bit h.freeVal 0))))) ∧
  (∀ (s : State) (p : Fin 2) (m : BitVec 4), s.live = true →
    (s.hub.capH p % (if bit m.toNat 2 then 16 else 8) = 0 → exec (.modeRequest p m) s = .next (s.withHub
      ((s.hub.setReg (0x64 + p) m.toNat).modPort p fun c => { c with pend := (s.hub.capEn p && c.pend) || m.toNat != s.hub.reg (0x62 + p) }))) ∧
    (s.hub.capH p % (if bit m.toNat 2 then 16 else 8) ≠ 0 → exec (.modeRequest p m) s = .next (s.withHub
      ((s.hub.setFlag (kCapFlag 0)).issue (176 + p) 4 m.toNat (s.hub.reg (0x64 + p)) (s.hub.reg (kPort p 0)))))) ∧
  (∀ (s : State) (p : Fin 2), s.live = true → (s.hub.cport p).run = true → (s.hub.cport p).left = 0 →
    let old := s.hub.reg (0x62 + p)
    let new := if (s.hub.cport p).pend then s.hub.reg (0x64 + p) else old
    ∃ h : Hub, exec (.captionFrameStart p) s = .next (s.withHub h) ∧
      h.cport p = { s.hub.cport p with pend := false, first := false, blank := (s.hub.cport p).first || decide (new ≠ old), row := 0,
                                       left := (if bit new 2 then 16 else 8), page := (s.hub.cport p).held.getD (s.hub.cport p).page, held := none }) ∧
  (∀ (s : State) (p : Fin 2), s.live = true → (s.hub.cport p).run = true → 0 < (s.hub.cport p).left →
    let c := s.hub.cport p
    let st := if c.blank then (s.hub, false) else s.hub.stallTaken 7 0 (176 + p)
    let mode := s.hub.reg (0x62 + p)
    let a := 4096 * c.row + flagAt (bit mode 3) 11 + flagAt c.blank 10 + flagAt (bit mode 2) 9 + flagAt (c.row == 0) 8 + s.hub.fcnt p
    let b := 2048 * s.hub.fld (kPort p 0) 12 8 + 512 * s.hub.fld (kPort p 0) 1 0
    let body := [a, b] ++ (if c.blank then [] else if st.2 then (s.hub.pixelWords p c mode).map fun _ => 0 else s.hub.pixelWords p c mode)
    let h := st.1.modPort p fun c =>
      { c with packet := ([0xB5E3] ++ body ++ [crcWords body]).map (BitVec.ofNat 16), row := c.row + 1, left := c.left - 1 }
    exec (.linePacket p) s = .next (s.withHub (if c.left = 1 then h.addWrap (kPort p 2) 3 1 else h))) ∧
  (∀ (s : State) (w : Word), s.live = true → exec (.pageSelect w) s = .next (s.withHub
    ((s.hub.holdPage 0 (bits w.toNat 7 0)).holdPage 1 (bits w.toNat 15 8)))) ∧
  (∀ (s : State) (c : Fin 64) (hi : Word), s.live = true →
    (56 ≤ c.val → exec (.cueWrite c hi) s = .next (s.wrote (s.hub.failWin 3 (0x80002 + 4 * c)))) ∧
    (c.val < 56 → exec (.cueWrite c hi) s = .next (s.wrote ((s.hub.setReg (kCue c 2) hi.toNat).cueJudge c)) ∧
      let h := s.hub.setReg (kCue c 2) hi.toNat
      let h := iter 3 (fun i h => h.enforce (kCue c i)) h
      let h := { h with cap := { h.cap with late := h.cap.late.filter (· ≠ c.val) } }
      let d : Int := h.cueLate c
      (bit (h.eff (kCue c 0)) 15 = false → (s.hub.setReg (kCue c 2) hi.toNat).cueJudge c = h) ∧
      (bit (h.eff (kCue c 0)) 15 = true → d < 0 → (s.hub.setReg (kCue c 2) hi.toNat).cueJudge c = h) ∧
      (bit (h.eff (kCue c 0)) 15 = true → 0 ≤ d → d ≤ h.reg (kCap 0x80300) →
        let g := ({ h with cap := { h.cap with late := h.cap.late ++ [c.val] } }).addSat (kCapCnt 1) 2 1
        (s.hub.setReg (kCue c 2) hi.toNat).cueJudge c =
          (g.setFlag (kCapFlag 1)).issueLimited 0 178 1 c (min 65535 d.toNat) (bits (g.eff (kCue c 0)) 7 0))))

/-- OPEN, WRITE, COMMIT, ABORT, READ, DELETE, INFO, LOGREAD, FLOAD, CMD_DONE and PATROL_READ (R533 to R543, R550). What a stall
takes is the model's reading (assumption 28). -/
def Obligations.StoreCommandsAnswer : Prop :=
  (∀ (s : State) (x : NandIn), s.live = true → s.hub.nand.busy = none →
    let id := s.hub.reg (kCar 0x1002)
    let runs := fun (i : Instr) (cmd : Nat) (h : Hub) (r : Nat) => exec i s = .next (s.wrote (h.modNand fun n =>
      { n with busy := some (cmd, r, id), done := false, cmd := cmd }))
    let each := fun (r : Nat) => runs .storeOpen 1 s.hub r ∧ runs (.storeWrite x) 2 s.hub r ∧ runs .storeCommit 3 s.hub r ∧
      runs .storeAbort 4 s.hub r ∧ runs (.storeRead x) 5 s.hub r ∧ runs .storeDelete 6 s.hub r ∧ runs .storeInfo 7 s.hub r ∧
      runs .storeLogRead 8 s.hub r ∧ runs (.storeFload x) 9 s.hub r
    (s.hub.nand.avail ≠ some true → each 12) ∧
    (s.hub.nand.avail = some true → s.hub.nand.closed = true → each 10) ∧
    (s.hub.nand.avail = some true → s.hub.nand.closed = false →
      (s.hub.carOk = true → s.hub.nand.sess = none → 1 ≤ s.hub.carArg → s.hub.carArg ≤ partMax (s.hub.reg (kCar 0x1001)) →
        runs .storeOpen 1 ((s.hub.modNand fun n =>
          { n with gen := n.gen + 1, sess := some { obj := s.hub.carObj, len := s.hub.carArg, gen := n.gen + 1 } }).setReg (kCar 0x100B) 0) 0) ∧
      (∀ (t : Session) (n : Store), s.hub.nand.sess = some t → t.pages.length < pagesFor t.len → s.hub.cp.stalls = [] →
        s.hub.nand.addPage (t.obj / 4096) (t.obj, t.pages.length, t.gen) false = some n → x.progFail = false → x.eraseFail = false →
        runs (.storeWrite x) 2 ((({ s.hub with nand := { n with sess := some { t with pages := t.pages ++ [sessionPage t.len t.pages.length s.hub.carBuf] } } }).modNand
          fun n => n.collect (t.obj / 4096)).setReg (kCar 0x100B) (t.pages.length + 1)) 0) ∧
      (∀ t : Session, s.hub.nand.sess = some t →
        (pagesFor t.len ≤ t.pages.length → runs .storeCommit 3 (s.hub.modNand fun n => { n with
          sess := none, objs := tput (fun _ => none) n.objs t.obj
            (some { len := t.len, pages := t.pages, gen := t.gen, crc := crc32 (t.pages.flatten.take t.len) }) }) 0) ∧
        (t.pages.length < pagesFor t.len → runs .storeCommit 3 s.hub 7) ∧
        runs .storeAbort 4 (s.hub.modNand fun n => { n with sess := none }) 0) ∧
      (∀ v : NandObj, s.hub.carOk = true → s.hub.nand.obj s.hub.carObj = some v →
        runs .storeDelete 6 (s.hub.modNand fun n => { n with objs := tput (fun _ => none) n.objs s.hub.carObj none }) 0 ∧
        runs .storeInfo 7 (((s.hub.setRegN (kCar 0x1006) 2 v.len).setRegN (kCar 0x1008) 2 v.crc.toNat).setFld (kCar 0x100A) 15 15 (b2n v.damaged)) 0 ∧
        (v.pages.length ≤ s.hub.carArg → runs (.storeRead x) 5 s.hub 5) ∧
        (let b := ((partBlocks (s.hub.carObj / 4096)).find? fun b => (s.hub.nand.block b).pages.contains (s.hub.carObj, s.hub.carArg, v.gen)).getD 0
         s.hub.carArg < v.pages.length → s.hub.cp.stalls = [] → x.bad = [] → x.soft = false → (s.hub.nand.block b).reads + 1 < 100000 →
         runs (.storeRead x) 5 ((s.hub.modNand fun n => n.modBlock b fun k => { k with reads := k.reads + 1 }).setCarBuf (lget [] v.pages s.hub.carArg)) 0) ∧
        runs (.storeFload x) 9 (s.hub.carFload x).1 (s.hub.carFload x).2) ∧
      (∀ (e : Nat) (b : List Byte), s.hub.nand.log[s.hub.carArg]? = some (e, b) → s.hub.cp.stalls = [] → runs .storeLogRead 8 (s.hub.setCarBuf b) 0))) ∧
  (∀ s : State, s.live = true → s.hub.nand.busy ≠ none → exec .storeOpen s = .next (s.wrote (s.hub.failWin 3 0x1000))) ∧
  (∀ (s : State) (cmd r id : Nat), s.live = true → s.hub.nand.busy = some (cmd, r, id) → s.hub.pwr.boot.wait ≠ .fload → exec .cmdDone s = .next (s.withHub
    (((s.hub.modNand fun n => { n with busy := none, done := true, result := r }).addSat (kCar 0x1206) 2 1).issue 186 1 cmd r id))) ∧
  (∀ (s : State) (soft : List (Fin 4096)), s.live = true → s.hub.nand.avail = some true → s.hub.nand.closed = false →
    let bs := (s.hub.nand.blocks.filter fun e => !e.2.pages.isEmpty && !e.2.bad && partOf e.1 != 3).map (·.1)
    let h := bs.foldl (fun h b => h.modNand fun n => n.modBlock b fun k => { k with reads := k.reads + k.pages.length }) s.hub
    exec (.patrolRead soft) s = .next (s.withHub (bs.foldl (fun h b => if (soft.map (·.val)).contains b then h.refreshBlock b 3
      else if 100000 ≤ (h.nand.block b).reads then h.refreshBlock b 1 else h) h)))

/-- SCRUB_READ, NAND_MOUNT, MOUNT_FAILED, LOG_PAGE, LOG_FREEZE, LOG_RESUME, LOG_MARK, TELEMETRY_SAMPLE and TELEMETRY_EXPORT (R529 to R554).
What a stall takes is the model's reading (assumption 28). -/
def Obligations.BackgroundServicesAnswer : Prop :=
  (∀ (s : State) (e : Ecc) (raced : Bool) (use : ScrubUse), s.live = true → bit (s.hub.reg 0x68) 15 = true →
    (let st := s.hub.stallTaken 7 0 184
     let h := if st.2 then st.1 else st.1.scrubDram s.hub.scr.dram e use
     (h.scr.dram + 1 < dramUnits → exec (.scrubRead true e raced use) s = .next (s.withHub { h with scr := { h.scr with dram := h.scr.dram + 1 } })) ∧
     (dramUnits ≤ h.scr.dram + 1 → ∃ h' : Hub, exec (.scrubRead true e raced use) s = .next (s.withHub h') ∧ h'.scr.dram = 0 ∧ h'.scr.found = 0)) ∧
    (let h := s.hub.scrubChip (chipUnit s.hub.scr.chip) e use
     (h.scr.chip + 1 < chipUnits → exec (.scrubRead false e raced use) s = .next (s.withHub { h with scr := { h.scr with chip := h.scr.chip + 1 } })) ∧
     (chipUnits ≤ h.scr.chip + 1 → exec (.scrubRead false e raced use) s =
       .next (s.withHub (({ h with scr := { h.scr with chip := 0 } }).addSat (kScr 0) 2 1))))) ∧
  (∀ (s : State) (a b : NandIn), s.hub.pwr.running = true → s.hub.nand.avail = none → s.hub.nand.log ≠ [] →
    let h := (s.hub.modNand fun n => { n with avail := some true }).setRegN (kCar 0x1300) 3 (s.hub.nand.pseq - 1)
    let h := (h.issue 187 3 ((s.hub.nand.pseq - 1) % 65536) (h.nand.good 3).length (h.nand.retain / 4 % 65536)).recStart
    exec (.nandMount a b) s = .next { s with hub := (stepSeven (h.readHeaders a b) s.q).1, q := (stepSeven (h.readHeaders a b) s.q).2 }) ∧
  (∀ (s : State) (c : Fin 2), s.hub.pwr.running = true → s.hub.nand.avail = none →
    let h := ((s.hub.modNand fun n => { n with avail := some false }).setFlag (kCar 0x1310)).issue 186 6 (c.val + 1) 0 0
    let h := ((h.bootRejected 0 4 2 0).bootRejected 1 4 2 0).modBoot fun b => { b with cands := some [] }
    exec (.mountFailed c) s = .next { s with hub := (stepSeven h s.q).1, q := (stepSeven h s.q).2 }) ∧
  (∀ (s : State) (x : LogIn), s.live = true → bit (s.hub.reg 0x6A) 15 = true → s.hub.nand.avail = some true →
    (s.hub.rcd.frozen = true → exec (.logPage x) s = .next (s.withHub s.hub.lostPage)) ∧
    (s.hub.rcd.frozen = false → s.hub.rcd.closed = false → s.hub.rcd.closing = false → x.late = false →
      let page := s.hub.logPage x.samples false
      let h := (({ s.hub with rcd := page.2 }).logProgram page.1 x.nand.progFail).recStart
      bit (h.reg 0x6A) 14 = false → exec (.logPage x) s = .next (s.withHub h))) ∧
  (∀ (s : State) (code : Byte), s.live = true →
    exec .logFreeze s = .next (s.withHub (s.hub.setFld 0x6A 14 14 1)) ∧
    (s.hub.rcd.frozen = true → exec .logResume s = .next (s.withHub
      (((s.hub.setFld 0x6A 14 14 0).modRcd fun r => { r with frozen := false }).logFrozen false))) ∧
    (code ≠ 0 → exec (.logMark code) s = .next (s.withHub (s.hub.setFld 0x6A 7 0 code.toNat))) ∧
    exec (.logMark 0) s = .next s) ∧
  (∀ (s : State) (e : Fin 64), s.live = true → bit (s.hub.reg 0x6C) 15 = true → s.hub.reg (kTel (0x400011 + 2 * e)) ≠ 0 →
    let w := s.hub.reg (kTel (0x400010 + 2 * e))
    let qty := bits w 14 8
    qty ≠ 3 → qty ≠ 0xC → qty ≠ 0x10 → (s.hub.stallTaken 7 0 188).2 = false →
    let k := kTel (4 * (s.hub.telCnt % 2 ^ 20))
    exec (.telemetrySample e) s = .next (s.withHub
      ((((s.hub.setReg k (0x8000 + w % 0x8000)).setReg (k + 1) (s.hub.telValue s.q e qty (bits w 7 0))).setRegN (k + 2) 2
        s.hub.stamp.toNat).addWrap (kTel 0x400000) 3 1))) ∧
  (∀ s : State, s.live = true → bit (s.hub.reg 0x6C) 14 = true → s.hub.telCnt ≤ s.hub.tel.next + 2 ^ 20 →
    let n := min (s.hub.fld (kTel 0x400101) 7 0) (s.hub.telCnt - s.hub.tel.next)
    n ≠ 0 → exec .telemetryExport s = .next (s.withHub
      (let h := { s.hub with tel := { s.hub.tel with next := s.hub.tel.next + n, seq := s.hub.tel.seq + 1 } }
       h.sendFrame (h.fld (kTel 0x400100) 9 0) (s.hub.telDatagram s.hub.tel.next n))))

/-- INPUT_QUALIFIED, INPUT_LOST, HOLDUP_UPDATE, INPUT_POWER_UPDATE, CAPACITY_MEASURED, AMP_SHED, BYPASS_RELEASE,
THERMAL_SAMPLE, ROAST_REQUEST and ROAST_DONE (R572 to R575, R584 to R590, R601 to R605). -/
def Obligations.SupplyAndRoastCommandsAnswer : Prop :=
  (∀ (s : State) (ac : Bool) (volt freq : Word), (if ac then s.hub.pwr.ac else s.hub.pwr.dc) = false →
    let h := s.hub.modPwr fun p => if ac then { p with ac := true } else { p with dc := true }
    let h := ((h.addWrap (kPwr (if ac then 0x1B else 0x1A)) 1 1).setFlag (kPwr 0x22)).issue 226 1 (b2n ac) volt.toNat (if ac then freq.toNat else 0)
    (h.pwr.loss = false → exec (.inputQualified ac volt freq) s = .next (s.withHub h)) ∧
    (h.pwr.loss = true → exec (.inputQualified ac volt freq) s = .next (s.withHub h.powerBack))) ∧
  (∀ (s : State) (ac : Bool) (c : Fin 3) (volt : Word), (if ac then s.hub.pwr.ac else s.hub.pwr.dc) = true →
    let h := s.hub.modPwr fun p => if ac then { p with ac := false } else { p with dc := false }
    let h := ((h.addWrap (kPwr (if ac then 0x1B else 0x1A)) 1 1).setFlag (kPwr 0x22)).issueLimited (b2n ac) 226 2 (b2n ac) (c.val + 1) volt.toNat
    ((h.pwr.dc = true ∨ h.pwr.ac = true ∨ h.pwr.running = false ∨ h.pwr.loss = true) → exec (.inputLost ac c volt) s = .next (s.withHub h)) ∧
    (h.pwr.dc = false → h.pwr.ac = false → h.pwr.running = true → h.pwr.loss = false →
      exec (.inputLost ac c volt) s = .next (s.withHub h.powerLoss))) ∧
  (∀ (s : State) (ms v1 v2 v3 v4 : Word) (chg : Fin 101) (cap : Byte), s.live = true →
    exec (.holdupUpdate ms chg v1) s = .next (s.withHub (((s.hub.setReg 0x75 ms.toNat).setFld 0x74 6 0 chg).setReg (kPwr 3) v1.toNat)) ∧
    exec (.inputPowerUpdate v1 v2 v3 v4) s = .next (s.withHub
      ((((s.hub.setReg 0x76 v1.toNat).setReg (kPwr 0) v2.toNat).setReg (kPwr 1) v3.toNat).setReg (kPwr 2) v4.toNat)) ∧
    exec (.capacityMeasured cap false) s = .next (s.withHub (s.hub.setReg (kPwr 4) cap.toNat)) ∧
    exec (.capacityMeasured cap true) s = .next (s.withHub
      ((s.hub.setReg (kPwr 4) cap.toNat).issue 227 3 cap.toNat ((s.hub.setReg (kPwr 4) cap.toNat).reg 0x75) 0))) ∧
  (∀ s : State, s.live = true →
    (s.hub.pwr.loss = true → s.hub.pwr.shed = false →
      let h := (s.hub.modPwr fun p => { p with shed := true }).addSat (kPwr 8) 2 1
      let h := iter 8 (fun n h => if h.ampState n = 3 ∨ h.ampState n = 4 then h.ampRamp n 3 .off else h.ampRest n 0 0) h
      exec .ampShed s = .next (s.withHub (h.issue 227 2 1 (satN 65535 (h.refMs - h.pwr.lossAt)) (h.reg 0x75)))) ∧
    (s.hub.pwr.shed = true → s.hub.pwr.released = false → exec .bypassRelease s = .next (s.withHub
      (((s.hub.modPwr fun p => { p with released := true }).bypass 3).tlRelayClose 3)))) ∧
  (∀ (s : State) (renza heat air : Word), s.live = true →
    let h := (((s.hub.setReg (kPwr 0xA) renza.toNat).setReg (kPwr 0xB) heat.toNat).setReg (kPwr 0xC) air.toNat).derate heat.toInt
    (h.pwr.hot = false → 120 ≤ renza.toInt → exec (.thermalSample renza heat air) s =
      .next (s.withHub (((h.modPwr fun p => { p with hot := true }).setFlag (kPwr 0x21)).issue 228 2 1 renza.toNat 0))) ∧
    (h.pwr.hot = true → renza.toInt < 115 → exec (.thermalSample renza heat air) s =
      .next (s.withHub ((h.modPwr fun p => { p with hot := false }).issue 228 2 0 renza.toNat 0))) ∧
    (h.pwr.hot = false → renza.toInt < 120 → exec (.thermalSample renza heat air) s = .next (s.withHub h))) ∧
  (∀ (s : State) (w : Word), s.live = true → bits w.toNat 15 12 = 0xB →
    let slot := bits w.toNat 3 0
    (∀ c, s.hub.roastCause slot = some c → exec (.roastRequest w) s = .next (s.withHub (s.hub.refuseRoast w.toNat c))) ∧
    (∀ g, s.hub.roastCause slot = none → s.hub.otpTarget slot = some g →
      let h := s.hub.setReg (kOtp 0x1001) (s.hub.reg 0x75)
      (h.holdupProof = false → exec (.roastRequest w) s = .next (s.withHub (h.refuseRoast w.toNat 6))) ∧
      (h.holdupProof = true → h.otpBlank slot g = false →
        exec (.roastRequest w) s = .next (s.withHub (((h.setClass slot g 2).slotState slot).refuseRoast w.toNat 7))) ∧
      (h.holdupProof = true → h.otpBlank slot g = true →
        let p := (List.range 32).map fun i => BitVec.ofNat 16 (h.reg (kOtp (0x1200 + i)))
        exec (.roastRequest w) s = .next (s.withHub { h with otp := { h.otp with
          slot := slot, roast := some { slot := slot, gen := g, lock := bit w.toNat 8, payload := p, check := otpCheck slot g p } } })))) ∧
  (∀ (s : State) (r : Roast), s.live = true → s.hub.otp.roast = some r →
    let h := (s.hub.burn r.slot r.gen none r.words 0).1
    h.otpClass r.slot r.gen = 1 →
    let h := ({ h with otp := { h.otp with roast := none } })
    let h := ((h.setClass r.slot r.gen 1).slotState r.slot).setReg 0x72 (0x1000 + 256 * r.slot + 64 * r.gen)
    exec (.roastDone none none) s = .next (s.withHub ((h.addSat (kOtp 0x1300) 2 1).issue 217 1 r.slot r.gen r.check.toNat)))

/-- FABRIC_START, LOAD_DONE, DRAM_INIT_DONE, AMPLIFIER_LEVEL, BOOT_VERIFY, BOOT_END_RECORD, BOOT_DIRECT, BOOT_WINDOW,
BOOT_FLOAD, BOOT_WAIT, BOOT_WAIT_END, CHIME_REQUEST, CHIME_RELEASE, SYSTEM_RESET and LOGIC_STOP (R16, R125, R591 to R603). The
transforms behind BOOT_VERIFY are the standards' as the model knows them (assumption 139), and that a record completes as one
frame is its reading (assumption 102). -/
def Obligations.StartUpCommandsAnswer : Prop :=
  (∀ (s : State) (ms : Word) (xl : Option (Byte × Byte)), (s.hub.pwr.dc = true ∨ s.hub.pwr.ac = true) → s.hub.pwr.running = false →
    ∃ h : Hub, exec (.fabricStart ms xl) s = .next { s with hub := h, q := .start s.hub.refMs } ∧ h.pwr.running = true ∧ h.pwr.zeroMs = ms.toNat) ∧
  (∀ (s : State) (us : Word), s.hub.pwr.running = true → s.hub.otp.loaded = false →
    exec (.loadDone us) s = .next (s.withHub (((((s.hub.otpLoad us.toNat).toPhase 2).coreStart 0).coreStart 1).clkSync)) ∧
    (s.hub.otpLoad us.toNat).otp.loaded = true) ∧
  (∀ s : State, s.hub.pwr.running = true → ∃ h : Hub, exec .dramInitDone s = .next (s.withHub h) ∧ h.dram = [] ∧ h.dramUe = [] ∧
    4 ≤ h.phase ∧ ∀ n < 16, (h.engine n).image = {}) ∧
  (∀ s : State, s.hub.pwr.running = true → let x := stepSeven (s.hub.modPwr fun p => { p with rail := true }) s.q
    exec .amplifierLevel s = .next { s with hub := x.1, q := x.2 }) ∧
  (∀ (s : State) (i : Nat) (rest : List Nat), s.live = true → s.hub.pwr.boot.cands = some (i :: rest) → 5 ≤ s.hub.phase → s.hub.bootRun = false →
    let b := (s.hub.imageBytes i).getD []
    (signatureOk b = true → exec .bootVerify s = .next (s.withHub (s.hub.bootAccept i b))) ∧
    (signatureOk b = false → let h := (s.hub.bootRejected i 3 2 (imgVersion b)).modBoot fun s => { s with cands := some rest }
      (rest = [] → exec .bootVerify s = .next (s.withHub h.bootNone)) ∧
      (rest ≠ [] → exec .bootVerify s = .next (s.withHub h)))) ∧
  (∀ s : State, s.live = true → s.hub.bootRun = true → s.hub.pwr.boot.wait = .none → s.hub.pwr.boot.recordLen = none →
    let b := s.hub.pwr.boot
    let h := if b.has 1 = true ∧ bits (b.word 0) 15 12 = 0 then s.hub else s.hub.bootFails 1 b.pos
    let g := ((h.setFld 0x04 10 10 0).modBoot fun b => { b with body := [], pos := 0 }).toPhase 8
    exec .bootEndRecord s = .next (s.withHub
      ((g.issue 241 3 (h.fld 0x04 8 8) (g.reg (kPwr (0x15 + 2 * h.fld 0x04 8 8))) (g.reg (kPwr 0x11))).trainPoint))) ∧
  (∀ (s : State) (n : Nat), s.live = true → let b := s.hub.pwr.boot
    let h := s.hub.passRecord n
    (s.hub.atRecord 1 = some n →
      ((b.word 1 = 0 ∨ 128 < b.word 1 ∨ 0x7F < bits (b.word 0) 6 0 + b.word 1 - 1) → exec .bootDirect s = .next (s.withHub (h.bootFails 1 b.pos))) ∧
      (1 ≤ b.word 1 → b.word 1 ≤ 128 → bits (b.word 0) 6 0 + b.word 1 - 1 ≤ 0x7F →
        let a := bits (b.word 0) 6 0
        let h := if a ≤ 0x14 ∧ 0x14 < a + b.word 1 then h.modPath 2 fun b => { b with wstat := 0 } else h
        let x := bootComplete ((b.data 2 (b.word 1)).zipIdx.foldl (fun x w => bootDirectWrite x (a + w.2) w.1) { h := h, q := s.q }) true
        exec .bootDirect s = .next { s with hub := x.h.bootFails x.bad b.pos, q := x.q })) ∧
    (s.hub.atRecord 2 = some n →
      (b.word 3 = 0 → exec .bootWindow s = .next (s.withHub (h.bootFails 1 b.pos))) ∧
      (b.word 3 ≠ 0 →
        let x := bootComplete ((b.data 4 (b.word 3)).zipIdx.foldl (fun x w =>
          x.spaceWrite 2 (bits (b.word 0) 7 0) ((65536 * b.word 1 + b.word 2 + w.2) % 2 ^ 32) w.1) { h := h, q := s.q }) false
        exec .bootWindow s = .next { s with hub := x.h.bootFails x.bad b.pos, q := x.q })) ∧
    (s.hub.atRecord 3 = some n → ∀ x : NandIn,
      (s.hub.nand.busy ≠ none → exec (.bootFload x) s = .next (s.withHub (h.bootFails 1 b.pos))) ∧
      (s.hub.nand.busy = none →
        let g := ((h.setReg (kCar 0x1001) (b.word 1 % 8)).setReg (kCar 0x1002) (b.word 2 % 4096)).setReg (kCar 0x1005) (b.word 0 % 16)
        exec (.bootFload x) s = .next (s.withHub (((g.setEffN (kCar 0x1003) 2 (65536 * b.word 3 + b.word 4)).carCmd 9 x).modBoot
          fun c => { c with wait := .fload, from_ := b.pos })))) ∧
    (s.hub.atRecord 4 = some n →
      ((b.word 1 = 0 ∨ 10000 < b.word 1) → exec .bootWait s = .next (s.withHub (h.bootFails 1 b.pos))) ∧
      (1 ≤ b.word 1 → b.word 1 ≤ 10000 →
        exec .bootWait s = .next (s.withHub (h.modBoot fun c => { c with wait := .delay, from_ := b.pos })))) ∧
    (b.wait = .delay → exec .bootWaitEnd s = .next (s.withHub (s.hub.modBoot fun c => { c with wait := .none })))) ∧
  (∀ (s : State) (w : Word), s.live = true → s.hub.chimeP = true →
    (bits w.toNat 15 12 = 3 → exec (.chimeRequest w) s = .next (s.withHub
      (s.hub.modPwr fun p => { p with chime := { p.chime with req := some (bits w.toNat 1 0, 1) } }))) ∧
    (bits w.toNat 15 12 = 9 → s.hub.pwr.chime.releasing = false → exec (.chimeRelease w) s = .next (s.withHub
      (s.hub.modPwr fun p => { p with chime := { p.chime with releaseReq := true } })))) ∧
  (∀ (s : State) (xl : Option (Byte × Byte)), s.live = true → s.hub.cp.resetPending = true → s.hub.otp.roast = none →
    ∃ h : Hub, exec (.systemReset xl) s = .next { s with hub := h, q := .start s.hub.refMs } ∧ h.pwr.running = true ∧
      h.otp.words = s.hub.otp.words ∧ h.nand.objs = s.hub.nand.objs ∧ h.fld 0x04 5 4 = 1) ∧
  (∀ (s : State) (cut : RoastBad), s.hub.pwr.loss = true → exec (.logicStop cut) s = .next { s with hub := (s.hub.roastCut cut).kept, q := .start 0 })

/-- CP_NOP, CP_RD, CP_RDF, CP_WR, CP_WRF, CP_RPL, CP_INVALID_OP, FRAME_TIMEOUT and FRAME_SHORT (R94 to R102). -/
def Obligations.ControlPortFramesAnswer : Prop :=
  (∀ (s : State) (path : Fin 2) (tag : BitVec 4) (addr : Byte) (w1 crc : Word) (data : List Word), s.live = true →
    let kept := fun (op : Nat) (r : Reply) => if op = 0 ∨ op = 5 then r.h.leaseKept s.hub.owner path else r.h
    let runs := fun (i : Instr) (op : Nat) (d : List Word) =>
      let ws := reqWords op tag addr w1 d crc
      (path = 0 → s.hub.reqCheck 0 ws = 0 →
        let r := frameExec s.hub s.q 0 ws
        exec i s = .next { s with hub := (kept op r).cpSent 0 r.words, q := r.q }) ∧
      (path = 0 → (s.hub.reqCheck 0 ws = 1 ∨ s.hub.reqCheck 0 ws = 4 ∨ s.hub.reqCheck 0 ws = 5) → badCount ws = false → ws.length = reqLen ws →
        let c := s.hub.reqCheck 0 ws
        let h := s.hub.frameError 0 c (lget 0 ws 0)
        let h := if c = 1 then h else h.leaseKept h.owner 0
        exec i s = .next (s.withHub (h.cpSent 0 (h.respond s.q 0 (reqTag ws) c false [])))) ∧
      (∀ (f : TunFrom) (rest : List TunReq), path = 1 → s.hub.cp.tun.queue = { from_ := f, words := ws } :: rest →
        s.hub.cp.tun.repeats f = false →
        let h := s.hub.modTun fun t => { t with queue := rest }
        h.reqCheck 1 ws = 0 →
        let r := frameExec h s.q 1 ws
        let out := tunPayload 1 f.seq r.words
        exec i s = .next { s with q := r.q, hub := (((kept op r).cpSent 1 r.words).tunSend f out).modTun fun t =>
          { t with last := some f, lastAnswer := out } })
    runs (.cpNop path tag addr w1 crc) 0 [] ∧ runs (.cpRd path tag addr w1 crc) 1 [] ∧ runs (.cpRdf path tag addr w1 crc) 2 [] ∧
    runs (.cpWr path tag addr w1 data crc) 3 data ∧ runs (.cpWrf path tag addr w1 data crc) 4 data ∧ runs (.cpRpl path tag addr w1 crc) 5 []) ∧
  (∀ (s : State) (ws : List Word), s.live = true →
    let silent := fun (code : Nat) => Host.Outcome.next (s.withHub ((s.hub.frameError 0 code (lget 0 ws 0)).cpSent 0 []))
    (ws ≠ [] → 5 < reqOp ws → exec (.cpInvalidOp 0 ws) s = silent 2) ∧
    (2 ≤ ws.length → badCount ws = true → exec (.cpInvalidOp 0 ws) s = silent 3) ∧
    ((ws = [] ∨ reqOp ws ≤ 5) → badCount ws = false → (ws.length < 2 ∨ ws.length < reqLen ws) →
      exec (.frameTimeout ws) s = silent 9 ∧ exec (.frameShort ws) s = silent 10)) ∧
  (∀ (h : Hub) (q : EvQueue) (p : Nat) (ws : List Word), 1 ≤ reqOp ws → reqOp ws ≤ 4 →
    let x := frameRun h q p (reqOp ws) (reqAddr ws) (reqCount ws) (reqData ws)
    (frameExec h q p ws).q = x.q ∧
    (frameExec h q p ws).words = (let l := (frameExec h q p ws).h.header x.q p (reqTag ws) x.status x.cci :: x.data; l ++ [frameCrc l]))

/-- TUNNEL_DATAGRAM, TUNNEL_ATTENTION_NOTICE, OWNER_HANDOVER, OWNER_CLAIM, LEASE_EXPIRED, WINDOW_READ, WINDOW_WRITE,
REGISTER_WRITE and FABRIC_STALL (R53, R103 to R112). The headers of a sent datagram beyond its addresses and ports are free
(assumption 140), and what a stall takes is the model's reading (assumption 28). -/
def Obligations.TunnelAndOwnershipAnswer : Prop :=
  (∀ (s : State) (p : Fin 2) (b : List Byte), s.live = true → bit (s.hub.reg 0x0C) 15 = true →
    let f := s.hub.parse b
    let d := (b.drop f.pay).take f.payLen
    f.bad = none → bit (s.hub.reg (kCls 0x114)) 2 = true → s.hub.isTunnel f = true → f.declared.getD 0 ≤ b.length + 4 →
    let w0 := if 10 ≤ d.length then tunWord d 4 else 0
    let from_ := tunFrom p b f
    let waiting := s.hub.cp.tun.queue.length
    (tunWellFormed d = false → exec (.tunnelDatagram p b) s = .next (s.withHub (s.hub.frameError 1 11 w0))) ∧
    (tunWellFormed d = true → 8 ≤ waiting → exec (.tunnelDatagram p b) s = .next (s.withHub (s.hub.frameError 1 12 w0))) ∧
    (tunWellFormed d = true → waiting < 8 → s.hub.cp.tun.repeats from_ = true →
      exec (.tunnelDatagram p b) s = .next (s.withHub (s.hub.tunSend from_ s.hub.cp.tun.lastAnswer))) ∧
    (tunWellFormed d = true → waiting < 8 → s.hub.cp.tun.repeats from_ = false →
      exec (.tunnelDatagram p b) s = .next (s.withHub (s.hub.modTun fun t => { t with queue := t.queue ++
        [{ from_ := from_, words := (List.range (d.length / 2 - 4)).map fun i => tunWord d (4 + i) }] })))) ∧
  (∀ (s : State) (p : Fin 2) (b : List Byte), s.live = true →
    (bit (s.hub.reg 0x0C) 15 = false ∨ bit (s.hub.reg (kCls 0x114)) 2 = false ∨ s.hub.isTunnel (s.hub.parse b) = false) →
    exec (.tunnelDatagram p b) s = .next s) ∧
  (∀ (h : Hub) (f : TunFrom) (ws : List Word), (h.tunSend f ws).cp.tun.sentTo = some f ∧ (h.tunSend f ws).cp.tun.sent = ws) ∧
  (∀ (s : State) (f : TunFrom), s.live = true → s.hub.cp.tun.last = some f → bit (s.hub.reg 0x0C) 14 = true → s.hub.attention s.q = true →
    exec .tunnelAttentionNotice s = .next (s.withHub (s.hub.tunSend f (tunPayload 2 0 (s.hub.respond s.q 1 0 0 false []))))) ∧
  (∀ (s : State) (w0 w : Word), s.live = true → s.hub.bootRun = false → (s.hub.owner = 0 ∨ s.hub.owner = 1) →
    (∀ p, s.hub.linkStalls 3 9 p = false) →
    let h := if 60 < bits w.toNat 13 8 then s.hub else s.hub.setFld 0x09 13 8 (bits w.toNat 13 8)
    (w.toNat % 2 ≠ s.hub.owner → exec (.ownerHandover w0 w) s = .next (s.withHub
      (((h.setFld 0x09 0 0 (w.toNat % 2)).issue 244 1 (w.toNat % 2) 1 (h.fld 0x09 13 8)).setFld 0x09 1 1 0))) ∧
    (w.toNat % 2 = s.hub.owner → exec (.ownerHandover w0 w) s = .next (s.withHub (h.setFld 0x09 1 1 0))) ∧
    (s.hub.expired = true → w.toNat % 2 = 1 - s.hub.owner → exec (.ownerClaim w0 w) s = .next (s.withHub
      (((h.setFld 0x09 1 1 0).setFld 0x09 0 0 (1 - s.hub.owner)).issue 244 1 (1 - s.hub.owner) 2 ((h.setFld 0x09 1 1 0).fld 0x09 13 8)))) ∧
    (s.hub.expired = false → exec (.ownerClaim w0 w) s = .next (s.withHub (s.hub.frameError (1 - s.hub.owner) 5 w0)))) ∧
  (∀ s : State, s.live = true → s.hub.fld 0x09 13 8 ≠ 0 → s.hub.expired = false → exec .leaseExpired s = .next (s.withHub
    ((s.hub.setFld 0x09 1 1 1).issue 244 2 s.hub.owner (s.hub.fld 0x09 13 8) 0))) ∧
  (∀ (s : State) (p : Fin 2) (ecc : Ecc), s.live = true →
    let h := s.hub.modPath p fun b => { b with wstat := 0 }
    let r := h.busRead s.q p (s.hub.path p).wspace.toNat (s.hub.path p).waddr.toNat ecc
    s.hub.cp.stalls = [] → (s.hub.path p).wspace ≠ 0 →
    (r.1.cp.fail = none → exec (.windowRead p ecc) s =
      .next (s.withHub (((r.1.modPath p CpPath.advance).leaseKept s.hub.owner p).cpSent p [BitVec.ofNat 16 r.2]))) ∧
    (∀ c off, r.1.cp.fail = some (c, off) → (r.1.path p).wstat = 0 → ∃ t, exec (.windowRead p ecc) s = .next (s.withHub t) ∧
      (t.path p).wstat = BitVec.ofNat 3 c ∧ (t.path p).wfail = BitVec.ofNat 32 off ∧
      (t.path p).waddr = ((r.1.path p).advance).waddr ∧ (t.path p).sent = [BitVec.ofNat 16 r.2])) ∧
  (∀ (s : State) (p : Fin 2) (w0 w : Word), s.live = true →
    let h := s.hub.modPath p fun b => { b with wstat := 0 }
    let sp := (s.hub.path p).wspace.toNat
    let o := (s.hub.path p).waddr.toNat
    s.hub.cp.stalls = [] → sp ≠ 0 → s.hub.mayWrite p 0x14 w.toNat = true →
    (actsNow sp o = false → let r := (h.modPath p CpPath.advance).busWrite sp o w.toNat
      r.1.cp.fail = none → exec (.windowWrite p w0 w) s = .next (s.withHub (r.1.leaseKept s.hub.owner p))) ∧
    (actsNow sp o = true → let r := h.busWrite sp o w.toNat
      r.1.cp.fail = none → exec (.windowWrite p w0 w) s =
        .next (s.withHub ((r.1.modPath p CpPath.advance).leaseKept s.hub.owner p)))) ∧
  (∀ (s : State) (p : Fin 2) (w0 w : Word), s.live = true → s.hub.mayWrite p 0x14 w.toNat = false →
    exec (.windowWrite p w0 w) s = .next (s.withHub ((s.hub.frameError p 5 w0).leaseKept s.hub.owner p))) ∧
  (∀ (s : State) (sp : Byte) (o : BitVec 32) (w : Word), s.live = true → s.hub.cp.stalls = [] → sp ≠ 0 →
    let r := s.hub.busWrite sp.toNat o.toNat w.toNat
    r.1.cp.fail = none → exec (.registerWrite sp o w) s = .next (s.withHub (r.1.leaseKept s.hub.owner s.hub.owner))) ∧
  (∀ (s : State) (link requester : Word), s.live = true → let kind := link.toNat / 4096
    (1 ≤ kind ∧ kind ≤ 8 ∨ kind = 15) →
    let h := ((s.hub.addSat (spc 0x3F 0x122) 2 1).setReg (spc 0x3F 0x124) link.toNat).setFlag (spc 0x3F 0x121)
    exec (.fabricStall link requester) s = .next (s.withHub
      ((h.issueLimited link.toNat 242 1 link.toNat requester.toNat (h.fld (spc 0x3F 0x120) 7 0)).stallEffect kind (link.toNat % 4096) requester.toNat)))

/-- Conditional clear (R119): the register after a write, the CCI bit of the header of the frame that made it, over every
write of a frame, and the command CONDITIONAL_CLEAR. -/
def Obligations.ConditionalClears : Prop :=
  (∀ (h : Hub) (sp o w : Nat) (r : RegRow), w < 65536 → findRow (regRows sp) o = some r → r.acc = .cc →
    (sp = 0 ∨ spaceKnown sp = true) → ¬ (sp = 0x0C ∧ o < 0x40000000) →
    (16 ≤ sp → sp < 32 → 0x40000 ≤ o ∧ h.reserved (sp - 16) = false) →
    let clears := bit w 15 = true ∧ bit (h.reg (spc sp o)) 15 = true ∧ w % 16 = h.reg (spc sp o) % 16
    (clears → h.busWrite sp o w = (h.setReg (spc sp o) (h.reg (spc sp o) % 16), false) ∧
      bit ((h.busWrite sp o w).1.reg (spc sp o)) 15 = false ∧
      (h.busWrite sp o w).1.reg (spc sp o) % 16 = h.reg (spc sp o) % 16) ∧
    (¬ clears → h.busWrite sp o w = (h, bit w 15))) ∧
  (∀ (h : Hub) (q : EvQueue) (p tag status : Nat) (cci : Bool), bit (h.header q p tag status cci).toNat 3 = cci) ∧
  (∀ (x : Xfer) (p a w : Nat) (r : RegRow), findRow (regRows 0) a = some r → r.acc = .cc → x.h.linkStalls 3 a p = false →
    a ≠ 0x09 → a ≠ 0x19 → a ≠ 0x1E → ¬ (0x10 ≤ a ∧ a < 0x18) →
    (x.write p a w).cci = (x.cci || (x.h.busWrite 0 a w).2)) ∧
  (∀ (x : Xfer) (p w : Nat), x.h.linkStalls 3 0x14 p = false → x.h.linkStalls 2 (x.h.path p).wspace.toNat p = false →
    (x.h.path p).wspace ≠ 0 →
    (x.write p 0x14 w).cci = (x.cci || (x.h.busWrite (x.h.path p).wspace.toNat (x.h.path p).waddr.toNat w).2)) ∧
  (∀ (s : State) (sp : Byte) (o : BitVec 32) (w : Word) (r : RegRow), s.live = true → findRow (regRows sp.toNat) o.toNat = some r → r.acc = .cc →
    s.hub.cp.stalls = [] → sp ≠ 0 →
    let x := s.hub.busWrite sp.toNat o.toNat w.toNat
    ∃ h : Hub, exec (.conditionalClear sp o w) s = .next (s.withHub h) ∧ h.regs = (x.1.setFld 0x09 1 1 0).regs ∧
      ∃ hd rest, (h.path s.hub.owner).sent = hd :: rest ∧ bit hd.toNat 3 = x.2)

/-- EVENT_ENTRY, EVENT_RELEASE, ATTENTION_EVALUATION, RATE_LIMIT_WINDOW_END and HWM_RESET, and the issuing of records (R131 to R147).
The domain whose ticks a window counts is the model's reading (assumption 133). -/
def Obligations.EventCommandsAnswer : Prop :=
  (∀ (h : Hub) (src code d0 d1 d2 : Nat), src < 256 →
    (bit (h.reg (evCfg src)) 2 = true → (h.issue src code d0 d1 d2).ev = h.ev) ∧
    (bit (h.reg (evCfg src)) 2 = false →
      tget (fun _ => (0 : Word)) (h.issue src code d0 d1 d2).ev.seq src = tget (fun _ => 0) h.ev.seq src + 1 ∧
      ∃ r : EvRecord, (h.issue src code d0 d1 d2).ev.inflight = h.ev.inflight ++ [r] ∧ r.src = BitVec.ofNat 8 src ∧
        r.seq = tget (fun _ => 0) h.ev.seq src ∧ r.code = BitVec.ofNat 16 code ∧ r.stamp = h.clk.doms.e0.tick ∧
        r.data0 = BitVec.ofNat 16 d0 ∧ r.data1 = BitVec.ofNat 16 d1 ∧ r.data2 = BitVec.ofNat 16 d2)) ∧
  (∀ (s : State) (src : Byte) (r : EvRecord) (rest : List EvRecord), s.live = true → takeFirst src.toNat s.hub.ev.inflight = some (r, rest) → r.src = src →
    let h := { s.hub with ev := { s.hub.ev with inflight := rest } }
    let lost := tget (fun _ => 0) s.hub.ev.pendLoss src.toNat
    (s.q.entries.length < 1024 → exec (.eventEntry src) s = .next { s with
      hub := { h with ev := { h.ev with pendLoss := tput (fun _ => 0) h.ev.pendLoss src.toNat 0 } },
      q := { s.q with entries := s.q.entries ++ [{ record := { r with lostF := decide (0 < lost), lostN := BitVec.ofNat 4 (min 15 lost) },
                                                   entered := s.hub.refMs }],
                      tail := s.q.tail + 1, hwm := max s.q.hwm (s.q.entries.length + 1) } }) ∧
    (1024 ≤ s.q.entries.length → ∃ (h' : Hub) (q' : EvQueue), exec (.eventEntry src) s = .next { s with hub := h', q := q' } ∧
      h'.ev.inflight = rest ∧ tget (fun _ => 0) h'.ev.pendLoss src.toNat = lost + 1 ∧ h'.flag 0x1F = true ∧
      q'.entries = s.q.entries ∧ q'.tail = s.q.tail ∧ q'.head = s.q.head ∧
      ∃ e, q'.episode = some e ∧ src.toNat ∈ e.sources ∧ e.dropped = (match s.q.episode with | some e => e.dropped + 1 | none => 1))) ∧
  (∀ (s : State) (w : Word), s.live = true → let n := (w - s.q.head).toNat
    (n = 0 → exec (.eventRelease w) s = .next { s with q := { s.q with head := w } }) ∧
    (1 ≤ n → n ≤ s.q.entries.length → s.q.episode = none →
      exec (.eventRelease w) s = .next { s with q := { s.q with entries := s.q.entries.drop n, head := w } }) ∧
    (1 ≤ n → n ≤ s.q.entries.length → s.q.entries.length ≤ 1024 → s.q.episode ≠ none → bit (s.hub.reg (evCfg 240)) 2 = false →
      ∃ (h : Hub) (x : Waiting), exec (.eventRelease w) s = .next { s with hub := h, q := { s.q with
        entries := s.q.entries.drop n ++ [x], head := w, tail := s.q.tail + 1, episode := none,
        hwm := max s.q.hwm (s.q.entries.length - n + 1) } } ∧ x.record.src = 240 ∧ x.record.code = 1) ∧
    (s.q.entries.length < n → exec (.eventRelease w) s = .next (s.withHub (s.hub.setFlag (spc 0x02 0x2600))))) ∧
  (∀ s : State, s.live = true → exec .attentionEvaluation s =
      .next (s.withHub ({ s.hub with refMs := s.hub.refMs + 1, ev := s.hub.ev.countMs fun d => (s.hub.dom d).run } : Hub).ptpMs.sentAll) ∧
    exec .hwmReset s = .next { s with q := { s.q with hwm := s.q.entries.length } }) ∧
  (∀ (s : State) (src : Byte) (code : Word) (sub : Nat), s.live = true → exec (.rateLimitWindowEnd src code sub) s = .next (s.withHub
    { s.hub with ev := { s.hub.ev with windows := s.hub.ev.windows.filter fun w =>
      !(w.is sub src.toNat code.toNat && s.hub.windowOver w) } })) ∧
  (∀ (h : Hub) (sub src code w : Nat), src < 256 → bit (h.reg (evCfg src)) 2 = false →
    (h.windowOpen sub src code = false →
      (h.issueLimited sub src code w 0 0).windowOpen sub src code = true ∧
      (h.issueLimited sub src code w 0 0).ev.inflight.length = h.ev.inflight.length + 1) ∧
    (h.windowOpen sub src code = true → (h.issueLimited sub src code w 0 0).ev = h.ev)) ∧
  (∀ (h : Hub) (w : RateWindow), (∀ d, w.dom = some d → w.src ≠ 242 → (h.windowOver w = true ↔ 1000 ≤ w.ticks + 48 * w.ms)) ∧
    (∀ d, w.dom = some d → w.src = 242 → (h.windowOver w = true ↔ 1000 ≤ w.ticks + 50 * w.ms)))

/-- `step` runs the front command, and every command completes; before the fabric runs and after the logic has stopped only the
supply acts (R24, R591, R603); the idle step is the model's own (assumption 1). What may act before the fabric runs is the
model's reading of R24 (assumption 132). -/
def Obligations.StepRunsTheFrontCommand : Prop :=
  (∀ (c : Instr) (rest : List Instr) (s : State), step { s with pending := c :: rest } = exec c { s with pending := rest }) ∧
  (∀ (c : Instr) (s : State), ∃ t, exec c s = .next t ∧ t.pending = s.pending) ∧
  (∀ (c : Instr) (s : State), s.live = false → supplyActs c = false → exec c s = .next s) ∧
  (∀ s : State, s.pending = [] → step s = .next s)

/-- What reset leaves of the event queue (R132, R141, R147). That State.reset holds the started queue is the model's reading
(assumption 113). -/
def Obligations.ResetLeavesTheQueueStarted : Prop :=
  State.reset.Sound ∧ State.reset.Idle ∧ State.reset.q.fill = 1 ∧ State.reset.q.head = 0 ∧ State.reset.q.tail = 1 ∧ State.reset.q.hwm = 1 ∧
  State.reset.q.recordWord 0 = 0xA0F0 ∧ State.reset.q.recordWord 1 = 0 ∧
  State.reset.hub.reg 0x1B = 0xA040 ∧ State.reset.hub.reg 0x1C = 10 ∧ State.reset.hub.reg 0x1F = 0 ∧
  (∀ s : Nat, s < 256 → State.reset.hub.reg (evCfg s) =
    (if s ≤ 15 ∨ (96 ≤ s ∧ s ≤ 111) ∨ (120 ≤ s ∧ s ≤ 159) ∨ (216 ≤ s ∧ s ≤ 223) ∨ (240 ≤ s ∧ s ≤ 255) then 2
     else if 224 ≤ s ∧ s ≤ 239 then 3 else 1)) ∧
  State.reset.hub.attention State.reset.q = true

/-- `State.Sound` is an invariant of every step (R139, R143, R144, R147). -/
def Obligations.EveryStepKeepsTheQueueSound : Prop :=
  ∀ s t : State, s.Sound → step s = .next t → t.Sound

/-- The event queue is a queue (R136, R138, R139). -/
def Obligations.TheEventQueueIsFirstInFirstOut : Prop :=
  ∀ (c : Instr) (s t : State), s.Sound → restartsQueue c = false → exec c s = .next t →
    (∃ l n, s.q.Leads t.q l n) ∧ (movesQueue c = false → t.q = s.q)
end

