-- ==== Sys2Proof/Laws/Tables.lean ====
section
/-! SUPPORT. Tables.lean: what a read of a table or of a fixed number of things answers after a write, and that tables
keep their canonical form. -/

namespace Sys2Proof.Machine

variable {α : Type}

@[simp] theorem tget_nil (d : Nat → α) (k : Nat) : tget d [] k = d k := rfl

theorem tget_cons (d : Nat → α) (e : Nat × α) (t : Tbl α) (k : Nat) :
    tget d (e :: t) k = if k = e.1 then e.2 else tget d t k := rfl

/-- A read of the number written answers the value written. -/
@[simp] theorem tget_tput_same [DecidableEq α] (d : Nat → α) (t : Tbl α) (k : Nat) (v : α) :
    tget d (tput d t k v) k = v := by
  induction t with
  | nil => by_cases h : v = d k <;> simp [tput, h, tget_cons]
  | cons e t ih =>
    by_cases h1 : k = e.1
    · by_cases h2 : v = d k
      · simpa [tput, h1, h2] using (by simpa [h1, h2] using ih)
      · have h2' : ¬ v = d e.1 := by simpa [← h1] using h2
        simp [tput, h1, h2', tget_cons]
    · by_cases h3 : k < e.1 ∧ v ≠ d k
      · simp [tput, h1, h3, tget_cons]
      · simp [tput, h1, h3, tget_cons, ih]

/-- A read of another number answers what it answered before. -/
theorem tget_tput_other [DecidableEq α] (d : Nat → α) (t : Tbl α) {k j : Nat} (v : α) (hj : j ≠ k) :
    tget d (tput d t k v) j = tget d t j := by
  induction t with
  | nil => by_cases h : v = d k <;> simp [tput, h, tget_cons, hj]
  | cons e t ih =>
    by_cases h1 : k = e.1
    · have hje : j ≠ e.1 := by rw [← h1]; exact hj
      by_cases h2 : v = d k <;> simp [tput, ← h1, h2, tget_cons, hj] at ih ⊢
      · exact ih
    · by_cases h3 : k < e.1 ∧ v ≠ d k
      · simp [tput, h1, h3, tget_cons, hj]
      · by_cases h4 : j = e.1 <;> simp [tput, h1, h3, tget_cons, h4, ih]

theorem tget_tput [DecidableEq α] (d : Nat → α) (t : Tbl α) (k j : Nat) (v : α) :
    tget d (tput d t k v) j = if j = k then v else tget d t j := by
  split
  · next h => subst h; simp
  · next h => exact tget_tput_other d t v h

/-- What a table lists after a write: the number written with another value than it reads as unlisted, and entries
that were listed. -/
theorem mem_tput [DecidableEq α] (d : Nat → α) (t : Tbl α) (k : Nat) (v : α) {e : Nat × α} (he : e ∈ tput d t k v) :
    (e = (k, v) ∧ v ≠ d k) ∨ e ∈ t := by
  induction t with
  | nil =>
    by_cases h : v = d k
    · simp [tput, h] at he
    · simp only [tput, h, if_false, List.mem_singleton] at he
      exact .inl ⟨he, h⟩
  | cons x t ih =>
    by_cases h1 : k = x.1
    · by_cases h2 : v = d k
      · rw [tput, if_pos h1, if_pos h2] at he
        rcases ih he with h | h
        · exact .inl h
        · exact .inr (List.mem_cons_of_mem _ h)
      · rw [tput, if_pos h1, if_neg h2] at he
        rcases List.mem_cons.1 he with h | h
        · exact .inl ⟨h, h2⟩
        · exact .inr (List.mem_cons_of_mem _ h)
    · by_cases h3 : k < x.1 ∧ v ≠ d k
      · rw [tput, if_neg h1, if_pos h3] at he
        rcases List.mem_cons.1 he with h | h
        · exact .inl ⟨h, h3.2⟩
        · exact .inr h
      · rw [tput, if_neg h1, if_neg h3] at he
        rcases List.mem_cons.1 he with h | h
        · exact .inr (by simp [h])
        · rcases ih h with h | h
          · exact .inl h
          · exact .inr (List.mem_cons_of_mem _ h)

/-- A write keeps the canonical form. -/
theorem twf_tput [DecidableEq α] (d : Nat → α) (t : Tbl α) (k : Nat) (v : α) (ht : twf d t) : twf d (tput d t k v) := by
  induction t with
  | nil => by_cases h : v = d k <;> simp [tput, h, twf]
  | cons x t ih =>
    obtain ⟨ho, hd⟩ := ht
    obtain ⟨hx, ho'⟩ := List.pairwise_cons.1 ho
    have ht' : twf d t := ⟨ho', fun e he => hd e (List.mem_cons_of_mem _ he)⟩
    have hxd : x.2 ≠ d x.1 := hd x (by simp)
    by_cases h1 : k = x.1
    · by_cases h2 : v = d k
      · rw [tput, if_pos h1, if_pos h2]; exact ih ht'
      · rw [tput, if_pos h1, if_neg h2]
        refine ⟨List.pairwise_cons.2 ⟨fun e he => by simpa [h1] using hx e he, ho'⟩, fun e he => ?_⟩
        rcases List.mem_cons.1 he with h | h
        · simpa [h] using h2
        · exact ht'.2 e h
    · by_cases h3 : k < x.1 ∧ v ≠ d k
      · rw [tput, if_neg h1, if_pos h3]
        refine ⟨List.pairwise_cons.2 ⟨fun e he => ?_, ho⟩, fun e he => ?_⟩
        · rcases List.mem_cons.1 he with h | h
          · simpa [h] using h3.1
          · exact lt_trans h3.1 (hx e h)
        · rcases List.mem_cons.1 he with h | h
          · simpa [h] using h3.2
          · exact hd e h
      · rw [tput, if_neg h1, if_neg h3]
        obtain ⟨io, id'⟩ := ih ht'
        refine ⟨List.pairwise_cons.2 ⟨fun e he => ?_, io⟩, fun e he => ?_⟩
        · rcases mem_tput d t k v he with h | h
          · have : v ≠ d k := h.2
            have hk : ¬ k < x.1 := fun hk => h3 ⟨hk, this⟩
            have : e.1 = k := by rw [h.1]
            omega
          · exact hx e h
        · rcases List.mem_cons.1 he with h | h
          · simpa [h] using hxd
          · exact id' e h

theorem tmapv_mem [DecidableEq α] (d : Nat → α) (f : α → α) (t : Tbl α) {e : Nat × α} (he : e ∈ tmapv d f t) :
    ∃ x ∈ t, e = (x.1, f x.2) ∧ f x.2 ≠ d x.1 := by
  obtain ⟨x, hx, hf⟩ := List.mem_filterMap.1 he
  by_cases h : f x.2 = d x.1
  · simp [h] at hf
  · exact ⟨x, hx, by simpa [h] using hf.symm, h⟩

/-- Changing every value keeps the canonical form. -/
theorem twf_tmapv [DecidableEq α] (d : Nat → α) (f : α → α) (t : Tbl α) (ht : twf d t) : twf d (tmapv d f t) := by
  refine ⟨?_, fun e he => ?_⟩
  · refine List.Pairwise.filterMap _ (fun a b hab x hx y hy => ?_) ht.1
    by_cases ha : f a.2 = d a.1
    · simp [ha] at hx
    · by_cases hb : f b.2 = d b.1
      · simp [hb] at hy
      · simp only [ha, if_false, Option.some.injEq] at hx
        simp only [hb, if_false, Option.some.injEq] at hy
        rw [← hx, ← hy]; exact hab
  · obtain ⟨x, -, rfl, h⟩ := tmapv_mem d f t he
    exact h

/-! ### Fixed numbers of like things -/

theorem Two.get_mod (d : α) (t : Two α) (f : α → α) {i : Nat} (hi : i < 2) (j : Nat) :
    (t.mod i f).get d j = if j = i then f (t.get d j) else t.get d j := by
  match i, hi, j with
  | 0, _, 0 | 0, _, 1 | 0, _, _ + 2 | 1, _, 0 | 1, _, 1 | 1, _, _ + 2 => rfl

theorem Four.get_mod (d : α) (t : Four α) (f : α → α) {i : Nat} (hi : i < 4) (j : Nat) :
    (t.mod i f).get d j = if j = i then f (t.get d j) else t.get d j := by
  match i, hi, j with
  | 0, _, 0 | 0, _, 1 | 0, _, 2 | 0, _, 3 | 0, _, _ + 4 => rfl
  | 1, _, 0 | 1, _, 1 | 1, _, 2 | 1, _, 3 | 1, _, _ + 4 => rfl
  | 2, _, 0 | 2, _, 1 | 2, _, 2 | 2, _, 3 | 2, _, _ + 4 => rfl
  | 3, _, 0 | 3, _, 1 | 3, _, 2 | 3, _, 3 | 3, _, _ + 4 => rfl

theorem Eight.get_mod (d : α) (t : Eight α) (f : α → α) {i : Nat} (hi : i < 8) (j : Nat) :
    (t.mod i f).get d j = if j = i then f (t.get d j) else t.get d j := by
  by_cases hj : j < 8
  · interval_cases i <;> interval_cases j <;> rfl
  · obtain ⟨m, rfl⟩ := Nat.exists_eq_add_of_le (Nat.le_of_not_lt hj)
    have hm : 8 + m = m + 8 := Nat.add_comm 8 m
    rw [if_neg (by omega), hm]
    interval_cases i <;> rfl

end Sys2Proof.Machine
end

