-- ==== Sys2Proof/Laws/State.lean ====
section
/-! SUPPORT. State.lean: what each update of the hub leaves as it is, one lemma per field, and what a register reads after
a write. -/

namespace Sys2Proof.Machine

/-! ### A register word stored -/

@[simp] theorem Hub.setReg_force (h : Hub) (k n : Nat) : (h.setReg k n).force = h.force := rfl
@[simp] theorem Hub.setReg_stage (h : Hub) (k n : Nat) : (h.setReg k n).stage = h.stage := rfl
@[simp] theorem Hub.setReg_snap (h : Hub) (k n : Nat) : (h.setReg k n).snap = h.snap := rfl
@[simp] theorem Hub.setReg_refMs (h : Hub) (k n : Nat) : (h.setReg k n).refMs = h.refMs := rfl
@[simp] theorem Hub.setReg_free (h : Hub) (k n : Nat) : (h.setReg k n).free = h.free := rfl
@[simp] theorem Hub.setReg_ev (h : Hub) (k n : Nat) : (h.setReg k n).ev = h.ev := rfl
@[simp] theorem Hub.setReg_engs (h : Hub) (k n : Nat) : (h.setReg k n).engs = h.engs := rfl
@[simp] theorem Hub.setReg_farRr (h : Hub) (k n : Nat) : (h.setReg k n).farRr = h.farRr := rfl
@[simp] theorem Hub.setReg_clu (h : Hub) (k n : Nat) : (h.setReg k n).clu = h.clu := rfl
@[simp] theorem Hub.setReg_asc (h : Hub) (k n : Nat) : (h.setReg k n).asc = h.asc := rfl
@[simp] theorem Hub.setReg_sub (h : Hub) (k n : Nat) : (h.setReg k n).sub = h.sub := rfl
@[simp] theorem Hub.setReg_dram (h : Hub) (k n : Nat) : (h.setReg k n).dram = h.dram := rfl
@[simp] theorem Hub.setReg_dramUe (h : Hub) (k n : Nat) : (h.setReg k n).dramUe = h.dramUe := rfl
@[simp] theorem Hub.setReg_clk (h : Hub) (k n : Nat) : (h.setReg k n).clk = h.clk := rfl
@[simp] theorem Hub.setReg_cp (h : Hub) (k n : Nat) : (h.setReg k n).cp = h.cp := rfl
@[simp] theorem Hub.setReg_net (h : Hub) (k n : Nat) : (h.setReg k n).net = h.net := rfl
@[simp] theorem Hub.setReg_aesIn (h : Hub) (k n : Nat) : (h.setReg k n).aesIn = h.aesIn := rfl
@[simp] theorem Hub.setReg_aesOut (h : Hub) (k n : Nat) : (h.setReg k n).aesOut = h.aesOut := rfl
@[simp] theorem Hub.setReg_aio (h : Hub) (k n : Nat) : (h.setReg k n).aio = h.aio := rfl
@[simp] theorem Hub.setReg_bus (h : Hub) (k n : Nat) : (h.setReg k n).bus = h.bus := rfl
@[simp] theorem Hub.setReg_rtm (h : Hub) (k n : Nat) : (h.setReg k n).rtm = h.rtm := rfl
@[simp] theorem Hub.setReg_cal (h : Hub) (k n : Nat) : (h.setReg k n).cal = h.cal := rfl
@[simp] theorem Hub.setReg_cap (h : Hub) (k n : Nat) : (h.setReg k n).cap = h.cap := rfl
@[simp] theorem Hub.setReg_scr (h : Hub) (k n : Nat) : (h.setReg k n).scr = h.scr := rfl
@[simp] theorem Hub.setReg_nand (h : Hub) (k n : Nat) : (h.setReg k n).nand = h.nand := rfl
@[simp] theorem Hub.setReg_rcd (h : Hub) (k n : Nat) : (h.setReg k n).rcd = h.rcd := rfl
@[simp] theorem Hub.setReg_tel (h : Hub) (k n : Nat) : (h.setReg k n).tel = h.tel := rfl
@[simp] theorem Hub.setReg_otp (h : Hub) (k n : Nat) : (h.setReg k n).otp = h.otp := rfl
@[simp] theorem Hub.setReg_pwr (h : Hub) (k n : Nat) : (h.setReg k n).pwr = h.pwr := rfl

/-! ### A free value taken -/

@[simp] theorem Hub.tookFree_regs (h : Hub) : (h.tookFree).regs = h.regs := rfl
@[simp] theorem Hub.tookFree_force (h : Hub) : (h.tookFree).force = h.force := rfl
@[simp] theorem Hub.tookFree_stage (h : Hub) : (h.tookFree).stage = h.stage := rfl
@[simp] theorem Hub.tookFree_snap (h : Hub) : (h.tookFree).snap = h.snap := rfl
@[simp] theorem Hub.tookFree_refMs (h : Hub) : (h.tookFree).refMs = h.refMs := rfl
@[simp] theorem Hub.tookFree_ev (h : Hub) : (h.tookFree).ev = h.ev := rfl
@[simp] theorem Hub.tookFree_engs (h : Hub) : (h.tookFree).engs = h.engs := rfl
@[simp] theorem Hub.tookFree_farRr (h : Hub) : (h.tookFree).farRr = h.farRr := rfl
@[simp] theorem Hub.tookFree_clu (h : Hub) : (h.tookFree).clu = h.clu := rfl
@[simp] theorem Hub.tookFree_asc (h : Hub) : (h.tookFree).asc = h.asc := rfl
@[simp] theorem Hub.tookFree_sub (h : Hub) : (h.tookFree).sub = h.sub := rfl
@[simp] theorem Hub.tookFree_dram (h : Hub) : (h.tookFree).dram = h.dram := rfl
@[simp] theorem Hub.tookFree_dramUe (h : Hub) : (h.tookFree).dramUe = h.dramUe := rfl
@[simp] theorem Hub.tookFree_clk (h : Hub) : (h.tookFree).clk = h.clk := rfl
@[simp] theorem Hub.tookFree_cp (h : Hub) : (h.tookFree).cp = h.cp := rfl
@[simp] theorem Hub.tookFree_net (h : Hub) : (h.tookFree).net = h.net := rfl
@[simp] theorem Hub.tookFree_aesIn (h : Hub) : (h.tookFree).aesIn = h.aesIn := rfl
@[simp] theorem Hub.tookFree_aesOut (h : Hub) : (h.tookFree).aesOut = h.aesOut := rfl
@[simp] theorem Hub.tookFree_aio (h : Hub) : (h.tookFree).aio = h.aio := rfl
@[simp] theorem Hub.tookFree_bus (h : Hub) : (h.tookFree).bus = h.bus := rfl
@[simp] theorem Hub.tookFree_rtm (h : Hub) : (h.tookFree).rtm = h.rtm := rfl
@[simp] theorem Hub.tookFree_cal (h : Hub) : (h.tookFree).cal = h.cal := rfl
@[simp] theorem Hub.tookFree_cap (h : Hub) : (h.tookFree).cap = h.cap := rfl
@[simp] theorem Hub.tookFree_scr (h : Hub) : (h.tookFree).scr = h.scr := rfl
@[simp] theorem Hub.tookFree_nand (h : Hub) : (h.tookFree).nand = h.nand := rfl
@[simp] theorem Hub.tookFree_rcd (h : Hub) : (h.tookFree).rcd = h.rcd := rfl
@[simp] theorem Hub.tookFree_tel (h : Hub) : (h.tookFree).tel = h.tel := rfl
@[simp] theorem Hub.tookFree_otp (h : Hub) : (h.tookFree).otp = h.otp := rfl
@[simp] theorem Hub.tookFree_pwr (h : Hub) : (h.tookFree).pwr = h.pwr := rfl

/-! ### An engine changed -/

@[simp] theorem Hub.setEng_regs (h : Hub) (n : Nat) (e : Engine) : (h.setEng n e).regs = h.regs := rfl
@[simp] theorem Hub.setEng_force (h : Hub) (n : Nat) (e : Engine) : (h.setEng n e).force = h.force := rfl
@[simp] theorem Hub.setEng_stage (h : Hub) (n : Nat) (e : Engine) : (h.setEng n e).stage = h.stage := rfl
@[simp] theorem Hub.setEng_snap (h : Hub) (n : Nat) (e : Engine) : (h.setEng n e).snap = h.snap := rfl
@[simp] theorem Hub.setEng_refMs (h : Hub) (n : Nat) (e : Engine) : (h.setEng n e).refMs = h.refMs := rfl
@[simp] theorem Hub.setEng_free (h : Hub) (n : Nat) (e : Engine) : (h.setEng n e).free = h.free := rfl
@[simp] theorem Hub.setEng_ev (h : Hub) (n : Nat) (e : Engine) : (h.setEng n e).ev = h.ev := rfl
@[simp] theorem Hub.setEng_farRr (h : Hub) (n : Nat) (e : Engine) : (h.setEng n e).farRr = h.farRr := rfl
@[simp] theorem Hub.setEng_clu (h : Hub) (n : Nat) (e : Engine) : (h.setEng n e).clu = h.clu := rfl
@[simp] theorem Hub.setEng_asc (h : Hub) (n : Nat) (e : Engine) : (h.setEng n e).asc = h.asc := rfl
@[simp] theorem Hub.setEng_sub (h : Hub) (n : Nat) (e : Engine) : (h.setEng n e).sub = h.sub := rfl
@[simp] theorem Hub.setEng_dram (h : Hub) (n : Nat) (e : Engine) : (h.setEng n e).dram = h.dram := rfl
@[simp] theorem Hub.setEng_dramUe (h : Hub) (n : Nat) (e : Engine) : (h.setEng n e).dramUe = h.dramUe := rfl
@[simp] theorem Hub.setEng_clk (h : Hub) (n : Nat) (e : Engine) : (h.setEng n e).clk = h.clk := rfl
@[simp] theorem Hub.setEng_cp (h : Hub) (n : Nat) (e : Engine) : (h.setEng n e).cp = h.cp := rfl
@[simp] theorem Hub.setEng_net (h : Hub) (n : Nat) (e : Engine) : (h.setEng n e).net = h.net := rfl
@[simp] theorem Hub.setEng_aesIn (h : Hub) (n : Nat) (e : Engine) : (h.setEng n e).aesIn = h.aesIn := rfl
@[simp] theorem Hub.setEng_aesOut (h : Hub) (n : Nat) (e : Engine) : (h.setEng n e).aesOut = h.aesOut := rfl
@[simp] theorem Hub.setEng_aio (h : Hub) (n : Nat) (e : Engine) : (h.setEng n e).aio = h.aio := rfl
@[simp] theorem Hub.setEng_bus (h : Hub) (n : Nat) (e : Engine) : (h.setEng n e).bus = h.bus := rfl
@[simp] theorem Hub.setEng_rtm (h : Hub) (n : Nat) (e : Engine) : (h.setEng n e).rtm = h.rtm := rfl
@[simp] theorem Hub.setEng_cal (h : Hub) (n : Nat) (e : Engine) : (h.setEng n e).cal = h.cal := rfl
@[simp] theorem Hub.setEng_cap (h : Hub) (n : Nat) (e : Engine) : (h.setEng n e).cap = h.cap := rfl
@[simp] theorem Hub.setEng_scr (h : Hub) (n : Nat) (e : Engine) : (h.setEng n e).scr = h.scr := rfl
@[simp] theorem Hub.setEng_nand (h : Hub) (n : Nat) (e : Engine) : (h.setEng n e).nand = h.nand := rfl
@[simp] theorem Hub.setEng_rcd (h : Hub) (n : Nat) (e : Engine) : (h.setEng n e).rcd = h.rcd := rfl
@[simp] theorem Hub.setEng_tel (h : Hub) (n : Nat) (e : Engine) : (h.setEng n e).tel = h.tel := rfl
@[simp] theorem Hub.setEng_otp (h : Hub) (n : Nat) (e : Engine) : (h.setEng n e).otp = h.otp := rfl
@[simp] theorem Hub.setEng_pwr (h : Hub) (n : Nat) (e : Engine) : (h.setEng n e).pwr = h.pwr := rfl

@[simp] theorem Hub.modCore_regs (h : Hub) (c : Nat) (f : ClkCore → ClkCore) : (h.modCore c f).regs = h.regs := rfl
@[simp] theorem Hub.modCore_force (h : Hub) (c : Nat) (f : ClkCore → ClkCore) : (h.modCore c f).force = h.force := rfl
@[simp] theorem Hub.modCore_ev (h : Hub) (c : Nat) (f : ClkCore → ClkCore) : (h.modCore c f).ev = h.ev := rfl
@[simp] theorem Hub.modCore_engs (h : Hub) (c : Nat) (f : ClkCore → ClkCore) : (h.modCore c f).engs = h.engs := rfl
@[simp] theorem Hub.modCore_clu (h : Hub) (c : Nat) (f : ClkCore → ClkCore) : (h.modCore c f).clu = h.clu := rfl
@[simp] theorem Hub.modCore_cp (h : Hub) (c : Nat) (f : ClkCore → ClkCore) : (h.modCore c f).cp = h.cp := rfl
@[simp] theorem Hub.modCore_net (h : Hub) (c : Nat) (f : ClkCore → ClkCore) : (h.modCore c f).net = h.net := rfl
@[simp] theorem Hub.modCore_aio (h : Hub) (c : Nat) (f : ClkCore → ClkCore) : (h.modCore c f).aio = h.aio := rfl
@[simp] theorem Hub.modCore_rtm (h : Hub) (c : Nat) (f : ClkCore → ClkCore) : (h.modCore c f).rtm = h.rtm := rfl
@[simp] theorem Hub.modCore_cal (h : Hub) (c : Nat) (f : ClkCore → ClkCore) : (h.modCore c f).cal = h.cal := rfl
@[simp] theorem Hub.modCore_cap (h : Hub) (c : Nat) (f : ClkCore → ClkCore) : (h.modCore c f).cap = h.cap := rfl
@[simp] theorem Hub.modCore_nand (h : Hub) (c : Nat) (f : ClkCore → ClkCore) : (h.modCore c f).nand = h.nand := rfl
@[simp] theorem Hub.modCore_otp (h : Hub) (c : Nat) (f : ClkCore → ClkCore) : (h.modCore c f).otp = h.otp := rfl
@[simp] theorem Hub.modCore_pwr (h : Hub) (c : Nat) (f : ClkCore → ClkCore) : (h.modCore c f).pwr = h.pwr := rfl
@[simp] theorem Hub.modCore_free (h : Hub) (c : Nat) (f : ClkCore → ClkCore) : (h.modCore c f).free = h.free := rfl
@[simp] theorem Hub.modDom_regs (h : Hub) (c : Nat) (f : Domain → Domain) : (h.modDom c f).regs = h.regs := rfl
@[simp] theorem Hub.modDom_force (h : Hub) (c : Nat) (f : Domain → Domain) : (h.modDom c f).force = h.force := rfl
@[simp] theorem Hub.modDom_ev (h : Hub) (c : Nat) (f : Domain → Domain) : (h.modDom c f).ev = h.ev := rfl
@[simp] theorem Hub.modDom_engs (h : Hub) (c : Nat) (f : Domain → Domain) : (h.modDom c f).engs = h.engs := rfl
@[simp] theorem Hub.modDom_clu (h : Hub) (c : Nat) (f : Domain → Domain) : (h.modDom c f).clu = h.clu := rfl
@[simp] theorem Hub.modDom_cp (h : Hub) (c : Nat) (f : Domain → Domain) : (h.modDom c f).cp = h.cp := rfl
@[simp] theorem Hub.modDom_net (h : Hub) (c : Nat) (f : Domain → Domain) : (h.modDom c f).net = h.net := rfl
@[simp] theorem Hub.modDom_aio (h : Hub) (c : Nat) (f : Domain → Domain) : (h.modDom c f).aio = h.aio := rfl
@[simp] theorem Hub.modDom_rtm (h : Hub) (c : Nat) (f : Domain → Domain) : (h.modDom c f).rtm = h.rtm := rfl
@[simp] theorem Hub.modDom_cal (h : Hub) (c : Nat) (f : Domain → Domain) : (h.modDom c f).cal = h.cal := rfl
@[simp] theorem Hub.modDom_cap (h : Hub) (c : Nat) (f : Domain → Domain) : (h.modDom c f).cap = h.cap := rfl
@[simp] theorem Hub.modDom_nand (h : Hub) (c : Nat) (f : Domain → Domain) : (h.modDom c f).nand = h.nand := rfl
@[simp] theorem Hub.modDom_otp (h : Hub) (c : Nat) (f : Domain → Domain) : (h.modDom c f).otp = h.otp := rfl
@[simp] theorem Hub.modDom_pwr (h : Hub) (c : Nat) (f : Domain → Domain) : (h.modDom c f).pwr = h.pwr := rfl
@[simp] theorem Hub.modDom_free (h : Hub) (c : Nat) (f : Domain → Domain) : (h.modDom c f).free = h.free := rfl

@[simp] theorem Hub.modAio_regs (h : Hub) (f : Aio → Aio) : (h.modAio f).regs = h.regs := rfl
@[simp] theorem Hub.modAio_ev (h : Hub) (f : Aio → Aio) : (h.modAio f).ev = h.ev := rfl
@[simp] theorem Hub.modAio_engs (h : Hub) (f : Aio → Aio) : (h.modAio f).engs = h.engs := rfl
@[simp] theorem Hub.modAio_clk (h : Hub) (f : Aio → Aio) : (h.modAio f).clk = h.clk := rfl
@[simp] theorem Hub.modAio_cp (h : Hub) (f : Aio → Aio) : (h.modAio f).cp = h.cp := rfl
@[simp] theorem Hub.modAio_net (h : Hub) (f : Aio → Aio) : (h.modAio f).net = h.net := rfl
@[simp] theorem Hub.modAio_free (h : Hub) (f : Aio → Aio) : (h.modAio f).free = h.free := rfl
@[simp] theorem Hub.modAio_aio (h : Hub) (f : Aio → Aio) : (h.modAio f).aio = f h.aio := rfl
@[simp] theorem Hub.modCal_regs (h : Hub) (f : Cal → Cal) : (h.modCal f).regs = h.regs := rfl
@[simp] theorem Hub.modCal_ev (h : Hub) (f : Cal → Cal) : (h.modCal f).ev = h.ev := rfl
@[simp] theorem Hub.modCal_engs (h : Hub) (f : Cal → Cal) : (h.modCal f).engs = h.engs := rfl
@[simp] theorem Hub.modCal_clk (h : Hub) (f : Cal → Cal) : (h.modCal f).clk = h.clk := rfl
@[simp] theorem Hub.modCal_cp (h : Hub) (f : Cal → Cal) : (h.modCal f).cp = h.cp := rfl
@[simp] theorem Hub.modCal_net (h : Hub) (f : Cal → Cal) : (h.modCal f).net = h.net := rfl
@[simp] theorem Hub.modCal_free (h : Hub) (f : Cal → Cal) : (h.modCal f).free = h.free := rfl
@[simp] theorem Hub.modCal_cal (h : Hub) (f : Cal → Cal) : (h.modCal f).cal = f h.cal := rfl
@[simp] theorem Hub.modNand_regs (h : Hub) (f : Store → Store) : (h.modNand f).regs = h.regs := rfl
@[simp] theorem Hub.modNand_ev (h : Hub) (f : Store → Store) : (h.modNand f).ev = h.ev := rfl
@[simp] theorem Hub.modNand_engs (h : Hub) (f : Store → Store) : (h.modNand f).engs = h.engs := rfl
@[simp] theorem Hub.modNand_clk (h : Hub) (f : Store → Store) : (h.modNand f).clk = h.clk := rfl
@[simp] theorem Hub.modNand_cp (h : Hub) (f : Store → Store) : (h.modNand f).cp = h.cp := rfl
@[simp] theorem Hub.modNand_net (h : Hub) (f : Store → Store) : (h.modNand f).net = h.net := rfl
@[simp] theorem Hub.modNand_free (h : Hub) (f : Store → Store) : (h.modNand f).free = h.free := rfl
@[simp] theorem Hub.modNand_nand (h : Hub) (f : Store → Store) : (h.modNand f).nand = f h.nand := rfl
@[simp] theorem Hub.modRcd_regs (h : Hub) (f : Recorder → Recorder) : (h.modRcd f).regs = h.regs := rfl
@[simp] theorem Hub.modRcd_ev (h : Hub) (f : Recorder → Recorder) : (h.modRcd f).ev = h.ev := rfl
@[simp] theorem Hub.modRcd_engs (h : Hub) (f : Recorder → Recorder) : (h.modRcd f).engs = h.engs := rfl
@[simp] theorem Hub.modRcd_clk (h : Hub) (f : Recorder → Recorder) : (h.modRcd f).clk = h.clk := rfl
@[simp] theorem Hub.modRcd_cp (h : Hub) (f : Recorder → Recorder) : (h.modRcd f).cp = h.cp := rfl
@[simp] theorem Hub.modRcd_net (h : Hub) (f : Recorder → Recorder) : (h.modRcd f).net = h.net := rfl
@[simp] theorem Hub.modRcd_free (h : Hub) (f : Recorder → Recorder) : (h.modRcd f).free = h.free := rfl
@[simp] theorem Hub.modRcd_rcd (h : Hub) (f : Recorder → Recorder) : (h.modRcd f).rcd = f h.rcd := rfl
@[simp] theorem Hub.modPwr_regs (h : Hub) (f : Power → Power) : (h.modPwr f).regs = h.regs := rfl
@[simp] theorem Hub.modPwr_ev (h : Hub) (f : Power → Power) : (h.modPwr f).ev = h.ev := rfl
@[simp] theorem Hub.modPwr_engs (h : Hub) (f : Power → Power) : (h.modPwr f).engs = h.engs := rfl
@[simp] theorem Hub.modPwr_clk (h : Hub) (f : Power → Power) : (h.modPwr f).clk = h.clk := rfl
@[simp] theorem Hub.modPwr_cp (h : Hub) (f : Power → Power) : (h.modPwr f).cp = h.cp := rfl
@[simp] theorem Hub.modPwr_net (h : Hub) (f : Power → Power) : (h.modPwr f).net = h.net := rfl
@[simp] theorem Hub.modPwr_free (h : Hub) (f : Power → Power) : (h.modPwr f).free = h.free := rfl
@[simp] theorem Hub.modPwr_pwr (h : Hub) (f : Power → Power) : (h.modPwr f).pwr = f h.pwr := rfl
@[simp] theorem Hub.modSub_regs (h : Hub) (f : Subst → Subst) : (h.modSub f).regs = h.regs := rfl
@[simp] theorem Hub.modSub_ev (h : Hub) (f : Subst → Subst) : (h.modSub f).ev = h.ev := rfl
@[simp] theorem Hub.modSub_engs (h : Hub) (f : Subst → Subst) : (h.modSub f).engs = h.engs := rfl
@[simp] theorem Hub.modSub_clk (h : Hub) (f : Subst → Subst) : (h.modSub f).clk = h.clk := rfl
@[simp] theorem Hub.modSub_cp (h : Hub) (f : Subst → Subst) : (h.modSub f).cp = h.cp := rfl
@[simp] theorem Hub.modSub_net (h : Hub) (f : Subst → Subst) : (h.modSub f).net = h.net := rfl
@[simp] theorem Hub.modSub_free (h : Hub) (f : Subst → Subst) : (h.modSub f).free = h.free := rfl
@[simp] theorem Hub.modSub_sub (h : Hub) (f : Subst → Subst) : (h.modSub f).sub = f h.sub := rfl

/-! ### Registers -/

theorem Hub.reg_congr {h h' : Hub} (e : h'.regs = h.regs) (k : Nat) : h'.reg k = h.reg k := by simp [Hub.reg, e]

/-- A register read after a write: the word written, or what it read before. -/
theorem Hub.reg_setReg (h : Hub) (k n j : Nat) : (h.setReg k n).reg j = if j = k then n % 65536 else h.reg j := by
  by_cases e : j = k <;> simp [Hub.reg, Hub.setReg, tget_tput, e, BitVec.toNat_ofNat]

@[simp] theorem Hub.reg_setReg_same (h : Hub) (k n : Nat) : (h.setReg k n).reg k = n % 65536 := by
  simp [Hub.reg_setReg]

theorem Hub.reg_setReg_other (h : Hub) {k j : Nat} (n : Nat) (e : j ≠ k) : (h.setReg k n).reg j = h.reg j := by
  simp [Hub.reg_setReg, e]

theorem Hub.reg_lt (h : Hub) (k : Nat) : h.reg k < 65536 := (tget resetWord h.regs k).isLt

@[simp] theorem Hub.reg_tookFree (h : Hub) (k : Nat) : h.tookFree.reg k = h.reg k := rfl
@[simp] theorem Hub.reg_setEng (h : Hub) (n : Nat) (e : Engine) (k : Nat) : (h.setEng n e).reg k = h.reg k := rfl
@[simp] theorem Hub.reg_modEng (h : Hub) (n : Nat) (f : Engine → Engine) (k : Nat) : (h.modEng n f).reg k = h.reg k := rfl
@[simp] theorem Hub.reg_modCore (h : Hub) (c : Nat) (f : ClkCore → ClkCore) (k : Nat) : (h.modCore c f).reg k = h.reg k := rfl
@[simp] theorem Hub.reg_modDom (h : Hub) (d : Nat) (f : Domain → Domain) (k : Nat) : (h.modDom d f).reg k = h.reg k := rfl

/-- A flag that hardware sets is set, and its count is one more modulo 16. -/
theorem Hub.setFlag_spec (h : Hub) (k : Nat) :
    (h.setFlag k).flag k = true ∧ (h.setFlag k).reg k % 16 = (h.reg k % 16 + 1) % 16 := by
  have : (h.setFlag k).reg k = 0x8000 + (h.reg k % 16 + 1) % 16 := by
    simp only [Hub.setFlag, Hub.reg_setReg_same]; omega
  refine ⟨?_, by rw [this]; omega⟩
  simp only [Hub.flag, bit, this, Nat.testBit_eq_decide_div_mod_eq, decide_eq_true_eq]
  omega

/-! ### Engines, cores and domains -/

theorem Hub.engine_setEng (h : Hub) (n : Nat) (e : Engine) (m : Nat) :
    (h.setEng n e).engine m = if m = n then e else h.engine m := by
  simp [Hub.engine, Hub.setEng, tget_tput]

@[simp] theorem Hub.engine_setEng_same (h : Hub) (n : Nat) (e : Engine) : (h.setEng n e).engine n = e := by
  simp [Hub.engine_setEng]

@[simp] theorem Hub.engine_modEng_same (h : Hub) (n : Nat) (f : Engine → Engine) : (h.modEng n f).engine n = f (h.engine n) := by
  simp [Hub.modEng]

theorem Hub.engine_modEng_other (h : Hub) {n m : Nat} (f : Engine → Engine) (e : m ≠ n) :
    (h.modEng n f).engine m = h.engine m := by
  simp [Hub.modEng, Hub.engine_setEng, e]

@[simp] theorem Hub.engine_setReg (h : Hub) (k n m : Nat) : (h.setReg k n).engine m = h.engine m := rfl
@[simp] theorem Hub.core_setReg (h : Hub) (k n c : Nat) : (h.setReg k n).core c = h.core c := rfl
@[simp] theorem Hub.dom_setReg (h : Hub) (k n d : Nat) : (h.setReg k n).dom d = h.dom d := rfl

theorem Hub.core_modCore (h : Hub) {c : Nat} (hc : c < 2) (f : ClkCore → ClkCore) (j : Nat) :
    (h.modCore c f).core j = if j = c then f (h.core j) else h.core j := by
  simp only [Hub.core, Hub.modCore]; exact Two.get_mod _ _ f hc j

theorem Hub.dom_modDom (h : Hub) {d : Nat} (hd : d < 4) (f : Domain → Domain) (j : Nat) :
    (h.modDom d f).dom j = if j = d then f (h.dom j) else h.dom j := by
  simp only [Hub.dom, Hub.modDom]; exact Four.get_mod _ _ f hd j

@[simp] theorem Hub.dom_modCore (h : Hub) (c : Nat) (f : ClkCore → ClkCore) (d : Nat) : (h.modCore c f).dom d = h.dom d := rfl
@[simp] theorem Hub.core_modDom (h : Hub) (d : Nat) (f : Domain → Domain) (c : Nat) : (h.modDom d f).core c = h.core c := rfl

/-! ### Events -/

/-- Counting a refusal changes nothing but that count. -/
theorem Hub.noteRefusal_frame (h : Hub) (src code : Nat) : ∃ cp, h.noteRefusal src code = { h with cp := cp } := by
  unfold Hub.noteRefusal
  split
  · exact ⟨_, rfl⟩
  · exact ⟨h.cp, rfl⟩

/-- Issuing changes nothing but the event sources and the count of refusals. -/
theorem Hub.issue_frame (h : Hub) (src code d0 d1 d2 : Nat) :
    ∃ ev cp, h.issue src code d0 d1 d2 = { h with ev := ev, cp := cp } := by
  obtain ⟨cp, e⟩ := h.noteRefusal_frame src code
  rw [Hub.issue, e]
  dsimp only
  split
  · exact ⟨h.ev, cp, rfl⟩
  · exact ⟨_, cp, rfl⟩

/-- A masked source issues nothing (R141). -/
theorem Hub.issue_masked (h : Hub) {src : Nat} (code d0 d1 d2 : Nat) (hm : bit (h.reg (evCfg src)) 2) :
    (h.issue src code d0 d1 d2).ev = h.ev := by
  obtain ⟨cp, e⟩ := h.noteRefusal_frame src code
  rw [Hub.issue, e]
  exact (congrArg Hub.ev (if_pos hm) :)

/-- A source that is not masked issues its next record (R129, R131). -/
theorem Hub.issue_ev (h : Hub) {src : Nat} (code d0 d1 d2 : Nat) (hm : bit (h.reg (evCfg src)) 2 = false) :
    (h.issue src code d0 d1 d2).ev = h.ev.take src (h.recordOf src code d0 d1 d2) := by
  obtain ⟨cp, e⟩ := h.noteRefusal_frame src code
  rw [Hub.issue, e]
  have hm' : ¬ bit (({ h with cp := cp } : Hub).reg (evCfg src)) 2 = true := by simpa [Hub.reg] using hm
  exact (congrArg Hub.ev (if_neg hm') :)

@[simp] theorem Hub.issue_regs (h : Hub) (src code d0 d1 d2 : Nat) : (h.issue src code d0 d1 d2).regs = h.regs := by
  obtain ⟨_, _, e⟩ := h.issue_frame src code d0 d1 d2; rw [e]
@[simp] theorem Hub.issue_force (h : Hub) (src code d0 d1 d2 : Nat) : (h.issue src code d0 d1 d2).force = h.force := by
  obtain ⟨_, _, e⟩ := h.issue_frame src code d0 d1 d2; rw [e]
@[simp] theorem Hub.issue_stage (h : Hub) (src code d0 d1 d2 : Nat) : (h.issue src code d0 d1 d2).stage = h.stage := by
  obtain ⟨_, _, e⟩ := h.issue_frame src code d0 d1 d2; rw [e]
@[simp] theorem Hub.issue_snap (h : Hub) (src code d0 d1 d2 : Nat) : (h.issue src code d0 d1 d2).snap = h.snap := by
  obtain ⟨_, _, e⟩ := h.issue_frame src code d0 d1 d2; rw [e]
@[simp] theorem Hub.issue_refMs (h : Hub) (src code d0 d1 d2 : Nat) : (h.issue src code d0 d1 d2).refMs = h.refMs := by
  obtain ⟨_, _, e⟩ := h.issue_frame src code d0 d1 d2; rw [e]
@[simp] theorem Hub.issue_free (h : Hub) (src code d0 d1 d2 : Nat) : (h.issue src code d0 d1 d2).free = h.free := by
  obtain ⟨_, _, e⟩ := h.issue_frame src code d0 d1 d2; rw [e]
@[simp] theorem Hub.issue_engs (h : Hub) (src code d0 d1 d2 : Nat) : (h.issue src code d0 d1 d2).engs = h.engs := by
  obtain ⟨_, _, e⟩ := h.issue_frame src code d0 d1 d2; rw [e]
@[simp] theorem Hub.issue_farRr (h : Hub) (src code d0 d1 d2 : Nat) : (h.issue src code d0 d1 d2).farRr = h.farRr := by
  obtain ⟨_, _, e⟩ := h.issue_frame src code d0 d1 d2; rw [e]
@[simp] theorem Hub.issue_clu (h : Hub) (src code d0 d1 d2 : Nat) : (h.issue src code d0 d1 d2).clu = h.clu := by
  obtain ⟨_, _, e⟩ := h.issue_frame src code d0 d1 d2; rw [e]
@[simp] theorem Hub.issue_asc (h : Hub) (src code d0 d1 d2 : Nat) : (h.issue src code d0 d1 d2).asc = h.asc := by
  obtain ⟨_, _, e⟩ := h.issue_frame src code d0 d1 d2; rw [e]
@[simp] theorem Hub.issue_sub (h : Hub) (src code d0 d1 d2 : Nat) : (h.issue src code d0 d1 d2).sub = h.sub := by
  obtain ⟨_, _, e⟩ := h.issue_frame src code d0 d1 d2; rw [e]
@[simp] theorem Hub.issue_dram (h : Hub) (src code d0 d1 d2 : Nat) : (h.issue src code d0 d1 d2).dram = h.dram := by
  obtain ⟨_, _, e⟩ := h.issue_frame src code d0 d1 d2; rw [e]
@[simp] theorem Hub.issue_dramUe (h : Hub) (src code d0 d1 d2 : Nat) : (h.issue src code d0 d1 d2).dramUe = h.dramUe := by
  obtain ⟨_, _, e⟩ := h.issue_frame src code d0 d1 d2; rw [e]
@[simp] theorem Hub.issue_clk (h : Hub) (src code d0 d1 d2 : Nat) : (h.issue src code d0 d1 d2).clk = h.clk := by
  obtain ⟨_, _, e⟩ := h.issue_frame src code d0 d1 d2; rw [e]
@[simp] theorem Hub.issue_net (h : Hub) (src code d0 d1 d2 : Nat) : (h.issue src code d0 d1 d2).net = h.net := by
  obtain ⟨_, _, e⟩ := h.issue_frame src code d0 d1 d2; rw [e]
@[simp] theorem Hub.issue_aesIn (h : Hub) (src code d0 d1 d2 : Nat) : (h.issue src code d0 d1 d2).aesIn = h.aesIn := by
  obtain ⟨_, _, e⟩ := h.issue_frame src code d0 d1 d2; rw [e]
@[simp] theorem Hub.issue_aesOut (h : Hub) (src code d0 d1 d2 : Nat) : (h.issue src code d0 d1 d2).aesOut = h.aesOut := by
  obtain ⟨_, _, e⟩ := h.issue_frame src code d0 d1 d2; rw [e]
@[simp] theorem Hub.issue_aio (h : Hub) (src code d0 d1 d2 : Nat) : (h.issue src code d0 d1 d2).aio = h.aio := by
  obtain ⟨_, _, e⟩ := h.issue_frame src code d0 d1 d2; rw [e]
@[simp] theorem Hub.issue_bus (h : Hub) (src code d0 d1 d2 : Nat) : (h.issue src code d0 d1 d2).bus = h.bus := by
  obtain ⟨_, _, e⟩ := h.issue_frame src code d0 d1 d2; rw [e]
@[simp] theorem Hub.issue_rtm (h : Hub) (src code d0 d1 d2 : Nat) : (h.issue src code d0 d1 d2).rtm = h.rtm := by
  obtain ⟨_, _, e⟩ := h.issue_frame src code d0 d1 d2; rw [e]
@[simp] theorem Hub.issue_cal (h : Hub) (src code d0 d1 d2 : Nat) : (h.issue src code d0 d1 d2).cal = h.cal := by
  obtain ⟨_, _, e⟩ := h.issue_frame src code d0 d1 d2; rw [e]
@[simp] theorem Hub.issue_cap (h : Hub) (src code d0 d1 d2 : Nat) : (h.issue src code d0 d1 d2).cap = h.cap := by
  obtain ⟨_, _, e⟩ := h.issue_frame src code d0 d1 d2; rw [e]
@[simp] theorem Hub.issue_scr (h : Hub) (src code d0 d1 d2 : Nat) : (h.issue src code d0 d1 d2).scr = h.scr := by
  obtain ⟨_, _, e⟩ := h.issue_frame src code d0 d1 d2; rw [e]
@[simp] theorem Hub.issue_nand (h : Hub) (src code d0 d1 d2 : Nat) : (h.issue src code d0 d1 d2).nand = h.nand := by
  obtain ⟨_, _, e⟩ := h.issue_frame src code d0 d1 d2; rw [e]
@[simp] theorem Hub.issue_rcd (h : Hub) (src code d0 d1 d2 : Nat) : (h.issue src code d0 d1 d2).rcd = h.rcd := by
  obtain ⟨_, _, e⟩ := h.issue_frame src code d0 d1 d2; rw [e]
@[simp] theorem Hub.issue_tel (h : Hub) (src code d0 d1 d2 : Nat) : (h.issue src code d0 d1 d2).tel = h.tel := by
  obtain ⟨_, _, e⟩ := h.issue_frame src code d0 d1 d2; rw [e]
@[simp] theorem Hub.issue_otp (h : Hub) (src code d0 d1 d2 : Nat) : (h.issue src code d0 d1 d2).otp = h.otp := by
  obtain ⟨_, _, e⟩ := h.issue_frame src code d0 d1 d2; rw [e]
@[simp] theorem Hub.issue_pwr (h : Hub) (src code d0 d1 d2 : Nat) : (h.issue src code d0 d1 d2).pwr = h.pwr := by
  obtain ⟨_, _, e⟩ := h.issue_frame src code d0 d1 d2; rw [e]

@[simp] theorem Hub.reg_issue (h : Hub) (src code d0 d1 d2 k : Nat) : (h.issue src code d0 d1 d2).reg k = h.reg k :=
  Hub.reg_congr (h.issue_regs src code d0 d1 d2) k

/-! ### Outcomes -/

/-- A command while the hub's logic runs: its own effect, no refusal and no fault (R24). -/
theorem State.onHub_next {s : State} (l : s.live = true) (f : Hub → Hub) : s.onHub f = .next { s with hub := f s.hub } := by
  simp [State.onHub, l]
/-- Before supply qualification nothing but the supply acts (R24). -/
theorem State.onHub_dead {s : State} (l : s.live = false) (f : Hub → Hub) : s.onHub f = .next s := by simp [State.onHub, l]
theorem State.onWrite_next {s : State} (l : s.live = true) (f : Hub → Hub) :
    s.onWrite f = .next { s with hub := (f s.hub).noteFail s.hub.owner } := by simp [State.onWrite, State.onHub, l]
theorem State.onWrite_dead {s : State} (l : s.live = false) (f : Hub → Hub) : s.onWrite f = .next s := by
  simp [State.onWrite, State.onHub, l]
theorem State.onQ_next {s : State} (l : s.live = true) (f : Hub → EvQueue → Hub × EvQueue) :
    s.onQ f = .next { s with hub := (f s.hub s.q).1, q := (f s.hub s.q).2 } := by simp [State.onQ, State.onFabric, l]
theorem State.onQ_dead {s : State} (l : s.live = false) (f : Hub → EvQueue → Hub × EvQueue) : s.onQ f = .next s := by
  simp [State.onQ, l]

/-! ### The units of the network -/

@[simp] theorem Hub.modPtp_regs (h : Hub) (f : Ptp → Ptp) : (h.modPtp f).regs = h.regs := rfl
@[simp] theorem Hub.modPtp_free (h : Hub) (f : Ptp → Ptp) : (h.modPtp f).free = h.free := rfl
@[simp] theorem Hub.modPtp_ev (h : Hub) (f : Ptp → Ptp) : (h.modPtp f).ev = h.ev := rfl
@[simp] theorem Hub.modPtp_engs (h : Hub) (f : Ptp → Ptp) : (h.modPtp f).engs = h.engs := rfl
@[simp] theorem Hub.modPtp_clk (h : Hub) (f : Ptp → Ptp) : (h.modPtp f).clk = h.clk := rfl
@[simp] theorem Hub.modPtp_cp (h : Hub) (f : Ptp → Ptp) : (h.modPtp f).cp = h.cp := rfl
@[simp] theorem Hub.modPtp_aio (h : Hub) (f : Ptp → Ptp) : (h.modPtp f).aio = h.aio := rfl
@[simp] theorem Hub.modPtp_pwr (h : Hub) (f : Ptp → Ptp) : (h.modPtp f).pwr = h.pwr := rfl
@[simp] theorem Hub.modFly_regs (h : Hub) (id : Nat) (f : Fly → Fly) : (h.modFly id f).regs = h.regs := rfl
@[simp] theorem Hub.modFly_free (h : Hub) (id : Nat) (f : Fly → Fly) : (h.modFly id f).free = h.free := rfl
@[simp] theorem Hub.modFly_ev (h : Hub) (id : Nat) (f : Fly → Fly) : (h.modFly id f).ev = h.ev := rfl
@[simp] theorem Hub.modFly_engs (h : Hub) (id : Nat) (f : Fly → Fly) : (h.modFly id f).engs = h.engs := rfl
@[simp] theorem Hub.modFly_clk (h : Hub) (id : Nat) (f : Fly → Fly) : (h.modFly id f).clk = h.clk := rfl
@[simp] theorem Hub.modFly_cp (h : Hub) (id : Nat) (f : Fly → Fly) : (h.modFly id f).cp = h.cp := rfl
@[simp] theorem Hub.modFly_aio (h : Hub) (id : Nat) (f : Fly → Fly) : (h.modFly id f).aio = h.aio := rfl
@[simp] theorem Hub.modFly_pwr (h : Hub) (id : Nat) (f : Fly → Fly) : (h.modFly id f).pwr = h.pwr := rfl
@[simp] theorem Hub.modRecirc_regs (h : Hub) (q : Nat) (f : List Nat → List Nat) : (h.modRecirc q f).regs = h.regs := rfl
@[simp] theorem Hub.modRecirc_free (h : Hub) (q : Nat) (f : List Nat → List Nat) : (h.modRecirc q f).free = h.free := rfl
@[simp] theorem Hub.modRecirc_ev (h : Hub) (q : Nat) (f : List Nat → List Nat) : (h.modRecirc q f).ev = h.ev := rfl
@[simp] theorem Hub.modRecirc_engs (h : Hub) (q : Nat) (f : List Nat → List Nat) : (h.modRecirc q f).engs = h.engs := rfl
@[simp] theorem Hub.modRecirc_clk (h : Hub) (q : Nat) (f : List Nat → List Nat) : (h.modRecirc q f).clk = h.clk := rfl
@[simp] theorem Hub.modRecirc_cp (h : Hub) (q : Nat) (f : List Nat → List Nat) : (h.modRecirc q f).cp = h.cp := rfl
@[simp] theorem Hub.modRecirc_aio (h : Hub) (q : Nat) (f : List Nat → List Nat) : (h.modRecirc q f).aio = h.aio := rfl
@[simp] theorem Hub.modRecirc_pwr (h : Hub) (q : Nat) (f : List Nat → List Nat) : (h.modRecirc q f).pwr = h.pwr := rfl
@[simp] theorem Hub.modQueue_regs (h : Hub) (q : Nat) (f : List QFrame → List QFrame) : (h.modQueue q f).regs = h.regs := rfl
@[simp] theorem Hub.modQueue_free (h : Hub) (q : Nat) (f : List QFrame → List QFrame) : (h.modQueue q f).free = h.free := rfl
@[simp] theorem Hub.modQueue_ev (h : Hub) (q : Nat) (f : List QFrame → List QFrame) : (h.modQueue q f).ev = h.ev := rfl
@[simp] theorem Hub.modQueue_engs (h : Hub) (q : Nat) (f : List QFrame → List QFrame) : (h.modQueue q f).engs = h.engs := rfl
@[simp] theorem Hub.modQueue_clk (h : Hub) (q : Nat) (f : List QFrame → List QFrame) : (h.modQueue q f).clk = h.clk := rfl
@[simp] theorem Hub.modQueue_cp (h : Hub) (q : Nat) (f : List QFrame → List QFrame) : (h.modQueue q f).cp = h.cp := rfl
@[simp] theorem Hub.modQueue_aio (h : Hub) (q : Nat) (f : List QFrame → List QFrame) : (h.modQueue q f).aio = h.aio := rfl
@[simp] theorem Hub.modQueue_pwr (h : Hub) (q : Nat) (f : List QFrame → List QFrame) : (h.modQueue q f).pwr = h.pwr := rfl
@[simp] theorem Hub.modCtx_regs (h : Hub) (c : Nat) (f : Ctx → Ctx) : (h.modCtx c f).regs = h.regs := rfl
@[simp] theorem Hub.modCtx_free (h : Hub) (c : Nat) (f : Ctx → Ctx) : (h.modCtx c f).free = h.free := rfl
@[simp] theorem Hub.modCtx_ev (h : Hub) (c : Nat) (f : Ctx → Ctx) : (h.modCtx c f).ev = h.ev := rfl
@[simp] theorem Hub.modCtx_engs (h : Hub) (c : Nat) (f : Ctx → Ctx) : (h.modCtx c f).engs = h.engs := rfl
@[simp] theorem Hub.modCtx_clk (h : Hub) (c : Nat) (f : Ctx → Ctx) : (h.modCtx c f).clk = h.clk := rfl
@[simp] theorem Hub.modCtx_cp (h : Hub) (c : Nat) (f : Ctx → Ctx) : (h.modCtx c f).cp = h.cp := rfl
@[simp] theorem Hub.modCtx_aio (h : Hub) (c : Nat) (f : Ctx → Ctx) : (h.modCtx c f).aio = h.aio := rfl
@[simp] theorem Hub.modCtx_pwr (h : Hub) (c : Nat) (f : Ctx → Ctx) : (h.modCtx c f).pwr = h.pwr := rfl
@[simp] theorem Hub.modLane_regs (h : Hub) (l : Nat) (f : Lane → Lane) : (h.modLane l f).regs = h.regs := rfl
@[simp] theorem Hub.modLane_free (h : Hub) (l : Nat) (f : Lane → Lane) : (h.modLane l f).free = h.free := rfl
@[simp] theorem Hub.modLane_ev (h : Hub) (l : Nat) (f : Lane → Lane) : (h.modLane l f).ev = h.ev := rfl
@[simp] theorem Hub.modLane_engs (h : Hub) (l : Nat) (f : Lane → Lane) : (h.modLane l f).engs = h.engs := rfl
@[simp] theorem Hub.modLane_clk (h : Hub) (l : Nat) (f : Lane → Lane) : (h.modLane l f).clk = h.clk := rfl
@[simp] theorem Hub.modLane_cp (h : Hub) (l : Nat) (f : Lane → Lane) : (h.modLane l f).cp = h.cp := rfl
@[simp] theorem Hub.modLane_aio (h : Hub) (l : Nat) (f : Lane → Lane) : (h.modLane l f).aio = h.aio := rfl
@[simp] theorem Hub.modLane_pwr (h : Hub) (l : Nat) (f : Lane → Lane) : (h.modLane l f).pwr = h.pwr := rfl
@[simp] theorem Hub.modTun_regs (h : Hub) (f : Tunnel → Tunnel) : (h.modTun f).regs = h.regs := rfl
@[simp] theorem Hub.modTun_free (h : Hub) (f : Tunnel → Tunnel) : (h.modTun f).free = h.free := rfl
@[simp] theorem Hub.modTun_ev (h : Hub) (f : Tunnel → Tunnel) : (h.modTun f).ev = h.ev := rfl
@[simp] theorem Hub.modTun_engs (h : Hub) (f : Tunnel → Tunnel) : (h.modTun f).engs = h.engs := rfl
@[simp] theorem Hub.modTun_clk (h : Hub) (f : Tunnel → Tunnel) : (h.modTun f).clk = h.clk := rfl
@[simp] theorem Hub.modTun_net (h : Hub) (f : Tunnel → Tunnel) : (h.modTun f).net = h.net := rfl
@[simp] theorem Hub.modTun_aio (h : Hub) (f : Tunnel → Tunnel) : (h.modTun f).aio = h.aio := rfl
@[simp] theorem Hub.modTun_pwr (h : Hub) (f : Tunnel → Tunnel) : (h.modTun f).pwr = h.pwr := rfl
@[simp] theorem Hub.modClko_regs (h : Hub) (m : Nat) (f : ClkOut → ClkOut) : (h.modClko m f).regs = h.regs := rfl
@[simp] theorem Hub.modClko_free (h : Hub) (m : Nat) (f : ClkOut → ClkOut) : (h.modClko m f).free = h.free := rfl
@[simp] theorem Hub.modClko_ev (h : Hub) (m : Nat) (f : ClkOut → ClkOut) : (h.modClko m f).ev = h.ev := rfl
@[simp] theorem Hub.modClko_engs (h : Hub) (m : Nat) (f : ClkOut → ClkOut) : (h.modClko m f).engs = h.engs := rfl
@[simp] theorem Hub.modClko_cp (h : Hub) (m : Nat) (f : ClkOut → ClkOut) : (h.modClko m f).cp = h.cp := rfl
@[simp] theorem Hub.modClko_net (h : Hub) (m : Nat) (f : ClkOut → ClkOut) : (h.modClko m f).net = h.net := rfl
@[simp] theorem Hub.modClko_aio (h : Hub) (m : Nat) (f : ClkOut → ClkOut) : (h.modClko m f).aio = h.aio := rfl
@[simp] theorem Hub.modClko_pwr (h : Hub) (m : Nat) (f : ClkOut → ClkOut) : (h.modClko m f).pwr = h.pwr := rfl
@[simp] theorem Hub.modPtp_ptp (h : Hub) (f : Ptp → Ptp) : (h.modPtp f).net.ptp = f h.net.ptp := rfl
@[simp] theorem Hub.modTun_tun (h : Hub) (f : Tunnel → Tunnel) : (h.modTun f).cp.tun = f h.cp.tun := rfl

end Sys2Proof.Machine
end

