-- ==== Sys2Proof/Laws/Bits.lean ====
section
/-! SUPPORT. Laws/Bits.lean: what a field of a word reads after the field, or another one, was put. -/

namespace Sys2Proof.Machine

/-- Bit `i` of a field. -/
theorem testBit_bits (n hi lo i : Nat) : (bits n hi lo).testBit i = (decide (i < hi - lo + 1) && n.testBit (lo + i)) := by
  rw [bits, Nat.testBit_mod_two_pow, Nat.testBit_div_two_pow, Nat.add_comm i lo]

/-- A field is shorter than 2 to its width. -/
theorem bits_lt (n hi lo : Nat) : bits n hi lo < 2 ^ (hi - lo + 1) := Nat.mod_lt _ (by positivity)

/-- Bit `i` of a word after a field was put: the field's bits are the value's, the others the word's. -/
theorem testBit_putBits {hi lo : Nat} (hl : lo ≤ hi) (n v i : Nat) :
    (putBits n hi lo v).testBit i = if lo ≤ i ∧ i ≤ hi then v.testBit (i - lo) else n.testBit i := by
  have e : putBits n hi lo v = 2 ^ (hi + 1) * (n / 2 ^ (hi + 1)) + (2 ^ lo * (v % 2 ^ (hi - lo + 1)) + n % 2 ^ lo) := by
    unfold putBits; ring
  have l0 : n % 2 ^ lo < 2 ^ lo := Nat.mod_lt _ (by positivity)
  have l1 : v % 2 ^ (hi - lo + 1) < 2 ^ (hi - lo + 1) := Nat.mod_lt _ (by positivity)
  have lt : 2 ^ lo * (v % 2 ^ (hi - lo + 1)) + n % 2 ^ lo < 2 ^ (hi + 1) := by
    have e2 : 2 ^ (hi + 1) = 2 ^ lo * 2 ^ (hi - lo + 1) := by rw [← pow_add]; congr 1; omega
    rw [e2]
    calc _ < 2 ^ lo * (v % 2 ^ (hi - lo + 1)) + 2 ^ lo := by omega
      _ = 2 ^ lo * (v % 2 ^ (hi - lo + 1) + 1) := by ring
      _ ≤ _ := Nat.mul_le_mul_left _ l1
  rw [e, Nat.testBit_two_pow_mul_add _ lt, Nat.testBit_two_pow_mul_add _ l0, Nat.testBit_mod_two_pow, Nat.testBit_mod_two_pow,
    Nat.testBit_div_two_pow]
  by_cases h1 : i < hi + 1
  · by_cases h2 : i < lo
    · have h3 : ¬ (lo ≤ i ∧ i ≤ hi) := by omega
      simp [h1, h2, h3]
    · have h3 : lo ≤ i ∧ i ≤ hi := by omega
      have h4 : i - lo < hi - lo + 1 := by omega
      rw [if_pos h1, if_neg h2, if_pos h3]; simp only [h4, decide_true, Bool.true_and]
  · have h3 : ¬ (lo ≤ i ∧ i ≤ hi) := by omega
    rw [if_neg h1, if_neg h3]
    congr 1; omega

/-- A field that was put reads the value's low bits. -/
theorem bits_putBits {hi lo : Nat} (hl : lo ≤ hi) (n v : Nat) : bits (putBits n hi lo v) hi lo = v % 2 ^ (hi - lo + 1) := by
  apply Nat.eq_of_testBit_eq; intro i
  rw [testBit_bits, testBit_putBits hl, Nat.testBit_mod_two_pow]
  by_cases h : i < hi - lo + 1
  · have h2 : lo ≤ lo + i ∧ lo + i ≤ hi := by omega
    rw [if_pos h2, Nat.add_sub_cancel_left]
  · simp [h]

/-- Another field of the word is unchanged. -/
theorem bits_putBits_apart {hi lo hi' lo' : Nat} (hl : lo ≤ hi) (h : hi' < lo ∨ hi < lo') (hl' : lo' ≤ hi') (n v : Nat) :
    bits (putBits n hi lo v) hi' lo' = bits n hi' lo' := by
  apply Nat.eq_of_testBit_eq; intro i
  rw [testBit_bits, testBit_bits, testBit_putBits hl]
  by_cases g : i < hi' - lo' + 1
  · have h2 : ¬ (lo ≤ lo' + i ∧ lo' + i ≤ hi) := by omega
    rw [if_neg h2]
  · simp [g]

/-- A bit of a word after one bit was put. -/
theorem bit_putBits {hi lo : Nat} (hl : lo ≤ hi) (n v i : Nat) :
    bit (putBits n hi lo v) i = if lo ≤ i ∧ i ≤ hi then bit v (i - lo) else bit n i := testBit_putBits hl n v i

/-- A field put in a 16-bit word leaves a 16-bit word. -/
theorem putBits_lt {hi lo n v : Nat} (hl : lo ≤ hi) (hh : hi < 16) (hn : n < 65536) : putBits n hi lo v < 65536 := by
  apply Nat.lt_pow_two_of_testBit (n := 16); intro i hi'
  rw [testBit_putBits hl, if_neg (by omega)]
  have : (2 : Nat) ^ 16 ≤ 2 ^ i := Nat.pow_le_pow_right (by norm_num) hi'
  exact Nat.testBit_lt_two_pow (by omega)

/-- A field of a register that was put reads the value's low bits. -/
theorem Hub.fld_setFld (h : Hub) {k hi lo : Nat} (v : Nat) (hl : lo ≤ hi) (hh : hi < 16) :
    (h.setFld k hi lo v).fld k hi lo = v % 2 ^ (hi - lo + 1) := by
  rw [Hub.fld, Hub.setFld, Hub.reg_setReg, if_pos rfl, Nat.mod_eq_of_lt (putBits_lt hl hh (h.reg_lt k)), bits_putBits hl]

/-- Another field of that register is unchanged. -/
theorem Hub.fld_setFld_apart (h : Hub) {k hi lo hi' lo' : Nat} (v : Nat) (hl : lo ≤ hi) (hh : hi < 16)
    (a : hi' < lo ∨ hi < lo') (hl' : lo' ≤ hi') : (h.setFld k hi lo v).fld k hi' lo' = h.fld k hi' lo' := by
  rw [Hub.fld, Hub.setFld, Hub.reg_setReg, if_pos rfl, Nat.mod_eq_of_lt (putBits_lt hl hh (h.reg_lt k)), bits_putBits_apart hl a hl']
  rfl

/-- A field of another register is unchanged. -/
theorem Hub.fld_setFld_other (h : Hub) {k k' : Nat} (hi lo v hi' lo' : Nat) (hk : k' ≠ k) :
    (h.setFld k hi lo v).fld k' hi' lo' = h.fld k' hi' lo' := by
  rw [Hub.fld, Hub.setFld, Hub.reg_setReg_other h _ hk]; rfl

end Sys2Proof.Machine
end

