-- ==== Sys2Proof/Tests/Slice0.lean ====
section
/-! SUPPORT. Tests/Slice0.lean: small checks of the model: an ill-formed command for each check of WellFormed, values worked
out from the spec, and for every obligation with hypotheses a state and operands that meet them. -/

set_option Elab.async false

namespace Sys2Proof.Tests
open Sys2Proof.Machine

/-- The reset state with the fabric running. -/
def base : Hub := Hub.reset.modPwr fun p => { p with running := true }
def st0 : State := State.reset.withHub base

/-- That state with another hub. -/
def on (f : Hub → Hub) : State := st0.withHub (f base)

/-- That state with core `c` as `f` makes it. -/
def onCore (c : Nat) (f : ClkCore → ClkCore) : State := on fun h => h.modCore c f

/-! ### WellFormed: an ill-formed command for each check, beside a well-formed one at the bound -/

def n0 : NandIn := {}
def hdl (n : Nat) : List Byte := List.replicate n 0

theorem test_wf_distinct : (TickIn.wf ⟨[(9, 0)], [7]⟩, TickIn.wf ⟨[(10, 0)], []⟩, TickIn.wf ⟨[(1, 0), (1, 2)], []⟩, TickIn.wf ⟨[], [8]⟩, TickIn.wf ⟨[], [3, 3]⟩) =
    (true, false, false, false, false) := by decide +kernel

theorem test_wf_ill_formed :
    ([.domainTick 0 ⟨[(10, 0)], []⟩, .coreLocked 0 0 0 (List.replicate 5 0) ⟨0, 0, 0, 0⟩, .hopDone 0 0 0 0 (List.replicate 5 0) ⟨0, 0, 0, 0⟩,
      .cpWr 0 0 0 0 (List.replicate 129 0) 0, .cpWrf 0 0 0 0 (List.replicate 129 0) 0, .cpInvalidOp 0 (List.replicate 132 0), .frameTimeout (List.replicate 132 0),
      .frameShort (List.replicate 132 0), .tunnelDatagram 0 (hdl 2002), .farLanding 0 512 ⟨.ok, .ok, []⟩, .farLanding 0 0 ⟨.ok, .ok, [(4, .ok)]⟩,
      .farStoreWritten 0 512 ⟨.ok, .ok, []⟩, .farStoreWritten 0 0 ⟨.ok, .ok, [(0, .ok), (0, .ok)]⟩, .frameArrival 0 (hdl 2002), .ptpSyncTx [0], .cdcRx 0 (hdl 69) false,
      .ampReenable 0 (List.replicate 9 ⟨false, 0, 0⟩), .calPublish 1 0 0 { mags := List.replicate 9 0 }, .storeWrite { n0 with bad := [(4096, 0)] },
      .storeRead { n0 with bad := [(0, 8)] }, .storeFload { n0 with bad := [(4096, 0)] }, .logPage { samples := List.replicate 9 [] },
      .logPage { samples := [List.replicate 1001 0] }, .logPage { nand := { n0 with bad := [(0, 8)] } }, .nandMount { n0 with bad := [(0, 8)] } n0,
      .nandMount n0 { n0 with bad := [(0, 8)] }, .bootFload { n0 with bad := [(0, 8)] }] : List Instr).all (fun i => !i.wf) = true := by decide +kernel

theorem test_wf_well_formed :
    ([.domainTick 3 ⟨[(9, 0)], [7]⟩, .coreLocked 0 0 0 (List.replicate 4 0) ⟨0, 0, 0, 0⟩, .hopDone 0 0 0 0 [] ⟨0, 0, 0, 0⟩, .cpWr 0 0 0 0 (List.replicate 128 0) 0,
      .cpWrf 0 0 0 0 [] 0, .cpInvalidOp 0 (List.replicate 131 0), .frameTimeout [], .frameShort [0], .tunnelDatagram 1 (hdl 2001),
      .farLanding 0 511 ⟨.ok, .ok, [(3, .ok)]⟩, .farStoreWritten 0 0 ⟨.ok, .ok, []⟩, .frameArrival 0 (hdl 2001), .ptpSyncTx [0, 1], .cdcRx 0 (hdl 68) false,
      .ampReenable 0 (List.replicate 8 ⟨false, 0, 0⟩), .calPublish 1 0 0 { mags := List.replicate 8 0 }, .storeWrite { n0 with bad := [(4095, 7)] }, .storeRead n0,
      .storeFload n0, .logPage { samples := List.replicate 8 (List.replicate 1000 0) }, .nandMount n0 n0, .bootFload n0, .hwmReset] : List Instr).all
      (fun i => i.wf) = true := by decide +kernel

/-! ### Values worked out from the spec -/

/-- R94: over the ASCII string "123456789" the CRC gives 0x29B1. -/
theorem test_crc_check : crcBytes 16 0x1021 0xFFFF [0x31, 0x32, 0x33, 0x34, 0x35, 0x36, 0x37, 0x38, 0x39] = 0x29B1 := by decide +kernel

/-- The ring of chapter 9: 0x0100 + ((0 - 3) mod 9) = 0x0106 (R236). -/
theorem test_ring : circ 0x0100 0x0100 9 0xFFFD = 0x0106 := by decide +kernel

/-- R33: min(8,192, 480 MHz / rate - 16) bundles: 4,984 at 96 kHz. -/
theorem test_budget : tickBudget 6 = 4984 ∧ tickBudget 4 = 8192 := by decide +kernel

/-- R217: 0x7FFF + 1 is clamped to 0x7FFF with SAT, setting S, and wraps without, setting V. -/
theorem test_fit : fit 0x8000 16 true = (0x7FFF, bS) ∧ fit 0x8000 16 false = (-0x8000, bV) := by decide +kernel

/-- The rounding table of R216. -/
theorem test_rounding : ([(0x12348000, 0x1234, 0x1234), (0x12358000, 0x1236, 0x1235), (0x12348001, 0x1235, 0x1234), (-0x8000, 0, -1)] : List (Int × Int × Int)).all
    (fun x => shrRound x.1 16 false == x.2.1 && shrRound x.1 16 true == x.2.2) = true := by decide +kernel

/-- An empty queue of commands idles; a command in front is taken (95_what_each_step_holds.md). -/
theorem test_step : step State.reset = .next State.reset := rfl

/-- R139: EVQ_HEAD written as 1 releases QUEUE_STARTED. -/
theorem test_release : (match step { st0 with pending := [.eventRelease 1] } with | .next s => (s.q.fill, s.q.head, s.pending.length) | _ => (9, 9, 9)) =
    (0, 1, 0) := by decide +kernel

/-- R94 to R97: a read of one word at 0x00 answers a header, SYS_PART and a CRC; SYS_PART resets to 0xA808. -/
theorem test_read_part :
    (match step { st0 with pending := [.cpRd 0 5 0 1 (frameCrc [0x1500, 1])] } with
     | .next s => (s.hub.cp.serial.sent.length, s.hub.cp.serial.sent.drop 1 |>.head?) | _ => (0, none)) = (3, some 0xA808) := by decide +kernel

/-- The same frame with a wrong CRC executes nothing and is answered with code 1 in the status field. -/
theorem test_read_bad_crc :
    (match step { st0 with pending := [.cpRd 0 5 0 1 (frameCrc [0x1500, 1] ^^^ 1)] } with
     | .next s => s.hub.cp.serial.sent.length | _ => 0) = 2 := by decide +kernel

/-! Slot words written out from the layout of R182, the forms of R189 and the opcodes of R191. -/

/-- S 1, CL 0, MAC; AD 3, SA 2, SB 13, SAT 1, RM 0, SG 1, AUX 1. -/
theorem test_word_m : decodeSlot 5 false (0b1_00_0_0_00_00001_11_0010_1101_1_0_01_000001#32) 0 =
    some (.mac 5 false { s := true, pe := false, pn := false, pf := 0 } ⟨3, 2, 13, true, false, 1, 1⟩) := by decide +kernel

/-- CL 1, PE 1, PN 1, PF 2, ALU; DST 7, SA 8, SB 9, SAT 0, RM 1, FN 12, AX 2. -/
theorem test_word_x : decodeSlot 0 true (0b0_01_1_1_10_00000_0111_1000_1001_0_1_1100_10#32) 0 =
    some (.alu 0 true { s := false, pe := true, pn := true, pf := 2 } ⟨7, 8, 9, false, true, 12, 2⟩) := by decide +kernel

/-- CL 2, ST; DR 14, PR 5, MS 1, W 1, AM 2, OFS 0x1FF. -/
theorem test_word_t : decodeSlot 15 false (0b1_10_0_0_00_00001_1110_101_1_1_10_111111111#32) 0 =
    some (.st 15 false { s := true, pe := false, pn := false, pf := 0 } ⟨14, 5, true, true, 2, 0x1FF⟩) := by decide +kernel

/-- CL 3, REPN; N 1, RS 0, CR 0, CM1 0x03F; and the same word with reserved bit 17 set, which the head keeps. -/
theorem test_word_k : decodeSlot 0 false (0b1_11_0_0_00_00010_1_0_00_0000_000000111111#32) 0 =
      some (.opRep 0 false { s := true, pe := false, pn := false, pf := 0 } ⟨true, false, 0, 0x03F⟩) ∧
    decodeSlot 0 false (0b1_11_0_0_00_00010_1_0_10_0000_000000111111#32) 0 =
      some (.opRep 0 false { s := true, pe := false, pn := false, pf := 0, rsv := 0x20000 } ⟨true, false, 0, 0x03F⟩) := by decide +kernel

/-- CL 1, XE9; DST 4, SA 6, ARG 0x012. -/
theorem test_word_xe : decodeSlot 4 false (0b1_01_0_0_00_11001_0100_0110_000000010010#32) 0 =
    some (.xlOpcode 4 false { s := true, pe := false, pn := false, pf := 0 } 1 ⟨4, 6, 0x012⟩) := by decide +kernel

/-- CALL with its literal; the first opcodes that are not assigned in classes M and K. -/
theorem test_word_call : decodeSlot 0 false (0b0_11_0_0_00_00101_00000_111000011110000#32) 0x8000FFFF =
      some (.call 0 false { s := false, pe := false, pn := false, pf := 0 } 0x70F0 0x8000FFFF) ∧
    decodeSlot 0 false (0b1_00_0_0_00_00011_00000000000000000000#32) 0 = none ∧
    decodeSlot 0 false (0b1_11_0_0_00_01100_00000000000000000000#32) 0 = none := by decide +kernel

theorem meets_SlotWordsRoundTrip :
    (∃ (i : Instr) (n : Fin 16) (bg : Bool) (hd : Hdr) (c : Cls), opHome i = some (n, bg) ∧ opSlot i = some (hd, c) ∧ i.wf = true ∧ hd.fetch = .ok ∧ hd.reads = []) ∧
    (∃ (w : BitVec 32) (i : Instr), decodeSlot 0 false w 0 = some i) := by
  refine ⟨⟨.opRep 9 true { s := true, pe := true, pn := false, pf := 3, rsv := 0x30000 } ⟨true, true, 15, 0xFFF⟩, 9, true, _, .k, rfl, rfl, ?_⟩, ⟨0, _, rfl⟩⟩
  decide +kernel

/-- The second worked case of chapter 24: SE4 executes XE9 with ARG 0x012 while SA holds 0x3F00; word 1 is 0x0012 (R636). -/
theorem test_xl_words : XlReq.words { eng := 4, bg := false, op := 1, arg := 0x012, sa := 0x3F00 } = [0x4100, 0x0012, 0x3F00] := by decide +kernel

/-- R406: 48,000 frames/s, and the limit of 1,000 ppm, lie in class 3. -/
theorem test_aes_class : aesClass 768000 = 3 ∧ aesClass 768768 = 3 ∧ aesClass 768769 = 0 := by decide +kernel

/-! ### Hypotheses of the clock's statements -/

theorem meets_ClockCoresAnswer :
    (∃ (s : State) (c : Fin 2), s.live = true ∧ (s.hub.core c).st = .hop) ∧
    (∃ (s : State) (c : Fin 2), s.live = true ∧ (s.hub.core c).st.locked = true) ∧
    (∃ (s : State) (c : Fin 2), s.live = true ∧ (s.hub.core c).st ≠ .off ∧ (s.hub.core c).stopReq = false ∧ s.hub.enabledOn c = none ∧
      (s.hub.core c).busy = false) ∧
    (∃ (s : State) (c : Fin 2), s.live = true ∧ (s.hub.core c).st = .off) := by
  refine ⟨⟨onCore 0 fun k => { k with st := .hop }, 0, ?_⟩, ⟨onCore 1 fun k => { k with st := .hold }, 1, ?_⟩,
    ⟨onCore 1 fun k => { k with st := .free }, 1, ?_⟩, ⟨st0, 0, ?_⟩⟩ <;> decide +kernel

theorem meets_StopRefusedWhileDomainEnabled :
    (∃ (s : State) (c : Fin 2), s.live = true ∧ (s.hub.core c).st ≠ .off ∧ (s.hub.core c).stopReq = false ∧
      (s.hub.enabledOn c ≠ none ∨ (s.hub.core c).busy = true) ∧ bit (s.hub.reg (evCfg (96 + c))) 2 = false) ∧
    (∃ (s : State) (c : Fin 2), s.live = true ∧ (s.hub.core c).st ≠ .off ∧ (s.hub.core c).stopReq = false ∧ s.hub.enabledOn c = none ∧
      (s.hub.core c).busy = true ∧ bit (s.hub.reg (evCfg (96 + c))) 2 = false) ∧
    (∃ (s : State) (c : Fin 2), s.live = true ∧ (s.hub.core c).st.locked = true ∧ (s.hub.core c).stopReq = true ∧
      (s.hub.enabledOn c ≠ none ∨ (s.hub.core c).busy = true)) := by
  refine ⟨⟨onCore 0 fun k => { k with st := .free }, 0, ?_⟩, ⟨onCore 1 fun k => { k with st := .free, relock := true }, 1, ?_⟩,
    ⟨onCore 0 fun k => { k with st := .track, stopReq := true }, 0, ?_⟩⟩ <;> decide +kernel

theorem meets_CoreLockAnswers :
    (∃ (s : State) (c : Fin 2), s.live = true ∧ ((s.hub.core c).st = .hop ∨ (s.hub.core c).st = .search) ∧ (s.hub.core c).hopping = false ∧
      (s.hub.core c).hopHeld = none) ∧
    (∃ (s : State) (c : Fin 2), s.live = true ∧ (s.hub.core c).hopping = true) := by
  refine ⟨⟨onCore 1 fun k => { k with st := .search }, 1, ?_⟩, ⟨onCore 0 fun k => { k with hopping := true }, 0, ?_⟩⟩ <;> decide +kernel

theorem meets_DomainResumesBySkippedTicks :
    ∃ (h : Hub) (d : Fin 4) (skipped : Nat), skipped < 2 ^ 32 ∧
      (h.dom d).tick.toNat + 2 ^ 32 * (h.dom d).epoch.toNat + skipped + 1 < 2 ^ 80 ∧ (h.dom d).fresh = false ∧
      bit (h.reg (evCfg (101 + d))) 2 = false := by
  refine ⟨base.modDom 3 fun m => { m with fresh := false, tick := BitVec.allOnes 32 }, 3, 2 ^ 32 - 1, ?_⟩; decide +kernel

theorem meets_BaseTickAnswers :
    (∃ (s : State) (c : Fin 2), s.live = true ∧ (s.hub.core c).st.locked = true ∧ (s.hub.core c).stopReq = true ∧ s.hub.enabledOn c = none ∧
      (s.hub.core c).busy = false) ∧
    (∃ (s : State) (c : Fin 2) (n : Nat), s.live = true ∧ (s.hub.core c).st.locked = true ∧ (s.hub.core c).stopReq = false ∧
      (s.hub.core c).hopTo = some n) ∧
    (∃ (s : State) (c : Fin 2), s.live = true ∧ (s.hub.core c).st.locked = true ∧ (s.hub.core c).stopReq = false ∧ (s.hub.core c).hopTo = none) := by
  refine ⟨⟨onCore 1 fun k => { k with st := .free, stopReq := true }, 1, ?_⟩,
    ⟨onCore 0 fun k => { k with st := .slew, hopTo := some 7 }, 0, 7, ?_⟩, ⟨onCore 0 fun k => { k with st := .hold }, 0, ?_⟩⟩ <;> decide +kernel

theorem meets_ReferencesAnswer :
    (∃ (s : State) (r : Fin 3), s.live = true ∧ s.hub.refState r = 0) ∧ (∃ (s : State) (r : Fin 3), s.live = true ∧ s.hub.refState r = 1) ∧
    (∃ (s : State) (r : Fin 3) (cause : Fin 5), s.live = true ∧ s.hub.refState r ≠ 0 ∧ cause ≠ 0) ∧
    (∃ (s : State) (c : Fin 2), s.live = true ∧ (s.hub.core c).st = .slew ∧ (s.hub.core c).hopHeld = none) := by
  refine ⟨⟨st0, 2, ?_⟩, ⟨on fun h => h.setReg (kRef 0 0) 1, 0, ?_⟩, ⟨on fun h => h.setReg (kRef 1 0) 2, 1, 3, ?_⟩,
    ⟨onCore 1 fun k => { k with st := .slew, ref := some 2 }, 1, ?_⟩⟩ <;> decide +kernel

/-- Core 0 in state `st` on reference 0; the references in `good` are qualified. -/
def refsHub (st : CoreSt) (r : Option Nat) (good : List Nat) (revert : Bool) : Hub :=
  let h := good.foldl (fun h r => h.setReg (kRef r 0) 6) (base.setFld 0x34 15 15 (b2n revert))
  h.modCore 0 fun k => { k with st := st, ref := r }

theorem meets_CoreSelectsItsCandidate :
    (∃ (h : Hub) (c : Fin 2) (r : Nat), ((h.core c).st = .free ∨ (h.core c).st = .hold) ∧ h.candidate c = some r) ∧
    (∃ (h : Hub) (c : Fin 2), ((h.core c).st = .free ∨ (h.core c).st = .hold) ∧ h.candidate c = none) ∧
    (∃ (h : Hub) (c : Fin 2) (r r' : Nat), (h.core c).st = .track ∧ (h.core c).ref = some r ∧ h.candidate c = some r' ∧ h.refUsable c r = false) ∧
    (∃ (h : Hub) (c : Fin 2) (r r' : Nat), (h.core c).st = .track ∧ (h.core c).ref = some r ∧ h.candidate c = some r' ∧
      h.higher c r' r = true ∧ bit (h.reg 0x34) 15 = true) ∧
    (∃ (h : Hub) (c : Fin 2) (r : Nat), (h.core c).st = .track ∧ (h.core c).ref = some r ∧ h.refUsable c r = false ∧ h.candidate c = none) ∧
    (∃ (h : Hub) (c : Fin 2) (r r' : Nat), (h.core c).st = .track ∧ (h.core c).ref = some r ∧ h.refUsable c r = true ∧
      h.candidate c = some r' ∧ (h.higher c r' r = false ∨ bit (h.reg 0x34) 15 = false)) ∧
    (∃ (h : Hub) (c : Fin 2), (h.core c).st = .slew) := by
  refine ⟨⟨refsHub .hold none [2] false, 0, 2, ?_⟩, ⟨refsHub .free none [] false, 0, ?_⟩, ⟨refsHub .track (some 0) [2] false, 0, 0, 2, ?_⟩,
    ⟨refsHub .track (some 2) [0, 2] true, 0, 2, 0, ?_⟩, ⟨refsHub .track (some 1) [] false, 0, 1, ?_⟩,
    ⟨refsHub .track (some 2) [0, 2] false, 0, 2, 0, ?_⟩, ⟨refsHub .slew none [] false, 0, ?_⟩⟩ <;> decide +kernel

/-- The reset state with both cores free. -/
def freeHub : Hub := (base.modCore 0 fun k => { k with st := .free }).modCore 1 fun k => { k with st := .free }

/-- Hop entry `n` of core `c` is valid with the nominal MULT of the 48 kHz family. -/
def hopOk (h : Hub) (c n : Nat) : Hub := (h.setReg (kHop c n 2) 0x8000).setEffN (kHop c n 0) 2 0x08000000

theorem meets_HopRequestsAreJudged :
    (∃ (s : State) (c : Fin 2) (n : Fin 8), s.live = true ∧ n.val = (s.hub.core c).entryRead) ∧
    (∃ (s : State) (c : Fin 2) (n : Fin 8), s.live = true ∧ n.val ≠ (s.hub.core c).entryRead ∧ s.hub.hopCause c n false = none ∧ (s.hub.core c).st ≠ .slew) ∧
    (∃ (s : State) (c : Fin 2) (n : Fin 8), s.live = true ∧ n.val = (s.hub.core c).entryRead ∧ s.hub.hopCause c n false = none ∧ (s.hub.core c).st = .slew) ∧
    (∃ (s : State) (c : Fin 2) (n : Fin 8) (cause : Nat), s.live = true ∧ n.val ≠ (s.hub.core c).entryRead ∧ s.hub.hopCause c n false = some cause ∧
      bit (s.hub.reg (evCfg (96 + c))) 2 = false) ∧
    (∃ (h : Hub) (c : Fin 2) (n : Fin 8), h.hopCause c n false = some 1) ∧ (∃ (h : Hub) (c : Fin 2) (n : Fin 8), h.hopCause c n false = some 2) ∧
    (∃ (h : Hub) (c : Fin 2) (n : Fin 8), h.hopCause c n false = some 3) ∧ (∃ (h : Hub) (c : Fin 2) (n : Fin 8), h.hopCause c n false = some 4) ∧
    (∃ (h : Hub) (c : Fin 2) (n : Fin 8), h.hopCause c n false = some 5) := by
  refine ⟨⟨st0, 0, 0, ?_⟩, ⟨st0.withHub (hopOk freeHub 0 7), 0, 7, ?_⟩,
    ⟨on fun h => hopOk (h.modCore 1 fun k => { k with st := .slew }) 1 0, 1, 0, ?_⟩,
    ⟨st0, 0, 7, 1, ?_⟩, ⟨base, 0, 7, ?_⟩, ⟨freeHub.setReg (kHop 0 1 2) 0x9000, 0, 1, ?_⟩,
    ⟨(freeHub.setReg (kHop 0 1 2) 0x8000).setEffN (kHop 0 1 0) 2 (0x08000000 + 67109), 0, 1, ?_⟩,
    ⟨(hopOk freeHub 1 1).modCore 1 fun k => { k with hopHeld := some 2 }, 1, 1, ?_⟩, ⟨hopOk base 1 0, 1, 0, ?_⟩⟩ <;> decide +kernel

theorem meets_DomainCommandsAnswer :
    (∃ (s : State) (d : Fin 4) (f : BitVec 4), s.live = true ∧ f.toNat ≠ (s.hub.dom d).field ∧ s.hub.bindCause d f.toNat = none) ∧
    (∃ (s : State) (d : Fin 4), s.live = true ∧ (s.hub.dom d).disabling = false ∧ (s.hub.dom d).en = false ∧ (s.hub.core (s.hub.dom d).core).st ≠ .off ∧
      rateFam (s.hub.dom d).rate = some (s.hub.core (s.hub.dom d).core).fam) ∧
    (∃ (s : State) (d : Fin 4), s.live = true ∧ (s.hub.dom d).disabling = true) ∧
    (∃ (s : State) (d : Fin 4), s.live = true ∧ d ≠ 0 ∧ (s.hub.dom d).en = true) := by
  refine ⟨⟨st0.withHub freeHub, 0, 6, ?_⟩, ⟨st0.withHub freeHub, 3, ?_⟩,
    ⟨on fun h => h.modDom 2 fun m => { m with disabling := true }, 2, ?_⟩, ⟨on fun h => h.modDom 1 fun m => { m with en := true }, 1, ?_⟩⟩ <;> decide +kernel

theorem meets_RateRefusals :
    (∃ (s : State) (d : Fin 4) (f : BitVec 4) (cause n : Nat), s.live = true ∧ f.toNat ≠ (s.hub.dom d).field ∧ s.hub.bindCause d f.toNat = some (cause, n) ∧
      bit (s.hub.reg (evCfg (101 + d))) 2 = false) ∧
    (∃ (h : Hub) (c : Fin 2) (rate : Fin 8) (fam : Bool), rateFam rate = some fam ∧ (h.core c).fam ≠ fam) ∧
    (∃ (h : Hub) (d : Fin 4) (c : Fin 2) (rate : Fin 8) (n : Nat), rateFam rate = some (h.core c).fam ∧ h.plenBlocks d rate = some n) ∧
    (∃ (h : Hub) (d : Fin 4) (c : Fin 2) (rate : Fin 8), rateFam rate = some (h.core c).fam ∧ h.plenBlocks d rate = none ∧ (h.core c).st = .off) ∧
    (∃ (h : Hub) (d : Fin 4) (c : Fin 2) (rate : Fin 8), rateFam rate = some (h.core c).fam ∧ h.plenBlocks d rate = none ∧ (h.core c).st ≠ .off) := by
  refine ⟨⟨st0, 3, 7, 1, 0, ?_⟩, ⟨base, 1, 5, true, ?_⟩,
    ⟨(freeHub.setReg (eng 15 0x40100) 0x8000).setReg (eng 15 0x40001) 4985, 0, 0, 6, 15, ?_⟩, ⟨base, 0, 1, 4, ?_⟩, ⟨freeHub, 0, 1, 6, ?_⟩⟩ <;> decide +kernel

theorem meets_ClockOutputCommandsAnswer :
    (∃ (s : State) (m : Fin 8), s.live = true ∧ m = 7 ∧ s.hub.capHolds = false) ∧
    (∃ (s : State) (m : Fin 8), s.live = true ∧ (m = 7 → s.hub.capHolds = false) ∧ (s.hub.clko m).en = false) := by
  refine ⟨⟨st0, 7, ?_⟩, ⟨st0, 7, ?_⟩⟩ <;> decide +kernel

theorem meets_DomainTickAnswers :
    (∃ (s : State) (d : Fin 4), s.live = true ∧ (s.hub.dom d).run = true) ∧
    (∃ (h : Hub) (d : Fin 4), (h.dom d).fresh = false ∧ (h.dom d).tick = BitVec.allOnes 32) ∧ (∃ (h : Hub) (d : Fin 4), (h.dom d).fresh = true) ∧
    (∃ d e : Fin 4, e ≠ d) := by
  refine ⟨⟨on fun h => h.modDom 3 fun m => { m with run := true }, 3, ?_⟩, ⟨base.modDom 0 fun m => { m with fresh := false, tick := BitVec.allOnes 32 }, 0, ?_⟩,
    ⟨base, 0, ?_⟩, ⟨0, 3, ?_⟩⟩ <;> decide +kernel

/-! ### Hypotheses of the statements about engines and substitution -/

/-- The reset state with engine `n` as `f` makes it. -/
def onEng (n : Nat) (f : Engine → Engine) : State := on fun h => h.modEng n f

/-- Adaptive supply control with the code `code` below its ceiling, DOM0 started. -/
def ascOn (code : Nat) (f : Asc → Asc) : State := on fun h =>
  { (h.setReg 0x6E code).setReg 0x6F (255 * 64) with asc := f h.asc, clk := { h.clk with started := true } }

theorem meets_DeadlineCommandsAnswer :
    (∃ (s : State) (n : Fin 16), s.live = true ∧ (s.hub.engine n).run.inprog = true ∧ 8192 ≤ (s.hub.engine n).run.count) ∧
    (∃ (s : State) (n : Fin 16) (len : BitVec 14), s.live = true ∧ s.hub.reserved n = false ∧ (s.hub.engine n).run.spen = true ∧ len ≠ 0 ∧ len.toNat ≤ s.hub.budget n) ∧
    (∃ (s : State) (n : Fin 16) (len : BitVec 14), s.live = true ∧ s.hub.reserved n = false ∧ (s.hub.engine n).run.spen = false ∧ len = 0) ∧
    (∃ rate : Word, rate.toNat = 479 ∧ rate.toNat < 480) ∧ (∃ rate : Word, rate.toNat = 480 ∧ 480 ≤ rate.toNat) ∧
    (∃ (s : State) (n : Fin 16) (len : BitVec 14), s.live = true ∧ s.hub.reserved n = false ∧ (s.hub.engine n).run.spen = true ∧
      tickBudget (s.hub.dom (s.hub.domOf n)).rate < len.toNat ∧ s.hub.cp.fail = none ∧ s.hub.owner = 0 ∧ s.hub.cp.serial.wstat = 0) ∧
    (∃ (s : State) (n : Fin 16) (len : BitVec 14), s.live = true ∧ s.hub.reserved n = false ∧ (s.hub.engine n).run.spen = true ∧ len = 0 ∧
      s.hub.cp.fail = none ∧ s.hub.owner = 1 ∧ s.hub.cp.tunnel.wstat = 0) := by
  refine ⟨⟨onEng 15 fun e => { e with run := { e.run with inprog := true, count := 8192 } }, 15, ?_⟩,
    ⟨onEng 0 fun e => { e with run := { e.run with spen := true } }, 0, 8192, ?_⟩, ⟨st0, 0, 0, ?_⟩, ⟨479, ?_⟩, ⟨480, ?_⟩,
    ⟨onEng 3 fun e => { e with run := { e.run with spen := true } }, 3, 8193, ?_⟩,
    ⟨on fun h => (h.modEng 3 fun e => { e with run := { e.run with spen := true } }).setReg 0x09 1, 3, 0, ?_⟩⟩ <;> decide +kernel

theorem meets_SupplyControlEvaluates :
    let base := fun s : State => s.hub.clk.started = true ∧ s.hub.asc.breach = false ∧ s.hub.fld 0x6F 1 0 = 0 ∧ s.hub.reg 0x6E ≤ s.hub.fld 0x6F 13 8
    (∃ s, base s ∧ s.hub.asc.missed = true) ∧
    (∃ s, base s ∧ s.hub.asc.missed = false ∧ (if s.hub.asc.any then s.hub.asc.slack else 0xFFFF) < s.hub.reg (spc 0x3F 0x100)) ∧
    (∃ s, base s ∧ s.hub.asc.missed = false ∧ s.hub.reg (spc 0x3F 0x100) ≤ 0xFFFF ∧ s.hub.asc.any = false ∧ s.hub.reg (spc 0x3F 0x102) ≤ s.hub.asc.dwell + 1) ∧
    (∃ s, base s ∧ s.hub.asc.missed = false ∧ s.hub.asc.any = false ∧ s.hub.asc.dwell + 1 < s.hub.reg (spc 0x3F 0x102)) := by
  refine ⟨⟨ascOn 63 fun a => { a with missed := true }, ?_⟩, ⟨ascOn 0 fun a => { a with any := true, slack := 0 }, ?_⟩,
    ⟨ascOn 1 fun a => { a with dwell := 0xFFFE }, ?_⟩, ⟨ascOn 0 fun a => a, ?_⟩⟩ <;> decide +kernel

/-- Engine 0 runs on physical engine 0, its program length is `len`, and DOM0 is enabled. -/
def ready (len : Nat) : Hub := (base.setReg (kMapSe 0) 0x8000).setReg (kSe 0 1) len

theorem meets_EngineControlAnswers :
    (∃ (s : State) (n : Fin 16) (w : Word), s.live = true ∧ s.hub.reserved n = false ∧ s.hub.calHolds n = false ∧ s.hub.enableCause n 1 (bits w.toNat 9 8) = none) ∧
    (∃ (s : State) (n : Fin 16), s.live = true ∧ s.hub.reserved n = false ∧ s.hub.enableCause n 0 (bits (s.hub.reg (kSe n 0x100)) 9 8) = none) ∧
    (∃ (s : State) (n : Fin 16) (d : Fin 4), s.live = true ∧ s.hub.reserved n = false ∧ s.hub.enableCause n (bits (s.hub.reg (kSe n 0x100)) 15 15) d = none ∧ d = 3) ∧
    (∃ (s : State) (n : Fin 16), s.live = true ∧ s.hub.reserved n = false ∧ ((s.hub.engine n).bgen = false ∨ (s.hub.engine n).halt ≠ 0)) ∧
    (∃ (s : State) (n : Fin 16), s.live = true ∧ s.hub.reserved n = false ∧ s.hub.bgRuns n = true ∧ (s.hub.engine n).fore.wait = 0) ∧
    (∃ (s : State) (n : Fin 16), s.live = true ∧ s.hub.reserved n = false ∧ s.hub.issues n = true) ∧
    (∃ (s : State) (n : Fin 16), s.live = true ∧ s.hub.reserved n = false ∧ (s.hub.engine n).st = .normal) := by
  refine ⟨⟨st0.withHub (ready 8192), 0, 0x8000, ?_⟩, ⟨st0.withHub (ready 0), 0, ?_⟩, ⟨st0.withHub (ready 0), 0, 3, ?_⟩,
    ⟨st0, 0, ?_⟩, ⟨st0.withHub ((ready 0).modEng 0 fun e => { e with bgen := true }), 0, ?_⟩,
    ⟨st0.withHub ((ready 1).modEng 0 fun e => { e with run := { e.run with inprog := true, count := 8191 } }), 0, ?_⟩, ⟨st0, 15, ?_⟩⟩ <;> decide +kernel

theorem meets_EngineEnableRefusals :
    (∃ (s : State) (n : Fin 16) (w : Word) (c i : Nat), s.live = true ∧ s.hub.reserved n = false ∧ s.hub.calHolds n = false ∧
      (bit (s.hub.reg (kSe n 0x100)) 15 = false ∨ bits w.toNat 9 8 ≠ s.hub.fld (kSe n 0x100) 9 8) ∧
      s.hub.enableCause n 1 (bits w.toNat 9 8) = some (c, i)) ∧
    (∃ h : Hub, h.enableCause 0 1 0 = some (1, 0) ∧ h.reg (kSe 0 1) = 8193) ∧ (∃ h : Hub, h.enableCause 0 0 0 = some (2, 0)) ∧
    (∃ h : Hub, h.enableCause 0 1 1 = some (3, 0)) ∧ (∃ h : Hub, h.enableCause 0 1 0 = some (4, 0)) ∧
    (∃ h : Hub, h.enableCause 0 1 0 = some (5, 31)) ∧ (∃ h : Hub, h.enableCause 0 1 0 = some (6, 63)) ∧ (∃ h : Hub, h.enableCause 0 1 0 = none) := by
  refine ⟨⟨st0.withHub (ready 0), 0, 0x8000, 1, 0, ?_⟩, ⟨ready 8193, ?_⟩, ⟨(ready 1).setReg 0x23 0x80, ?_⟩, ⟨ready 1, ?_⟩,
    ⟨((ready 1).setReg (kSe 0 0x100) 0x100).modEng 0 fun e => { e with run := { e.run with spen := true } }, ?_⟩,
    ⟨(ready 1).setEff (kSe 0 0x21F) 0x8000, ?_⟩, ⟨(ready 1).setEff (kSe 0 0x23F) 0x8000, ?_⟩, ⟨ready 8192, ?_⟩⟩ <;> decide +kernel

theorem meets_SubstitutionAnswers :
    (∃ (s : State) (w : Word), s.live = true ∧ s.hub.spareRefused w.toNat = false ∧ w ≠ 0) ∧
    (∃ (s : State) (n : Fin 16), s.live = true ∧ s.hub.sub.active = none ∧ s.hub.sub.waiting.head? = some n.val ∧ (s.hub.engine n).st = .failing) ∧
    (∃ (s : State) (n : Fin 16) (old new : Nat), s.live = true ∧ s.hub.sub.active = some (n.val, old, new) ∧ s.hub.sub.ready = false ∧
      bit ((s.hub.restore n).reg (kSe n 0x100)) 15 = true) ∧
    (∃ (s : State) (n : Fin 16) (old new : Nat), s.live = true ∧ s.hub.sub.active = some (n.val, old, new) ∧ s.hub.sub.ready = false ∧
      bit ((s.hub.restore n).reg (kSe n 0x100)) 15 = false) := by
  refine ⟨⟨st0, 0x808F, ?_⟩, ⟨on fun h => { h.modEng 3 fun e => { e with st := .failing } with sub := { waiting := [3, 5] } }, 3, ?_⟩,
    ⟨on fun h => { (h.setReg (kSe 3 0x100) 0x8000).imageReg 3 0x40100 with sub := { active := some (3, 3, 15) } }, 3, 3, 15, ?_⟩,
    ⟨on fun h => { h with sub := { active := some (0, 0, 15) } }, 0, 0, 15, ?_⟩⟩ <;> decide +kernel

/-- Both outcomes of ENGINE_RETIRED: a spare is there, or none. -/
theorem meets_SubstitutionAnswers_spare :
    (∃ h : Hub, h.spareEntry = some 1) ∧ (∃ h : Hub, h.spareEntry = none) := by
  refine ⟨⟨(base.setReg (kMapSe 15) 0x800F).setReg 0x23 0x8F00, ?_⟩, ⟨base, ?_⟩⟩ <;> decide +kernel

/-- Engines 3 and 15 on physical engines of their numbers, SE15 reserved in entry `k`. -/
def spareHub (k : Nat) : Hub := ((base.setReg (kMapSe 3) 0x8003).setReg (kMapSe 15) 0x800F).setReg 0x23 (0x8F * 256 ^ k)

/-- Engine 3 waits to be retired. -/
def failingAt (h : Hub) : State := st0.withHub { h.modEng 3 fun e => { e with st := .failing } with sub := { waiting := [3] } }

theorem meets_SpareCommandsComplete :
    (∃ s : State, s.live = true ∧ (∀ m : Fin 16, (s.hub.engine m).st ≠ .failed) ∧ s.hub.spareRefused 0x808F = false) ∧
    (∃ s : State, s.live = true ∧ (∀ m : Fin 16, (s.hub.engine m).st ≠ .failed) ∧ bit (s.hub.reg (kSe 15 0x100)) 15 = true ∧ s.hub.reserved 15 = false) ∧
    (∀ k : Fin 2, ∃ s : State, s.live = true ∧ s.hub.sub.active = none ∧ s.hub.sub.waiting.head? = some (3 : Fin 16).val ∧ (s.hub.engine 3).st = .failing ∧
      s.hub.spareThere k = true ∧ (k = 1 → s.hub.spareThere 0 = false)) ∧
    (∃ s : State, s.live = true ∧ s.hub.sub.active = none ∧ s.hub.sub.waiting.head? = some (3 : Fin 16).val ∧ (s.hub.engine 3).st = .failing ∧
      s.hub.spareThere 0 = false ∧ s.hub.spareThere 1 = false ∧ s.hub.calHolds 3 = false) ∧
    (∀ spen : Bool, ∃ s : State, s.live = true ∧ s.hub.sub.active = some ((3 : Fin 16).val, 3, 15) ∧ s.hub.sub.ready = false ∧
      bit (tget imageReset (s.hub.engine 3).image.regs 0x40100).toNat 15 = spen ∧ (s.hub.engine 3).run.failCause < 16 ∧
      ∀ m : Fin 16, (s.hub.engine m).st ≠ .failed) := by
  refine ⟨⟨st0, ?_⟩, ⟨on fun h => h.setReg (kSe 15 0x100) 0x8000, ?_⟩, fun k => ⟨failingAt (spareHub k), ?_⟩, ⟨failingAt base, ?_⟩,
    fun b => ⟨on fun h => { (h.setReg (kSe 3 0x100) (32768 * b2n b)).imageReg 3 0x40100 with sub := { active := some (3, 3, 15) } }, ?_⟩⟩
  case refine_3 => revert k; decide +kernel
  case refine_5 => revert b; decide +kernel
  all_goals decide +kernel

/-- A spare takes over: SE3 substitutes on physical engine 15, and SE15 has none (R168, R609). -/
theorem test_engine_retired : (match exec (.engineRetired 3) (failingAt (spareHub 0)) with
    | .next t => (t.hub.sub.active, t.hub.hasPe 15, t.hub.reg (kMapSe 3), t.hub.reg 0x23) | _ => (none, true, 0, 0)) = (some (3, 3, 15), false, 0x800F, 0xCF) := by
  decide +kernel

theorem meets_FailingEngineIsDeclared :
    (∃ (s : State) (n : Fin 16), s.live = true ∧ s.hub.reserved n = false ∧ (s.hub.engine n).st = .normal ∧ (s.hub.engine n).shadow.held = []) ∧
    (∃ (s : State) (key : Word), s.live = true ∧ key ≠ 0x00FA ∧ s.hub.cp.fail = none) ∧
    (∃ (s : State) (n : Fin 16), s.live = true ∧ (s.hub.engine n).st ≠ .normal ∧ (s.hub.engine n).shadow.held = [] ∧ s.hub.cp.fail = none) := by
  refine ⟨⟨st0, 0, ?_⟩, ⟨st0, 0x00FB, ?_⟩, ⟨onEng 2 fun e => { e with st := .failed }, 2, ?_⟩⟩ <;> decide +kernel

/-! ### Hypotheses of the statements about engine operations -/

/-- Engine 0 runs its sample program. -/
def runHub : Hub := (ready 8192).modEng 0 fun e =>
  { e with run := { e.run with spen := true, inprog := true, plen := 8192 },
           shadow := { e.shadow with latch := 0x8000, regs := [(69, { v := 0x7000 })] } }

/-- Engine 0 runs background code. -/
def bgHub : Hub := (ready 8192).modEng 0 fun e => { e with bgen := true, fore := { e.fore with latch := 0x8000, regs := [(69, { v := 0x7DF0 })] } }

/-- The words of operations stand in program memory from the PC of a bank on. -/
def place (h : Hub) (bg : Bool) (is : List Instr) : Hub := h.modEng 0 fun e =>
  { e with prog := (is.flatMap slotWords).zipIdx.foldl (fun p w => tput (fun _ => (0 : BitVec 32)) p ((e.bank bg).pc + w.2) w.1) e.prog }

def runOn (i : Instr) : Hub := place runHub false [i]
def runState (i : Instr) : State := st0.withHub (runOn i)
def bgState (i : Instr) : State := st0.withHub (place bgHub true [i])

/-- The operations `b` are gathered, and `i` stands behind them. -/
def bundleOn (b : List Instr) (i : Instr) : State := st0.withHub ((place runHub false (b ++ [i])).modBank 0 false fun x => { x with bundle := b })

/-- The conditions of `Alone` as one decidable value. -/
def aloneB (h : Hub) (n : Nat) (i : Instr) : Bool :=
  (h.engine n).placed false i && h.issues n && (h.engine n).shadow.bundle.isEmpty && opStops i && bundleOk [i] &&
    ((h.engine n).bundleFound [i]).all (fun p => p.2 == .ok) && !(h.engine n).run.discard && (h.engine n).shadow.rep.isNone &&
    (h.slotView n i).bundleWaits [i] == 0

theorem alone_of_aloneB (h : Hub) (n : Nat) (i : Instr) (hb : aloneB h n i = true) : Alone h n i := by
  simp only [aloneB, Bool.and_eq_true, beq_iff_eq, List.isEmpty_iff, Option.isNone_iff_eq_none, Bool.not_eq_true'] at hb
  obtain ⟨⟨⟨⟨⟨⟨⟨⟨h1, h2⟩, h3⟩, h4⟩, h5⟩, h6⟩, h7⟩, h8⟩, h9⟩ := hb
  exact ⟨h1, h2, h3, h4, h5, h6, h7, h8, h9⟩

/-- Heads: end of bundle, and not. -/
def hdS : Hdr := { s := true, pe := false, pn := false, pf := 0 }
def hdN : Hdr := { s := false, pe := false, pn := false, pf := 0 }

/-- Operations of each slot class, in background code or not, with legal operands at the ends of their ranges. -/
def mOps (bg : Bool) : List Instr :=
  [.mpy 0 bg hdS ⟨3, 15, 15, false, true, 3, 3⟩, .mac 0 bg hdS ⟨0, 0, 15, true, false, 0, 0⟩, .msu 0 bg hdS ⟨3, 15, 0, true, false, 1, 1⟩,
   .mpyd 0 bg hdS ⟨3, 14, 15, false, false, 0, 0⟩, .macd 0 bg hdS ⟨0, 0, 15, true, true, 0, 2⟩, .msud 0 bg hdS ⟨3, 14, 0, true, false, 0, 0⟩,
   .aclr 0 bg hdS ⟨3, 0, 0, false, false, 0, 0⟩, .aclr 0 bg hdS ⟨3, 15, 0, false, false, 0, 1⟩, .aclr 0 bg hdS ⟨3, 14, 0, false, false, 0, 2⟩,
   .ashf 0 bg hdS ⟨0, 3, 0, true, false, 0, 31⟩, .ashf 0 bg hdS ⟨0, 3, 0, true, true, 0, 32⟩, .aadd 0 bg hdS ⟨3, 0, 0, true, false, 0, 0⟩,
   .aadd 0 bg hdS ⟨3, 3, 0, true, true, 0, 2⟩, .asub 0 bg hdS ⟨0, 3, 0, true, false, 0, 0⟩]
def xOps (bg : Bool) : List Instr :=
  [.alu 0 bg hdS ⟨15, 15, 15, true, false, 0, 0⟩, .alu 0 bg hdS ⟨0, 0, 15, false, true, 12, 0⟩, .dalu 0 bg hdS ⟨14, 14, 0, true, false, 1, 0⟩,
   .shf 0 bg hdS ⟨15, 0, 15, true, false, 0, 0⟩, .shf 0 bg hdS ⟨0, 15, 15, false, true, 6, 0⟩, .cmp 0 bg hdS ⟨3, 15, 0, false, false, 6, 0⟩,
   .cmp 0 bg hdS ⟨0, 0, 15, false, false, 14, 0⟩, .ins 0 bg hdS ⟨15, 15, 0, false, false, 0, 0⟩, .opMov 0 bg hdS ⟨15, 7, 0, false, false, 1, 0⟩,
   .ldx 0 bg hdS ⟨15, 0xFFFF⟩, .opExt 0 bg hdS ⟨15, 0, 0, true, true, 0, 3⟩, .opExt 0 bg hdS ⟨14, 0, 0, true, false, 2, 0⟩,
   .opExt 0 bg hdS ⟨0, 0, 0, false, false, 4, 3⟩, .acs 0 bg hdS ⟨14, 14, 15, false, false, 15, 3⟩, .acs 0 bg hdS ⟨0, 0, 0, false, false, 0, 0⟩]
def tOps (bg : Bool) : List Instr :=
  [.ld 0 bg hdS ⟨15, 7, true, false, 0, 0⟩, .ld 0 bg { hdS with reads := [.corrected 1] } ⟨14, 0, false, true, 0, 0⟩,
   .ld 0 bg { hdS with reads := [.uncorrectable] } ⟨0, 0, false, false, 0, 0⟩,
   .st 0 bg hdS ⟨15, 7, true, false, 0, 0⟩, .modp 0 bg hdS ⟨0, 7, false, false, 1, 0⟩, .ldi 0 bg hdS ⟨15, 0xFFFF⟩, .ldip 0 bg hdS ⟨7, 0xFFFF⟩,
   .ldio 0 bg hdS ⟨7, 0⟩, .ldib 0 bg hdS ⟨7, 0⟩, .ldil 0 bg hdS ⟨7, 0⟩, .ldir 0 bg hdS ⟨14, 1⟩, .ldir 0 bg hdS ⟨0, 1⟩,
   .fld 0 bg hdS ⟨14, 7, 255, 1⟩, .fst 0 bg hdS ⟨0, 0, 0, 0⟩, .push 0 bg hdS ⟨15, 0, false, false, 0, 0⟩, .pop 0 bg hdS ⟨15, 0, false, false, 0, 0⟩]
def kOps (bg : Bool) : List Instr :=
  [.opNop 0 bg hdS, .opDo 0 bg hdS 4095 0, .dor 0 bg hdS, .call 0 bg hdN 0x7FFF 0x8000FFFF, .ret 0 bg hdS, .wfe 0 bg hdS ⟨0, 0, 15⟩, .sev 0 bg hdS ⟨0, 0, 15⟩,
   .wtc 0 bg hdS ⟨14, 0, 0⟩, .wfc 0 bg hdS, .acstb 0 bg hdS]
def xeOps (bg : Bool) : List Instr :=
  [.asrcPut 0 bg hdS ⟨0, 14, 31⟩, .asrcGet 0 bg hdS ⟨14, 0, 0⟩, .asrcStatus 0 bg hdS ⟨14, 0, 63⟩, .fftSubmit 0 bg hdS ⟨15, 0, 127⟩, .fftPoll 0 bg hdS ⟨15, 15, 0⟩,
   .correlatorSubmit 0 bg hdS ⟨15, 0, 7⟩, .correlatorPoll 0 bg hdS ⟨0, 0, 0⟩, .versionQuery 0 bg hdS ⟨15, 0, 0⟩, .xlOpcode 0 bg hdS 7 ⟨15, 15, 0xFFF⟩]

/-- Every operation of the lists stands alone in a bundle that the running program of engine 0 executes. -/
theorem meets_MultipliesRun_and_AccumulatorOpsRun : ∀ i ∈ mOps false, Alone (runOn i) 0 i := by
  have h : (mOps false).all (fun i => aloneB (runOn i) 0 i) = true := by decide +kernel
  exact fun i hi => alone_of_aloneB _ _ _ (List.all_eq_true.1 h i hi)

theorem meets_XSlotOpsRun : ∀ i ∈ xOps false, Alone (runOn i) 0 i := by
  have h : (xOps false).all (fun i => aloneB (runOn i) 0 i) = true := by decide +kernel
  exact fun i hi => alone_of_aloneB _ _ _ (List.all_eq_true.1 h i hi)

theorem meets_TSlotOpsRun : ∀ i ∈ tOps false, Alone (runOn i) 0 i := by
  have h : (tOps false).all (fun i => aloneB (runOn i) 0 i) = true := by decide +kernel
  exact fun i hi => alone_of_aloneB _ _ _ (List.all_eq_true.1 h i hi)

theorem meets_ControlOpsRun : ∀ i ∈ kOps false, Alone (runOn i) 0 i := by
  have h : (kOps false).all (fun i => aloneB (runOn i) 0 i) = true := by decide +kernel
  exact fun i hi => alone_of_aloneB _ _ _ (List.all_eq_true.1 h i hi)

theorem meets_ExtensionOpsRun : ∀ i ∈ xeOps false, Alone (runOn i) 0 i := by
  have h : (xeOps false).all (fun i => aloneB (runOn i) 0 i) = true := by decide +kernel
  exact fun i hi => alone_of_aloneB _ _ _ (List.all_eq_true.1 h i hi)

/-- Engine 0 runs with its stack bounds at the values that PUSH, CALL, POP and RET just allow: SP is 0x7000. -/
def stackHub (lim top : Nat) (i : Instr) : Hub := ((runOn i).setReg (kSe 0 0x107) lim).setReg (kSe 0 0x106) top

theorem meets_TSlotOpsRun_stack :
    (let i := .push 0 false hdS ⟨15, 0, false, false, 0, 0⟩
     let h := stackHub 0x7000 0x7000 i
     Alone h 0 i ∧ h.reg (kSe 0 0x107) ≤ ((h.slotView 0 i).reg 8 rSP).n) ∧
    (let i := .pop 0 false hdS ⟨0, 0, false, false, 0, 0⟩
     let h := stackHub 0 0x7001 i
     Alone h 0 i ∧ ((h.slotView 0 i).reg 8 rSP).n < h.reg (kSe 0 0x106)) := by
  refine ⟨⟨alone_of_aloneB _ _ _ ?_, ?_⟩, ⟨alone_of_aloneB _ _ _ ?_, ?_⟩⟩ <;> decide +kernel

theorem meets_ControlOpsRun_stack :
    (let i := .opDo 0 false hdS 0 255
     let h := (runOn i).modBank 0 false fun b => { b with depth := 3 }
     Alone h 0 i ∧ (h.slotView 0 i).b.depth < 4) ∧
    (let i := .call 0 false hdN 0 0x8000FFFF
     let h := stackHub (0x7001 - 18) 0x7FFF i
     Alone h 0 i ∧ h.reg (kSe 0 0x107) + 18 ≤ ((h.slotView 0 i).reg 8 rSP).n + 1 ∧ ((List.range 16).filter fun k => (0xFFFF : Word).getLsbD k).length + 2 = 18) ∧
    (let i := .ret 0 false hdS
     let h := stackHub 0 0x7002 i
     let v := h.slotView 0 i
     Alone h 0 i ∧ (v.reg 8 rSP).n + ((List.range 16).filter fun k => bit (v.read 0 ((v.reg 8 rSP).n + 2) .ok).1.n k).length + 2 ≤ h.reg (kSe 0 0x106)) := by
  refine ⟨⟨alone_of_aloneB _ _ _ ?_, ?_⟩, ⟨alone_of_aloneB _ _ _ ?_, ?_⟩, ⟨alone_of_aloneB _ _ _ ?_, ?_⟩⟩ <;> decide +kernel

/-- ECC finds the words of a bundle good. -/
def goodB (e : Engine) (is : List Instr) : Bool := (e.bundleFound is).all fun p => p.2 == .ok

theorem meets_SlotsGatherInTheirBundle :
    ∃ (s : State) (i : Instr) (n : Fin 16), s.live = true ∧ opHome i = some (n, false) ∧ (s.hub.engine n).placed false i = true ∧
      s.hub.issues n = true ∧ opStops i = false ∧ words ((s.hub.engine n).shadow.bundle ++ [i]) < 4 := by
  refine ⟨bundleOn [.mpy 0 false hdN ⟨0, 0, 1, false, false, 0, 0⟩, .mpy 0 false hdN ⟨1, 0, 1, false, false, 0, 0⟩] (.alu 0 false hdN ⟨0, 1, 2, false, false, 0, 0⟩),
    .alu 0 false hdN ⟨0, 1, 2, false, false, 0, 0⟩, 0, ?_⟩; decide +kernel

theorem meets_BundlesExecuteWhole :
    ∃ (s : State) (i : Instr) (n : Fin 16), (s.live = true ∧ opHome i = some (n, false) ∧ (s.hub.engine n).placed false i = true ∧
      s.hub.issues n = true ∧ opStops i = true ∧ (s.hub.engine n).shadow.rep = none ∧
      bundleOk ((s.hub.engine n).shadow.bundle ++ [i]) = true ∧ goodB (s.hub.engine n) ((s.hub.engine n).shadow.bundle ++ [i]) = true ∧
      (s.hub.engine n).run.discard = false ∧
      (((s.hub.modBank n false fun b => { b with bundle := [] }).modEng n fun e => e.land false).viewOf n false
        (lastWord (s.hub.engine n).shadow.pc ((s.hub.engine n).shadow.bundle ++ [i]))).bundleWaits ((s.hub.engine n).shadow.bundle ++ [i]) = 0) ∧
      (∀ j ∈ (s.hub.engine n).shadow.bundle ++ [i], (∀ m b hd f, j ≠ .opRep m b hd f) ∧ ∀ m b hd x, j ≠ .opEnd m b hd x) := by
  refine ⟨bundleOn [.mpy 0 false hdN ⟨0, 0, 1, false, false, 0, 0⟩] (.alu 0 false hdS ⟨0, 1, 2, false, false, 0, 0⟩),
    .alu 0 false hdS ⟨0, 1, 2, false, false, 0, 0⟩, 0, by decide +kernel, ?_⟩
  intro j hj
  have hj : j ∈ [.mpy 0 false hdN ⟨0, 0, 1, false, false, 0, 0⟩, Instr.alu 0 false hdS ⟨0, 1, 2, false, false, 0, 0⟩] := hj
  simp only [List.mem_cons, List.not_mem_nil, or_false] at hj
  rcases hj with rfl | rfl <;> exact ⟨fun _ _ _ _ => nofun, fun _ _ _ _ => nofun⟩

/-- A T slot before the X slot that ends the bundle: the classes stand in the wrong order (R185); and a branch in a sample
program. -/
theorem meets_UndefinedBundlesAreVoid :
    let meets := fun (s : State) (i : Instr) (n : Fin 16) => s.live = true ∧ opHome i = some (n, false) ∧ (s.hub.engine n).placed false i = true ∧
      s.hub.issues n = true ∧ opStops i = true ∧ bundleOk ((s.hub.engine n).shadow.bundle ++ [i]) = false ∧
      goodB (s.hub.engine n) ((s.hub.engine n).shadow.bundle ++ [i]) = true
    (∃ s i n, meets s i n) ∧ (∃ s i n, meets s i n ∧ opLegal false i = false) := by
  refine ⟨⟨bundleOn [.ldi 0 false hdN ⟨0, 1⟩] (.alu 0 false hdS ⟨0, 1, 2, false, false, 0, 0⟩), .alu 0 false hdS ⟨0, 1, 2, false, false, 0, 0⟩, 0, ?_⟩,
    ⟨runState (.br 0 false hdS 0), .br 0 false hdS 0, 0, ?_⟩⟩ <;> decide +kernel

theorem meets_WaitsHoldTheBundle :
    let meets := fun (s : State) (n : Fin 16) (hd : Hdr) (i : Instr) => s.live = true ∧ (s.hub.engine n).placed false i = true ∧ s.hub.issues n = true ∧
      (s.hub.engine n).shadow.bundle = [] ∧ hd.s = true ∧ (s.hub.engine n).run.discard = false ∧ goodB (s.hub.engine n) [i] = true ∧ bundleOk [i] = true
    (∃ (s : State) (f : KW), meets s 0 hdS (.wfe 0 false hdS f) ∧ (s.hub.slotView 0 (.wfe 0 false hdS f)).b.latch.getLsbD f.ev = false) ∧
    (∃ (s : State) (f : KW), let v := s.hub.slotView 0 (.wtc 0 false hdS f)
      meets s 0 hdS (.wtc 0 false hdS f) ∧ (v.pair 0 f.cr).conf = true ∧ v.h.reached f.dom (v.pair 0 f.cr).n = false) ∧
    (∃ s : State, meets s 0 hdS (.wfc 0 false hdS) ∧ (s.hub.slotView 0 (.wfc 0 false hdS)).e.cremaOut false = true) := by
  refine ⟨⟨runState (.wfe 0 false hdS ⟨0, 0, 0⟩), ⟨0, 0, 0⟩, ?_⟩,
    ⟨st0.withHub ((runOn (.wtc 0 false hdS ⟨0, 0, 0⟩)).modBank 0 false fun b => { b with regs := [(1, { v := 1 }), (69, { v := 0x7000 })] }), ⟨0, 0, 0⟩, ?_⟩,
    ⟨st0.withHub ((runOn (.wfc 0 false hdS)).modEng 0 fun e => { e with tags := ⟨{ pending := true, frames := [(0, 1)] }, {}, {}, {}⟩, shadow := { e.shadow with regs := [(0, { v := 1, tags := 1 }), (69, { v := 0x7000 })] } }), ?_⟩⟩ <;> decide +kernel

/-- A MAC under REP of 4,096 repetitions: before the first, before the last, and a REP of one. -/
theorem meets_EndAndRepRun :
    let meets := fun (s : State) (n : Fin 16) (hd : Hdr) (f : KR) => s.live = true ∧ hd.s = true ∧ (s.hub.engine n).placed false (.opRep n false hd f) = true ∧
      s.hub.issues n = true ∧ (s.hub.engine n).run.discard = false ∧
      bundleOk ((s.hub.engine n).shadow.bundle ++ [.opRep n false hd f]) = true ∧
      goodB (s.hub.engine n) ((s.hub.engine n).shadow.bundle ++ [.opRep n false hd f]) = true
    (∃ x : EndIn, Alone (runOn (.opEnd 0 false hdS x)) 0 (.opEnd 0 false hdS x)) ∧
    (∃ s n hd f, meets s n hd f ∧ (s.hub.engine n).shadow.rep = some (0 + 2, true)) ∧
    (∃ s n hd f, meets s n hd f ∧ (s.hub.engine n).shadow.rep = none ∧ f.cm1 ≠ 0) ∧
    (∃ s n hd f, meets s n hd f ∧ (s.hub.engine n).shadow.rep = some (1, false)) ∧
    (∃ s n hd f, meets s n hd f ∧ (s.hub.engine n).shadow.rep = none ∧ f.cm1 = 0) := by
  let mac : Instr := .mac 0 false hdN ⟨0, 0, 1, false, false, 0, 0⟩
  let at_ := fun (f : KR) (r : Option (Nat × Bool)) => st0.withHub ((bundleOn [mac] (.opRep 0 false hdS f)).hub.modBank 0 false fun b => { b with rep := r })
  refine ⟨⟨⟨0xFFFF, 0⟩, alone_of_aloneB _ _ _ (by decide +kernel)⟩, ⟨at_ ⟨true, false, 0, 63⟩ (some (2, true)), 0, hdS, ⟨true, false, 0, 63⟩, ?_⟩,
    ⟨at_ ⟨false, false, 0, 4095⟩ none, 0, hdS, ⟨false, false, 0, 4095⟩, ?_⟩, ⟨at_ ⟨false, false, 0, 7⟩ (some (1, false)), 0, hdS, ⟨false, false, 0, 7⟩, ?_⟩,
    ⟨at_ ⟨false, false, 0, 0⟩ none, 0, hdS, ⟨false, false, 0, 0⟩, ?_⟩⟩ <;> decide +kernel

/-- The hypotheses of the compact operations, as one decidable value. -/
def compactB (h : Hub) (n : Fin 16) (i : Instr) : Bool :=
  let last := lastWord (h.engine n).fore.pc [i]
  opHome i == some (n, true) && (h.engine n).placed true i && h.bgRuns n && (h.engine n).fore.held.isEmpty && (h.engine n).fore.rep.isNone &&
    (h.engine n).fore.branch.isNone && !(h.engine n).fore.undefinedOp i && ((h.engine n).fetchFound (h.engine n).fore.pc i).all (fun p => p.2 == .ok) &&
    (match i with | .opRep .. => false | _ => true) && ((h.viewOf n true last).bundleWaits [i] == 0) &&
    (((h.once n true false [i] last).1.engine n).halt == 0)

theorem meets_CompactOperationsRun :
    (∀ i ∈ mOps true ++ xOps true ++ tOps true ++ kOps true ++ (xeOps true).take 3 ++ [.fftPoll 0 true hdS ⟨15, 15, 0⟩, .correlatorPoll 0 true hdS ⟨0, 0, 0⟩, .br 0 true hdS 0x7FFF, .brp 0 true hdS ⟨0, 7, 0, false, false, 0, 0⟩],
      compactB (bgState i).hub 0 i = true) ∧
    (∃ (s : State) (i : Instr) (n : Fin 16), s.live = true ∧ opHome i = some (n, true) ∧ (s.hub.engine n).placed true i = true ∧ s.hub.bgRuns n = true ∧
      (s.hub.engine n).fore.held = [] ∧ (s.hub.engine n).fore.undefinedOp i = true ∧
      ((s.hub.engine n).fetchFound (s.hub.engine n).fore.pc i).all (fun p => p.2 == .ok) = true) := by
  refine ⟨?_, ⟨bgState (.opEnd 0 true hdS ⟨0, 0⟩), .opEnd 0 true hdS ⟨0, 0⟩, 0, ?_⟩⟩ <;> decide +kernel

/-! ### Hypotheses of the statements about the cluster, live update and far memory -/

def job : Job := { eng := 0, tag := 1, src := 0, dst := 0 }

/-- The reset state with the cluster as `f` makes it; engine 0 has a physical engine. -/
def onClu (f : Cluster → Cluster) : State := st0.withHub { ready 0 with clu := f (ready 0).clu }

theorem meets_ClusterAnswersOpcodes :
    (∃ (h : Hub) (n : Fin 16), (∀ unit, (n.val, unit) ∉ h.clu.stalls) ∧ h.clu.fftq.length < 32 ∧ h.clu.fftq.length = 31) ∧
    (∃ (h : Hub) (n : Fin 16), (∀ unit, (n.val, unit) ∉ h.clu.stalls) ∧ 32 ≤ h.clu.fftq.length) ∧
    (∃ (h : Hub) (n : Fin 16), (∀ unit, (n.val, unit) ∉ h.clu.stalls) ∧ h.clu.corq.length < 4 ∧ h.clu.corq.length = 3) ∧
    (∃ (h : Hub) (n : Fin 16), (∀ unit, (n.val, unit) ∉ h.clu.stalls) ∧ 4 ≤ h.clu.corq.length) ∧
    (∃ (h : Hub) (n : Fin 16) (c : Fin 32), (∀ unit, (n.val, unit) ∉ h.clu.stalls) ∧ h.reg (kAsrc c) ≠ 0x8000 + n) ∧
    (∃ pairs lags : Nat, 1 ≤ pairs ∧ pairs ≤ 4096 ∧ 1 ≤ lags ∧ lags ≤ 1024) ∧ (∃ pairs : Nat, 4096 < pairs) := by
  refine ⟨⟨(onClu fun c => { c with fftq := List.replicate 31 job }).hub, 0, fun _ => nofun, ?_⟩,
    ⟨(onClu fun c => { c with fftq := List.replicate 32 job }).hub, 0, fun _ => nofun, ?_⟩,
    ⟨(onClu fun c => { c with corq := List.replicate 3 job }).hub, 0, fun _ => nofun, ?_⟩,
    ⟨(onClu fun c => { c with corq := List.replicate 4 job }).hub, 0, fun _ => nofun, ?_⟩, ⟨base, 15, 31, fun _ => nofun, ?_⟩,
    ⟨4096, 1024, ?_⟩, ⟨4097, ?_⟩⟩ <;> decide +kernel

theorem meets_ClusterEventsAnswer :
    (∃ (s : State) (j : Job) (q : List Job), s.live = true ∧ s.hub.clu.fftq = j :: q ∧ s.hub.hasPe j.eng = true ∧ j.cal = false) ∧
    (∃ (s : State) (j : Job) (q : List Job), s.live = true ∧ s.hub.clu.corq = j :: q ∧ s.hub.hasPe j.eng = true ∧ j.cal = false) ∧
    (∃ (s : State) (q : XlReq) (qs : List XlReq), s.live = true ∧ s.hub.clu.xl = q :: qs ∧ q.dst = none) ∧
    (∃ (s : State) (q : XlReq) (qs : List XlReq), s.live = true ∧ s.hub.clu.xl = q :: qs ∧ q.dst = some 15) ∧
    (∃ (s : State) (ch : Fin 32), s.live = true ∧ s.hub.fld (kAsrc ch) 15 14 = 0) ∧ (∃ (s : State) (ch : Fin 32), s.live = true ∧ s.hub.fld (kAsrc ch) 15 14 = 2) := by
  refine ⟨⟨onClu fun c => { c with fftq := [job, job] }, job, [job], ?_⟩, ⟨onClu fun c => { c with corq := [job] }, job, [], ?_⟩,
    ⟨onClu fun c => { c with xl := [{ eng := 0, bg := false, op := 7, arg := 0, sa := 0 }] }, { eng := 0, bg := false, op := 7, arg := 0, sa := 0 }, [], ?_⟩,
    ⟨onClu fun c => { c with xl := [{ eng := 0, bg := true, op := 0, arg := 0, sa := 0, dst := some 15 }] }, { eng := 0, bg := true, op := 0, arg := 0, sa := 0, dst := some 15 }, [], ?_⟩,
    ⟨st0, 31, ?_⟩, ⟨on fun h => h.setReg (kAsrc 0) 0x8003, 0, ?_⟩⟩ <;> decide +kernel

/-- COMMIT of program and the pages named by the low bits. -/
def commitHub (pages : List (Nat × Nat)) : Hub :=
  pages.foldl (fun h p => h.setReg (eng 0 (0x51000 + p.1)) p.2) ((base.setReg (eng 0 0x51011) 8192).setReg (eng 0 0x51013) 0x7FFF)

theorem meets_LiveUpdateCommandsAnswer :
    (∃ (s : State) (n : Fin 16), s.live = true ∧ s.hub.reserved n = false) ∧
    (∃ (s : State) (n : Fin 16) (p : Fin 4), s.live = true ∧ s.hub.reserved n = false ∧ bit (s.hub.reg (eng n (0x51000 + p))) 15 = true) ∧
    (∃ (s : State) (n : Fin 16) (w : Word), s.live = true ∧ s.hub.reserved n = false ∧ bits w.toNat 15 12 = 0xC ∧ (bit w.toNat 4 = true ∨ w.toNat % 16 ≠ 0) ∧
      s.hub.commitCause n w.toNat = none) ∧
    (∃ (s : State) (n : Fin 16), s.live = true ∧ s.hub.reserved n = false ∧ (s.hub.engine n).run.spen = true) ∧
    (∃ (s : State) (n : Fin 16), s.live = true ∧ s.hub.reserved n = false ∧ (s.hub.engine n).run.spen = false ∧ bit (s.hub.reg (eng n 0x51104)) 15 = false ∧ s.hub.reg (eng n 0x51102) ≠ 0) ∧
    (∃ (s : State) (n : Fin 16), s.live = true ∧ s.hub.reserved n = false ∧ bit (s.hub.reg (eng n 0x51104)) 15 = true) ∧
    (∃ (s : State) (n : Fin 16) (q : Word), s.live = true ∧ s.hub.reserved n = false ∧ s.hub.quotaSum - s.hub.reg (kDmu n 2) + q.toNat % 2048 = 1600) := by
  refine ⟨⟨st0, 0, ?_⟩, ⟨on fun h => h.setReg (eng 15 0x51003) 0x8000, 15, 3, ?_⟩, ⟨st0.withHub (commitHub [(0, 0), (3, 63)]), 0, 0xC019, ?_⟩,
    ⟨onEng 0 fun e => { e with run := { e.run with spen := true } }, 0, ?_⟩, ⟨on fun h => h.setReg (eng 0 0x51102) 1, 0, ?_⟩,
    ⟨on fun h => h.setReg (eng 0 0x51104) 0x8000, 0, ?_⟩, ⟨on fun h => iter 16 (fun n h => h.setReg (kDmu n 2) 100) h, 0, 100, ?_⟩⟩ <;> decide +kernel

theorem meets_CommitRefusals :
    (∃ (s : State) (n : Fin 16) (w : Word) (c : Nat), s.live = true ∧ s.hub.reserved n = false ∧ bits w.toNat 15 12 = 0xC ∧ (bit w.toNat 4 = true ∨ w.toNat % 16 ≠ 0) ∧
      s.hub.commitCause n w.toNat = some c) ∧
    (commitHub [] |>.setReg (eng 0 0x51011) 8193).commitCause 0 0xC010 = some 1 ∧ (commitHub [] |>.setReg (eng 0 0x51012) 1).commitCause 0 0xC010 = some 2 ∧
    (commitHub [(0, 0x8000)]).commitCause 0 0xC001 = some 3 ∧ (commitHub [(0, 5), (3, 5)]).commitCause 0 0xC009 = some 3 ∧
    ((commitHub []).modEng 0 fun e => { e with commit := some 0xC010 }).commitCause 0 0xC010 = some 4 ∧
    ((commitHub []).modEng 0 fun e => { e with st := .failing }).commitCause 0 0xC010 = some 5 ∧ (commitHub []).commitCause 0 0xC010 = none := by
  refine ⟨⟨st0, 0, 0xC010, 1, ?_⟩, ?_⟩ <;> decide +kernel

/-- A request of a fetch or store, alone in flight; with a translation held, or none. -/
def req (store : Bool) (tr : Option (Nat × Bool)) : FarReq := { store := store, far := 0xFFFFF0, x := 0, n := 16, data := List.replicate 16 1, tr := tr }
def farState (r : FarReq) : State := onEng 0 fun e => { e with infl := [r] }

theorem meets_FarRequestsAnswer :
    (∀ store : Bool, ∃ (s : State) (n : Fin 16) (i : Nat) (x : FarEcc) (r : FarReq), s.live = true ∧ (s.hub.engine n).infl[i]? = some r ∧ r.store = store ∧
      (s.hub.engine n).farTurn i r = true ∧ ∃ h' a, (s.hub.modEng n fun e => { e with infl := e.infl.eraseIdx i }).translate n r x = (h', .ok a)) ∧
    (∀ store : Bool, ∃ (s : State) (n : Fin 16) (i : Nat) (x : FarEcc) (r : FarReq), s.live = true ∧ (s.hub.engine n).infl[i]? = some r ∧ r.store = store ∧
      (s.hub.engine n).farTurn i r = true ∧ ∃ h' c a, (s.hub.modEng n fun e => { e with infl := e.infl.eraseIdx i }).translate n r x = (h', .error (c, a))) ∧
    (∃ (s : State) (n : Fin 16) (t : Fin 4), s.live = true ∧ let tag := (s.hub.engine n).tags.get {} t
      tag.pending = true ∧ (tag.void = true ∨ tag.frames = [])) ∧
    (∃ (r : RVal) (t u : Fin 4), r.tags.getLsbD t = false ∧ r.tags.getLsbD u = true ∧ u ≠ t) := by
  refine ⟨fun b => ⟨farState (req b (some (0, true))), 0, 0, ⟨.ok, .ok, []⟩, req b (some (0, true)), rfl, rfl, rfl, ?_, ?_⟩,
    fun b => ⟨farState (req b none), 0, 0, ⟨.ok, .ok, []⟩, req b none, rfl, rfl, rfl, ?_, ?_⟩,
    ⟨onEng 0 fun e => { e with tags := ⟨{}, {}, {}, { pending := true }⟩ }, 0, 3, by decide +kernel⟩, ⟨{ tags := 8 }, 0, 3, by decide +kernel⟩⟩
  · cases b <;> decide +kernel
  · cases b <;> exact ⟨_, _, rfl⟩
  · cases b <;> decide +kernel
  · cases b <;> exact ⟨_, _, _, rfl⟩

theorem meets_MemoryKeepsItsForm :
    (∃ (e : Engine) (mem a : Nat), mem < 2 ∧ inMem mem a = true ∧ e.parkedStore mem a = none ∧ a = 0x7FFF) ∧
    (∃ (mem a mem' b : Nat), mem < 2 ∧ mem' < 2 ∧ inMem mem a = true ∧ (mem', b) ≠ (mem, a)) ∧
    (∃ (h : Hub) (e : Engine), twf resetWord h.regs ∧ twf (fun _ => 0) h.dram ∧ twf (fun _ => 0) e.x ∧ twf (fun _ => 0) e.y ∧
      twf (fun _ => 0) e.prog) := by
  refine ⟨⟨{}, 0, 0x7FFF, ?_⟩, ⟨0, 0, 1, 0, ?_⟩, ⟨(base.setReg (kSe 0 1) 5).putDram 0 1, ({} : Engine).poke 0 3 4, ?_⟩⟩ <;> decide +kernel

/-! ### Hypotheses of the network's statements -/

/-- The link of port 0 up, the relay open. -/
def netHub : Hub :=
  let h := base.setReg 0x38 8
  { h with net := { h.net with relay := { h.net.relay with closed := false } } }

def withNet (h : Hub) (f : Net → Net) : State := st0.withHub { h with net := f h.net }
def fly0 (n : Nat) : Fly := { id := 7, port := 0, bytes := List.replicate n 0 }
def sent0 (n : Nat) : QFrame := { bytes := List.replicate n 0, port := 2 }

theorem meets_LinksAndFramesAnswer :
    (∀ force ∈ [0, 1, 2], ∃ (s : State) (p : Fin 2), s.live = true ∧ bit (s.hub.reg 0x39) p = true ∧ s.hub.linkUp p = false ∧ s.hub.net.relay.closed = false ∧
      s.hub.fld (kNet (0x400 + 0x10 * p)) 5 4 = force) ∧
    (∀ cut : Bool, ∃ (s : State) (p : Fin 2), s.live = true ∧ s.hub.linkUp p = true ∧ ((s.hub.wire p).any fun w => w.since.isSome) = cut) ∧
    (∃ s : State, s.live = true ∧ s.hub.fld 0x04 15 12 = 3) ∧ (∃ s : State, s.live = true ∧ s.hub.fld 0x04 15 12 < 3) ∧
    (∃ s : State, s.live = true ∧ s.hub.net.relay.sensed ≠ s.hub.net.relay.closed) ∧
    (∃ (s : State) (p : Fin 2), s.live = true ∧ s.hub.linkUp p = true ∧ s.hub.flying = 255) ∧
    (∃ (s : State) (p : Fin 2), s.live = true ∧ s.hub.linkUp p = true ∧ s.hub.flying = 256) ∧
    (∃ (s : State) (i : Fin 256) (f : Fly), s.live = true ∧ s.hub.net.fly[i.val]? = some f ∧ f.decided = false ∧ f.recirc = 0) ∧
    (∃ (s : State) (i : Fin 256) (f : Fly), s.live = true ∧ s.hub.net.fly[i.val]? = some f ∧ f.decided = false ∧ f.recirc ≠ 0 ∧
      (s.hub.recirc f.recirc).head? = some f.id) ∧
    (∀ n ∈ [59, 60, 1996, 1997], ∃ (s : State) (i : Fin 256) (f : Fly), s.live = true ∧ s.hub.net.fly[i.val]? = some f ∧ f.ended = none ∧ f.bytes.length = n ∧
      isPause f.bytes = false) ∧
    (∃ (s : State) (p : Fin 2) (q : Nat) (f : QFrame) (fs : List QFrame), s.live = true ∧ s.hub.cutting p = false ∧ s.hub.linkUp p = true ∧
      let h := s.hub.sentDone p
      h.nextQueue (h.boundQueues 1 p fun q => match (h.queue q).head? with
        | some f => f.fly.isNone && !h.waitsSync p f.bytes
        | none => false) p = some q ∧ h.queue q = f :: fs) := by
  refine ⟨fun k hk => ⟨st0.withHub ((netHub.setReg 0x39 2).setReg (kNet 0x410) (16 * k)), 1, ?_⟩,
    fun c => ⟨withNet netHub fun x => { x with wire := if c then [(0, some { bytes := [], stomp := false, since := some 0 })] else [] }, 0, ?_⟩,
    ⟨on fun h => h.setReg 0x04 0x3000, ?_⟩, ⟨on fun h => h.setReg 0x04 0x2000, ?_⟩, ⟨st0.withHub netHub, ?_⟩,
    ⟨withNet netHub fun x => { x with fly := List.replicate 255 (fly0 60) }, 0, ?_⟩, ⟨withNet netHub fun x => { x with fly := List.replicate 256 (fly0 60) }, 0, ?_⟩,
    ⟨withNet netHub fun x => { x with fly := List.replicate 256 (fly0 60) }, 255, fly0 60, ?_⟩,
    ⟨withNet netHub fun x => { x with fly := [{ fly0 60 with recirc := 9, pass := 1 }], recircs := [(9, [7])] }, 0, { fly0 60 with recirc := 9, pass := 1 }, ?_⟩,
    fun n hn => ⟨withNet netHub fun x => { x with fly := [fly0 n] }, 0, fly0 n, rfl, rfl, rfl, List.length_replicate, ?_⟩,
    ⟨withNet (netHub.setReg (kQue 20) 0x1000) fun x => { x with queues := [(5, [sent0 60, sent0 64])] }, 0, 5, sent0 60, [sent0 64], ?_⟩⟩
  case refine_1 => revert k; decide +kernel
  case refine_2 => revert c; decide +kernel
  case refine_10 => revert n; decide +kernel
  all_goals decide +kernel

/-- The ordinary clock on in state `st`, master `m` in use. -/
def ptpHub (st : Nat) (f : Ptp → Ptp) : Hub := ((netHub.setReg 0x39 0x200).setReg 0x3A st).modPtp f

def ann : PtpAnn := { port := 0, ident := 5, dom := 0, gm := 5, prio1 := 1, cls := 6, acc := 0x20, var := 0, prio2 := 1, steps := 0 }
def peer0 : NetPeer := { v6 := false, addr := 0x0A000001, mac := 1, tags := [] }
def msg (two : Bool) : PtpMsg :=
  { port := 0, ident := 5, dom := 0, seq := 9, twoStep := two, time := 0, corr := 0, stamp := 0, req := ptpHub 9 (fun p => p) |>.portId, peer := peer0 }

/-- A master known since time 0 on port `p`. -/
def foreign0 (p : Nat) (bound : Bool) : Foreign :=
  { ident := 5, port := p, last := 0, bound := bound, gm := 5, prio1 := 1, cls := 6, acc := 0x20, var := 0, prio2 := 1, steps := 0 }

theorem meets_PtpCommandsAnswer :
    (let hears := fun (s : State) (m : PtpAnn) => s.live = true ∧ s.hub.ptpHears = true ∧ s.hub.ptpState ≠ 1 ∧ m.dom.toNat = s.hub.ptpSet 0 ∧
       m.ident.toNat / 65536 ≠ s.hub.clockId
     (∃ s m, hears s m ∧ (∀ x ∈ s.hub.ageMasters.net.ptp.masters, x.ident ≠ m.ident) ∧ s.hub.ageMasters.net.ptp.masters.length < 8) ∧
     (∃ s m x, hears s m ∧ s.hub.ageMasters.net.ptp.masters = [x] ∧ x.ident = m.ident ∧ x.port = m.port.val) ∧
     (∃ s m, hears s m ∧ ∃ x ∈ s.hub.ageMasters.net.ptp.masters, x.ident = m.ident ∧ x.bound = true ∧ x.port ≠ m.port.val)) ∧
    (∀ k ∈ [127, 128], ∃ (s : State) (m : PtpMsg), s.live = true ∧ s.hub.fromMaster m = true ∧ s.hub.net.ptp.syncSec = s.hub.refMs / 1000 ∧ s.hub.net.ptp.syncs = k ∧ m.twoStep = true) ∧
    (∃ (s : State) (m : PtpMsg), s.live = true ∧ s.hub.fromMaster m = true ∧ s.hub.net.ptp.syncSec ≠ s.hub.refMs / 1000 ∧ m.twoStep = false) ∧
    (∃ (s : State) (m : PtpMsg) (w : SyncWait), s.live = true ∧ s.hub.fromMaster m = true ∧ s.hub.net.ptp.wait = some w ∧ w.seq = m.seq) ∧
    (∃ (s : State) (m : PtpMsg) (t3 : Int), s.live = true ∧ s.hub.fromMaster m = true ∧ m.req = s.hub.portId ∧ m.seq = s.hub.net.ptp.reqSeq ∧ s.hub.net.ptp.t3 = some t3 ∧
      s.hub.net.ptp.haveSync = true ∧ s.hub.net.ptp.fresh = false) ∧
    (∃ (s : State) (m : PtpMsg), s.live = true ∧ s.hub.ptpHears = true ∧ s.hub.ptpState = 6 ∧ m.dom.toNat = s.hub.ptpSet 0) ∧
    (∃ s : State, s.live = true ∧ s.hub.ptpOn = true ∧ s.hub.ptpState ≠ 6 ∧ s.hub.ptpState ≠ 1) ∧
    (∃ s : State, s.live = true ∧ s.hub.ptpOn = true ∧ s.hub.ptpState = 6) ∧
    (∃ s : State, s.live = true ∧ s.hub.ptpOn = true ∧ (s.hub.ptpState = 8 ∨ s.hub.ptpState = 9)) ∧
    (∃ s : State, s.live = true ∧ s.hub.ptpState ≠ 8 ∧ s.hub.ptpState ≠ 9) ∧
    (∃ (s : State) (p : BitVec 2), s.live = true ∧ p.toNat < 2 ∧ s.hub.fld 0x39 5 4 ≠ p.toNat) := by
  refine ⟨⟨⟨st0.withHub (ptpHub 4 fun p => p), ann, ?_⟩, ⟨st0.withHub (ptpHub 4 fun p => { p with masters := [foreign0 0 false] }), ann, foreign0 0 false, ?_⟩,
      ⟨st0.withHub (ptpHub 4 fun p => { p with masters := [foreign0 1 true] }), ann, ?_⟩⟩,
    fun k hk => ⟨st0.withHub (ptpHub 9 fun p => { p with parent := some 5, syncs := k }), msg true, ?_⟩,
    ⟨st0.withHub (ptpHub 8 fun p => { p with parent := some 5, syncSec := 1, syncs := 128 }), msg false, ?_⟩,
    ⟨st0.withHub (ptpHub 9 fun p => { p with parent := some 5, wait := some ⟨9, 0, 0⟩ }), msg true, ⟨9, 0, 0⟩, ?_⟩,
    ⟨st0.withHub (ptpHub 9 fun p => { p with parent := some 5, reqSeq := 9, t3 := some 1, haveSync := true }), msg true, 1, ?_⟩,
    ⟨st0.withHub (ptpHub 6 fun p => p), msg true, ?_⟩, ⟨st0.withHub (ptpHub 9 fun p => p), ?_⟩, ⟨st0.withHub (ptpHub 6 fun p => p), ?_⟩,
    ⟨st0.withHub (ptpHub 8 fun p => p), ?_⟩, ⟨st0, ?_⟩, ⟨st0, 1, ?_⟩⟩
  case refine_4 => revert k; decide +kernel
  all_goals decide +kernel

/-- Entry 4 valid in profile 0; its twin place 5 free. -/
def clsHub : Hub := (base.setReg (kEnt 4 31) 0x8000).setReg (kCls 0x11C) 1

def frag0 : FragEntry := { v6 := false, src := 1, dst := 2, ident := 3, proto := 17, seen := 8, total := none, action := 0, latest := 0 }

theorem meets_ClassifierAndQueueWritesAnswer :
    (let twin := fun (h : Hub) (k p : Nat) => ∃ i < 4, k / 4 * 4 + i ≠ k ∧ h.entV (k / 4 * 4 + i) = true ∧ h.entProf (k / 4 * 4 + i) = p ∧ h.entKey (k / 4 * 4 + i) = h.entKey k
     (∃ (s : State) (e : BitVec 14) (p : Fin 8), s.live = true ∧ let h := s.hub.clsFresh (kEnt e.toNat 31)
       h.entV e.toNat = false ∧ ¬ twin h e.toNat p) ∧
     (∃ (s : State) (e : BitVec 14) (p : Fin 8), s.live = true ∧ let h := s.hub.clsFresh (kEnt e.toNat 31)
       h.entV e.toNat = false ∧ twin h e.toNat p)) ∧
    (∃ (s : State) (e : BitVec 14) (p : Fin 8), s.live = true ∧ let h := s.hub.clsFresh (kEnt e.toNat 31)
      h.entV e.toNat = true ∧ h.entProf e.toNat ≠ p) ∧
    (∀ k ∈ [5, 6], ∃ (s : State) (e : BitVec 14), s.live = true ∧ ((s.hub.clsFresh (kEnt e.toNat 23)).setReg (kEnt e.toNat 23) 0).fld (kEnt e.toNat 20) 3 0 = k) ∧
    (∃ w : Word, w.toNat % 16 = 13 ∧ ¬ w.toNat % 16 ≤ 12) ∧ (∃ w : Word, w.toNat % 16 = 0) ∧
    (∃ s : State, s.live = true ∧ ∀ i ∈ s.hub.net.fence, ∀ f, s.hub.flyOf i = some f → f.decided = true) ∧
    (∃ (s : State) (t : Fin 2), s.live = true ∧ s.hub.reg (kCls (0x11C + t)) = 0) ∧ (∃ w : Word, bits w.toNat 7 0 + bits w.toNat 11 8 + 1 = 256) ∧
    (∃ (s : State) (f : Fin 128) (e : FragEntry), s.live = true ∧ s.hub.frag f = some e) ∧
    (∃ (s : State) (p : Fin 2) (q : Fin 1024), s.live = true ∧ s.hub.qKind q = 1 ∧ s.hub.qTarget q = p) ∧
    (∃ (s : State) (r : Fin 16) (q : Nat), s.live = true ∧ tget (fun _ => none) s.hub.net.heads r = some q) ∧
    (∀ len ∈ [1, 1996], ∃ (s : State) (t : Fin 16) (l : Word), s.live = true ∧ s.hub.txBusy t = none ∧ l.toNat = len ∧ s.hub.qKind (s.hub.fld (kTx t 1) 9 0) = 1) ∧
    (∃ l : Word, 1996 < l.toNat ∧ l.toNat = 1997) ∧ (∃ (s : State) (t : Fin 16) (q : Nat) (b : List Byte), s.live = true ∧ s.hub.txBusy t = some (q, b)) := by
  refine ⟨⟨⟨st0, 16383, 7, ?_⟩, ⟨st0.withHub clsHub, 5, 0, ?_⟩⟩, ⟨st0.withHub clsHub, 4, 1, ?_⟩,
    fun k hk => ⟨on fun h => h.setReg (kEnt 0 20) k, 0, ?_⟩, ⟨0xD, ?_⟩, ⟨0, ?_⟩, ⟨st0, rfl, fun i hi => nomatch hi⟩, ⟨st0, 1, ?_⟩, ⟨0x0FF, ?_⟩,
    ⟨withNet base fun x => { x with frags := [(127, some frag0)] }, 127, frag0, ?_⟩,
    ⟨on fun h => h.setReg (kQue 4) 0x1001, 1, 1, ?_⟩, ⟨withNet base fun x => { x with heads := [(15, some 9)] }, 15, 9, ?_⟩,
    fun len hl => ⟨on fun h => h.setReg (kQue 0) 0x1000, 15, BitVec.ofNat 16 len, ?_⟩, ⟨1997, ?_⟩,
    ⟨withNet base fun x => { x with txBusy := [(0, some (3, [1]))] }, 0, 3, [1], ?_⟩⟩
  case refine_4 => revert k; decide +kernel
  case refine_12 => revert len; decide +kernel
  all_goals decide +kernel

/-- Writes of a queue's binding that are allowed and not, at the ends of their ranges. -/
theorem meets_ClassifierAndQueueWritesAnswer_bind :
    let v := fun w : Word => bits w.toNat 15 12 * 4096 + bits w.toNat 7 0
    let bad := fun (s : State) (q : Fin 1024) (w : Word) => 1020 ≤ q.val ∨ bits (v w) 15 12 = 4 ∨ s.hub.holdsFrames q = true ∨
      q.val = s.hub.defTx 0 ∨ q.val = s.hub.defTx 1
    let odd := fun w : Word => 4 < bits (v w) 15 12 ∨ (bits (v w) 15 12 = 1 ∧ 1 < bits (v w) 7 0) ∨ (bits (v w) 15 12 = 2 ∧ 15 < bits (v w) 7 0)
    (∃ (s : State) (q : Fin 1024) (w : Word), s.live = true ∧ v w ≠ s.hub.reg (kQue (4 * q)) ∧ ¬ bad s q w ∧ ¬ odd w ∧ q = 1019) ∧
    (∃ (s : State) (q : Fin 1024) (w : Word), s.live = true ∧ v w ≠ s.hub.reg (kQue (4 * q)) ∧ ¬ bad s q w ∧ odd w ∧ q = 1019) ∧
    (∃ (s : State) (q : Fin 1024) (w : Word), s.live = true ∧ v w ≠ s.hub.reg (kQue (4 * q)) ∧ bad s q w ∧ q = 1020) ∧
    (∃ (s : State) (q : Fin 1024) (w : Word), s.live = true ∧ v w ≠ s.hub.reg (kQue (4 * q)) ∧ bad s q w ∧ q = 1) := by
  refine ⟨⟨st0, 1019, 0x200F, ?_⟩, ⟨st0, 1019, 0x2010, ?_⟩, ⟨st0, 1020, 0x200F, ?_⟩, ⟨st0, 1, 0x2010, ?_⟩⟩ <;> decide +kernel

/-- A stream context that may start as a transmitter: one channel, its slot allocated in DOM0, its queue bound to port 0. -/
def strHub : Hub :=
  ((((netHub.setReg (str 0 0) 0x4000).setEff (kSlot 0 0) 0x8008).setEff (kSlot 0 1) 0).setReg (kQue 0) 0x1000)

def rx0 : RxFrame := { id := 3, index := 0, seq := 0, lane := some 2, res := some true }

theorem meets_LanesAndStreamsAnswer :
    (∃ (s : State) (l : Fin 4) (j : Fin 16) (c id : Nat), s.live = true ∧ (s.hub.lane l).held[j.val]? = some (c, id) ∧
      ((s.hub.modLane l fun x => { x with held := x.held.eraseIdx j }).ctxOf c).frame id = none) ∧
    (∃ (s : State) (l : Fin 4) (j : Fin 16) (c id : Nat) (r : RxFrame), s.live = true ∧ (s.hub.lane l).held[j.val]? = some (c, id) ∧
      ((s.hub.modLane l fun x => { x with held := x.held.eraseIdx j }).ctxOf c).frame id = some r) ∧
    (∃ (s : State) (c : Byte) (i : Nat) (r : RxFrame) (ok : Bool) (l : Nat), s.live = true ∧ (s.hub.ctxOf c.toNat).frames[i]? = some r ∧ r.res = some ok ∧ r.lane = some l ∧ i ≠ 0 ∧ r.lost = false) ∧
    (∃ (s : State) (l : Fin 4), s.live = true ∧ (s.hub.lane l).failed = false ∧ (s.hub.lane l).held ≠ []) ∧
    (∃ (s : State) (c : Byte) (w : Word) (x : Nat), s.live = true ∧ let v := s.hub.strWord c.toNat (putBits w.toNat 15 15 1)
      (s.hub.setReg (str c.toNat 0) v).strCause c.toNat v = some x) ∧
    (∃ (s : State) (c : Byte) (i : Nat) (r r' : RxFrame), s.live = true ∧ (s.hub.ctxOf c.toNat).frames[i]? = some r ∧ (s.hub.ctxOf c.toNat).frame r.id = some r' ∧ r'.res = none) := by
  refine ⟨⟨withNet base fun x => { x with lanes := ⟨{}, {}, {}, { held := List.replicate 16 (255, 1) }⟩ }, 3, 15, 255, 1, ?_⟩,
    ⟨withNet base fun x => { x with lanes := ⟨{ held := [(1, 3)] }, {}, {}, {}⟩, ctx := [(1, { frames := [rx0] })] }, 0, 0, 1, 3, rx0, ?_⟩,
    ⟨withNet base fun x => { x with ctx := [(255, { frames := [rx0, rx0] })] }, 255, 1, rx0, true, 2, ?_⟩,
    ⟨withNet base fun x => { x with lanes := ⟨{ held := [(1, 3)] }, {}, {}, {}⟩ }, 0, ?_⟩, ⟨st0, 0, 0, 4, ?_⟩,
    ⟨withNet base fun x => { x with ctx := [(0, { frames := [{ rx0 with res := none }] })] }, 0, 0, { rx0 with res := none }, { rx0 with res := none }, ?_⟩⟩ <;> decide +kernel

theorem meets_LanesAndStreamsAnswer_start :
    ∃ (s : State) (c : Byte) (w : Word), s.live = true ∧ let v := s.hub.strWord c.toNat (putBits w.toNat 15 15 1)
      (s.hub.setReg (str c.toNat 0) v).strCause c.toNat v = none := by
  refine ⟨st0.withHub strHub, 0, 0x4000, ?_⟩; decide +kernel

/-! ### Hypotheses of the statements about audio ports, the route matrix, analog and field I/O -/

/-- Slot `s` allocated to the name (ty, u) in DOM0. -/
def slot (h : Hub) (s ty u : Nat) : Hub := (h.setEff (kSlot s 0) (0x8000 + ty)).setEff (kSlot s 1) u

/-- AES3 input 0 and output 0 with their slots. -/
def aesHub (n : Nat) : Hub :=
  ((slot (slot (slot (slot base 0 3 0) 1 3 1) 2 7 0) 3 7 1).setReg (kAin 0 0) 0 |>.setReg (kAin 0 1) 1 |>.setReg (kAout 0 0) 2 |>.setReg (kAout 0 1) 3
    |>.modClko 4 fun o => { o with en := true, n := n })

theorem meets_AesCommandsAnswer :
    (∃ (s : State) (i : Fin 2), s.live = true ∧ (s.hub.ain i).en = true) ∧
    (∃ (s : State) (i : Fin 2) (rate : BitVec 32), s.live = true ∧ (s.hub.ain i).en = true ∧ (s.hub.ain i).lock = false ∧ aesClass rate.toNat ≠ 0) ∧
    (∃ (s : State) (i : Fin 2), s.live = true ∧ (s.hub.ain i).en = true ∧ (s.hub.ain i).lock = true) ∧
    (let cfg := fun n : Nat => bits n 15 12 * 4096 + bits n 10 8 * 256
     (∃ (s : State) (i : Fin 2) (w : Word), s.live = true ∧ let on := cfg (putBits w.toNat 15 15 1)
       bit (s.hub.reg (0x42 + i)) 15 = false ∧ (s.hub.dom (bits on 13 12)).en = true ∧ s.hub.ainSlotOk i (bits on 13 12) 0 = true ∧
         s.hub.ainSlotOk i (bits on 13 12) 1 = true ∧ bit on 14 = false) ∧
     (∃ (s : State) (i : Fin 2) (w : Word), s.live = true ∧ let on := cfg (putBits w.toNat 15 15 1)
       bit (s.hub.reg (0x42 + i)) 15 = false ∧ (s.hub.dom (bits on 13 12)).en = false) ∧
     (∃ (s : State) (i : Fin 2) (w : Word), s.live = true ∧ let on := cfg (putBits w.toNat 15 15 1); let old := s.hub.reg (0x42 + i)
       bit old 15 = true ∧ bits on 14 12 ≠ bits old 14 12) ∧
     (∃ (s : State) (i : Fin 2) (w : Word), s.live = true ∧ let on := cfg (putBits w.toNat 15 15 1); let old := s.hub.reg (0x42 + i)
       bit old 15 = true ∧ bits on 14 12 = bits old 14 12)) ∧
    (∃ (s : State) (o : Fin 2), s.live = true ∧ bit (s.hub.reg (0x44 + o)) 15 = false ∧ (s.hub.aoutClk o).en = true ∧ s.hub.aoutMatches o = true ∧
      s.hub.aoutSlotOk o 0 = true ∧ s.hub.aoutSlotOk o 1 = true) ∧
    (∃ (s : State) (o : Fin 2), s.live = true ∧ bit (s.hub.reg (0x44 + o)) 15 = false ∧ (s.hub.aoutClk o).en = false) ∧
    (∃ (s : State) (o : Fin 2), s.live = true ∧ bit (s.hub.reg (0x44 + o)) 15 = true) := by
  refine ⟨⟨on fun h => h.modAin 1 fun x => { x with en := true }, 1, ?_⟩,
    ⟨on fun h => h.modAin 0 fun x => { x with en := true }, 0, 768000, ?_⟩, ⟨on fun h => h.modAin 0 fun x => { x with en := true, lock := true }, 0, ?_⟩,
    ⟨⟨st0.withHub (aesHub 32), 0, 0x0700, ?_⟩, ⟨st0, 1, 0x3000, ?_⟩, ⟨on fun h => h.setReg 0x42 0x8000, 0, 0x7000, ?_⟩,
     ⟨on fun h => h.setReg 0x42 0xF000, 0, 0x7700, ?_⟩⟩,
    ⟨st0.withHub (aesHub 32), 0, ?_⟩, ⟨on fun h => h.modClko 5 fun o => { o with en := false }, 1, ?_⟩, ⟨on fun h => h.setReg 0x44 0x8000, 0, ?_⟩⟩ <;> decide +kernel

/-- A source in slot 0, a sink in slot 5. -/
def rtHub : Hub := slot (slot base 0 0 0) 5 7 0

theorem meets_RouteCommandsAnswer :
    (∃ (s : State) (k : Fin 512) (u : Word), s.live = true ∧ s.hub.slotCause k (s.hub.reg (kSlot k 0)) u.toNat = none) ∧
    (∃ (s : State) (k : Fin 512) (u : Word) (c : Nat), s.live = true ∧ s.hub.slotCause k (s.hub.reg (kSlot k 0)) u.toNat = some c) ∧
    (let put := fun (h : Hub) (x a b c d : Nat) =>
       ((((h.setReg (kXp x 0) a).setReg (kXp x 1) b).setReg (kXp x 2) c).setReg (kXp x 3) (if 1000 < bits d 9 0 then bits (h.eff (kXp x 3)) 9 0 else bits d 9 0))
     (∀ w ∈ [0x8000, 0xC000], ∃ (h : Hub) (x : Fin 4096), let g := put h x w 5 0 1000; g.xpCause x (g.xpWords x) = none ∧ bit (lget 0 (g.xpWords x) 0) 14 = bit w 14) ∧
     (∃ (h : Hub) (x : Fin 4096) (c : Nat), let g := put h x 0x8000 0 0 1001; g.xpCause x (g.xpWords x) = some c)) ∧
    (∃ (s : State) (x : Fin 4096) (r : Ramp), s.live = true ∧ (s.hub.xp x).ramp = some r ∧ r.n ≤ r.j ∧ (s.hub.xp x).removing = true) ∧
    (∃ (s : State) (x : Fin 4096) (r : Ramp), s.live = true ∧ (s.hub.xp x).ramp = some r ∧ r.n ≤ r.j ∧ (s.hub.xp x).removing = false) ∧
    (∃ (s : State) (x : Fin 4096) (old n j : Nat), s.live = true ∧ (s.hub.xp x).fade = some (old, n, j) ∧ n ≤ j ∧ (s.hub.xp x).heldSrc = none) ∧
    (∃ w : Word, w.toNat / 256 = 0x6D) ∧ (∃ w : Word, w.toNat / 256 ≠ 0x6D) ∧ (∃ (s : State) (x : Fin 4096), s.live = true ∧ s.hub.xpActive x = false) ∧
    (∃ (s : State) (k : Fin 512), s.live = true ∧ s.hub.isSink k = false) ∧
    (∃ (s : State) (k : Fin 512) (w : Word), s.live = true ∧ ¬ (s.hub.isSink k = false ∨ (bit (s.hub.reg (kSnk k 5)) 15 = true ∧ bits w.toNat 8 0 ≠ s.hub.fld (kSnk k 5) 8 0)) ∧
      bits w.toNat 8 0 = 240) ∧
    (∃ (s : State) (k : Fin 512) (w : Word), s.live = true ∧ bit (s.hub.reg (kSnk k 5)) 15 = true ∧ bits w.toNat 8 0 ≠ s.hub.fld (kSnk k 5) 8 0) := by
  refine ⟨⟨on fun h => h.setReg (kSlot 511 0) 0x8000, 511, 511, ?_⟩, ⟨on fun h => h.setReg (kSlot 0 0) 0x8000, 0, 512, 4, ?_⟩,
    ⟨fun w hw => ⟨rtHub, 4095, ?_⟩, ⟨rtHub, 0, 2, ?_⟩⟩,
    ⟨on fun h => h.modXp 0 fun e => { e with removing := true, ramp := some ⟨.lin 0, .lin 0, false, 4, 4⟩ }, 0, ⟨.lin 0, .lin 0, false, 4, 4⟩, ?_⟩,
    ⟨on fun h => h.modXp 0 fun e => { e with ramp := some ⟨.lin 0, .lin 0, false, 0, 0⟩ }, 0, ⟨.lin 0, .lin 0, false, 0, 0⟩, ?_⟩,
    ⟨on fun h => h.modXp 9 fun e => { e with fade := some (1, 48, 48) }, 9, 1, 48, 48, ?_⟩, ⟨0x6D00, ?_⟩, ⟨0x6CFF, ?_⟩, ⟨st0, 0, ?_⟩, ⟨st0, 0, ?_⟩,
    ⟨st0.withHub rtHub, 5, 0x80F0, ?_⟩, ⟨on fun h => h.setReg (kSnk 5 5) 0x8000, 5, 1, ?_⟩⟩
  case refine_3 => revert w; decide +kernel
  all_goals decide +kernel

/-- A train line port on, its carrier receiver and sender on. -/
def tlHub : Hub := base.setReg 0x4A 0x0113

theorem meets_AnalogCommandsAnswer :
    (∃ w : Word, bits w.toNat 13 12 = 3) ∧ (∃ w : Word, bits w.toNat 13 12 ≠ 3 ∧ bits w.toNat 5 0 = 60) ∧ (∃ w : Word, bits w.toNat 13 12 ≠ 3 ∧ bits w.toNat 5 0 = 61) ∧
    (∃ (s : State) (n : Fin 8) (g : BitVec 6), s.live = true ∧ s.hub.fld (kAdc n 0) 13 12 ≠ 3 ∧ g.toNat ≤ 60) ∧
    (∃ (u : Fin 10) (n : Fin 8), u.val = n.val) ∧ (∃ (u : Fin 10) (t : Fin 2), u.val = 8 + t.val) ∧
    (∃ (s : State) (n : Fin 8) (ua : Word), s.live = true ∧ s.hub.fld (kAdc n 0) 13 12 = 2 ∧ (s.hub.adc n).bias = true ∧ (if ua.toNat < 50 then (s.hub.adc n).low + 1 else 0) = 10) ∧
    (∃ (s : State) (n : Fin 8) (ua : Word), s.live = true ∧ s.hub.fld (kAdc n 0) 13 12 = 2 ∧ (s.hub.adc n).bias = true ∧ ua = 50 ∧ (if ua.toNat < 50 then (s.hub.adc n).low + 1 else 0) ≠ 10) ∧
    (∃ s : State, s.live = true ∧ 8 ≤ (s.hub.setFld 0x4A 15 15 0).phase) ∧ (∃ s : State, s.live = true ∧ (s.hub.setFld 0x4A 15 15 0).phase = 7) ∧
    (∃ s : State, s.live = true ∧ s.hub.aio.tlRelay.sensed ≠ s.hub.aio.tlRelay.closed) ∧
    (∃ (s : State) (t : Fin 2), s.live = true ∧ bit (s.hub.reg 0x4A) (8 + t) = true ∧ s.hub.tlLive t = true) ∧
    (∀ len ∈ [0, 65], ∃ b : List Byte, byteAt b 1 = len ∧ (len = 0 ∨ 64 < len)) ∧
    (∃ b : List Byte, 1 ≤ byteAt b 1 ∧ byteAt b 1 ≤ 64 ∧ b.length = byteAt b 1 + 4 ∧ cdcCrc (b.take (byteAt b 1 + 2)) ≠ beAt b (byteAt b 1 + 2) 2) ∧
    (∃ b : List Byte, 1 ≤ byteAt b 1 ∧ byteAt b 1 ≤ 64 ∧ b.length = byteAt b 1 + 4 ∧ cdcCrc (b.take (byteAt b 1 + 2)) = beAt b (byteAt b 1 + 2) 2) ∧
    (∃ (s : State) (w : Word) (t : Fin 2), s.live = true ∧ bits w.toNat 15 12 = 0xA ∧ bits w.toNat 8 8 = t.val ∧ bits w.toNat 6 0 = 65) ∧
    (∃ (s : State) (w : Word) (t : Fin 2), s.live = true ∧ bits w.toNat 15 12 = 0xA ∧ bits w.toNat 8 8 = t.val ∧ bits w.toNat 6 0 = 64 ∧ (s.hub.tl t).tx.isSome = true) ∧
    (∃ (s : State) (w : Word) (t : Fin 2), s.live = true ∧ bits w.toNat 15 12 = 0xA ∧ bits w.toNat 8 8 = t.val ∧ bits w.toNat 6 0 = 1 ∧ (s.hub.tl t).tx = none ∧
      bit (s.hub.reg 0x4A) (4 + t) = true ∧ s.hub.tlLive t = true) ∧
    (∀ b : Bool, ∃ (s : State) (t : Fin 2) (m : CdcTx), s.live = true ∧ (s.hub.tl t).tx = some m ∧ m.started = b) := by
  refine ⟨⟨0x3000, ?_⟩, ⟨60, ?_⟩, ⟨61, ?_⟩, ⟨st0, 7, 60, ?_⟩, ⟨7, 7, ?_⟩, ⟨9, 1, ?_⟩,
    ⟨on fun h => (h.setReg (kAdc 0 0) 0x2000).modAdc 0 fun a => { a with bias := true, low := 9 }, 0, 49, ?_⟩,
    ⟨on fun h => (h.setReg (kAdc 0 0) 0x2000).modAdc 0 fun a => { a with bias := true, low := 9 }, 0, 50, ?_⟩,
    ⟨on fun h => h.setReg 0x04 0x8000, ?_⟩, ⟨on fun h => h.setReg 0x04 0x7000, ?_⟩,
    ⟨on fun h => h.modAio fun a => { a with tlRelay := { a.tlRelay with sensed := false } }, ?_⟩, ⟨st0.withHub tlHub, 0, ?_⟩,
    fun len hl => ⟨[0, BitVec.ofNat 8 len], ?_⟩, ⟨[1, 1, 7, 0, 0], ?_⟩,
    ⟨[1, 1, 7] ++ (let c := cdcCrc [1, 1, 7]; [BitVec.ofNat 8 (c / 256), BitVec.ofNat 8 c]), ?_⟩, ⟨st0, 0xA141, 1, ?_⟩,
    ⟨on fun h => h.modTl 0 fun x => { x with tx := some ⟨0, [1], false⟩ }, 0xA040, 0, ?_⟩, ⟨st0.withHub tlHub, 0xA001, 0, ?_⟩,
    fun b => ⟨on fun h => h.modTl 1 fun x => { x with tx := some ⟨0, [1], b⟩ }, 1, ⟨0, [1], b⟩, rfl, rfl, rfl⟩⟩
  case refine_13 => revert len; decide +kernel
  all_goals decide +kernel

/-- Amplifier `n` in state `st` with its enable bit set. -/
def ampHub (n st : Nat) : Hub := (base.setReg 0x4E (2 ^ n)).setReg (kAmp n 1) st

theorem meets_AmplifierAndFieldCommandsAnswer :
    (∃ (s : State) (n : Fin 8) (c : Nat), s.live = true ∧ bit (s.hub.reg 0x4E) n = false ∧ s.hub.isL = false ∧ s.hub.enableRefused 2 (s.hub.fld (kAmp n 0) 8 0) 5 n = some c) ∧
    (∃ (s : State) (n : Fin 8), s.live = true ∧ bit (s.hub.reg 0x4E) n = false ∧ s.hub.isL = false ∧ s.hub.enableRefused 2 (s.hub.fld (kAmp n 0) 8 0) 5 n = none ∧
      ¬ (s.hub.bridged n = true ∧ n.val % 2 = 1) ∧ s.hub.pwr.shed = false) ∧
    (∀ st ∈ [2, 3, 4], ∃ (s : State) (n : Fin 8), s.live = true ∧ bit (s.hub.reg 0x4E) n = true ∧ (s.hub.setFld 0x4E n n 0).ampState n = st ∧ ((s.hub.setFld 0x4E n n 0).ampCh n).ramp = none) ∧
    (∃ (s : State) (n : Fin 8) (sensed : BitVec 8) (p : Nat), s.live = true ∧ s.hub.ampState (s.hub.ampLead n) = 1 ∧
      firstBelow 8 (fun p => p != s.hub.ampLead n && bit sensed.toNat p && !(s.hub.bridged (s.hub.ampLead n) && p == mate (s.hub.ampLead n))) = some p) ∧
    (∃ (s : State) (n : Fin 8) (sensed : BitVec 8), s.live = true ∧ s.hub.ampState (s.hub.ampLead n) = 1 ∧
      firstBelow 8 (fun p => p != s.hub.ampLead n && bit sensed.toNat p && !(s.hub.bridged (s.hub.ampLead n) && p == mate (s.hub.ampLead n))) = none) ∧
    (∀ st ∈ [4, 5], ∃ (s : State) (n : Fin 8), s.live = true ∧ (s.hub.setFld 0x4F n n 1).ampLead n = n ∧ (s.hub.setFld 0x4F n n 1).ampState n = st) ∧
    (∃ (s : State) (n : Fin 8), s.live = true ∧ (s.hub.setFld 0x4F n n 1).ampLead n ≠ n) ∧
    (∃ (s : State) (n : Fin 8), s.live = true ∧ (s.hub.setFld 0x4F n n 0).ampLead n = n ∧ (s.hub.setFld 0x4F n n 0).ampState n = 2) ∧
    (∃ (s : State) (n : Fin 8) (t : RampTo), s.live = true ∧ (s.hub.ampCh n).ramp = some t) ∧
    (∃ (s : State) (n : Fin 8), s.live = true ∧ s.hub.isL = false ∧ bit (s.hub.reg 0x4E) ((s.hub.ampPair n).headD n) = true ∧ s.hub.ampState ((s.hub.ampPair n).headD n) ≠ 6 ∧
      s.hub.ampState ((s.hub.ampPair n).headD n) ≠ 0) ∧
    (∃ (s : State) (w : Word), s.live = true ∧ s.hub.isL = false ∧ w.toNat / 256 = 0x5A) ∧
    (∃ (s : State) (n : Fin 8) (t : Word), s.live = true ∧ s.hub.isL = false ∧ s.hub.ampState (s.hub.ampLead n) = 4 ∧ 150 ≤ t.toInt ∧ (s.hub.ampCh (s.hub.ampLead n)).ramp ≠ some .off) ∧
    (∃ (s : State) (n : Fin 8) (t : Word), s.live = true ∧ s.hub.isL = false ∧ s.hub.ampState (s.hub.ampLead n) = 5 ∧ t.toInt < 130 ∧ (s.hub.ampCh (s.hub.ampLead n)).before = 4) ∧
    (let bad := fun (s : State) (v : BitVec 4) => ∃ b < 4, bit (s.hub.reg 0x52) b ≠ bit v.toNat b ∧ (bit (s.hub.reg 0x4E) (2 * b) = true ∨ bit (s.hub.reg 0x4E) (2 * b + 1) = true)
     (∃ (s : State) (v : BitVec 4), s.live = true ∧ s.hub.isL = false ∧ bad s v) ∧ (∃ (s : State) (v : BitVec 4), s.live = true ∧ s.hub.isL = false ∧ ¬ bad s v)) ∧
    (∃ (s : State) (n p : Fin 8), s.live = true ∧ s.hub.isL = false ∧ n ≠ p ∧ ¬ (s.hub.bridged n = true ∧ p = mate n) ∧ (s.hub.ampState n = 3 ∨ s.hub.ampState n = 4)) ∧
    (∃ (s : State) (i : Fin 16) (mv : Int), s.live = true ∧ let nom := vnom (s.hub.fld (kFin i 0) 2 0)
      (s.hub.fieldIn i).range ≠ 2 ∧ (s.hub.fieldIn i).seen = true ∧ 7 * nom ≤ 10 * mv ∧ bit (s.hub.reg 0x54) i = false ∧
      2 * s.hub.fld (kFin i 0) 15 8 ≤ (s.hub.fieldIn i).differ + 1) ∧
    (∃ (s : State) (o : Fin 8), s.live = true ∧ (s.hub.fieldOut o).on = true) ∧
    (∃ (s : State) (o : Fin 8), s.live = true ∧ s.hub.tripped o = true ∧ bit (s.hub.reg 0x56) o = true ∧ s.hub.fld (kFout o 0) 1 0 ≠ 0) := by
  refine ⟨⟨st0, 7, 2, ?_⟩, ⟨st0.withHub (slot (base.setReg (kAmp 0 0) 9) 9 5 0), 0, ?_⟩,
    fun st hs => ⟨st0.withHub (ampHub 7 st), 7, ?_⟩, ⟨st0.withHub (ampHub 0 1), 0, 0x80, 7, ?_⟩, ⟨st0.withHub (ampHub 0 1), 0, 1, ?_⟩,
    fun st hs => ⟨st0.withHub (ampHub 7 st), 7, ?_⟩, ⟨on fun h => h.setReg 0x52 8, 7, ?_⟩, ⟨st0.withHub (ampHub 0 2), 0, ?_⟩,
    ⟨on fun h => h.modAmp 3 fun a => { a with ramp := some .off }, 3, .off, ?_⟩, ⟨st0.withHub (ampHub 3 4), 3, ?_⟩,
    ⟨st0, 0x5AFF, ?_⟩, ⟨st0.withHub (ampHub 1 4), 1, 150, ?_⟩, ⟨st0.withHub ((ampHub 1 5).modAmp 1 fun a => { a with before := 4 }), 1, 129, ?_⟩,
    ⟨⟨st0.withHub (ampHub 7 4), 8, ?_⟩, ⟨st0, 15, ?_⟩⟩, ⟨st0.withHub (ampHub 0 3), 0, 7, ?_⟩,
    ⟨on fun h => h.modFin 15 fun f => { f with seen := true, differ := 511 }, 15, 100000, ?_⟩, ⟨on fun h => h.modFout 7 fun f => { f with on := true }, 7, ?_⟩,
    ⟨on fun h => ((h.setReg 0x57 0x8000).setReg 0x56 0x80).setReg (kFout 7 0) 1, 7, ?_⟩⟩
  case refine_3 => revert st; decide +kernel
  case refine_6 => revert st; decide +kernel
  all_goals decide +kernel

/-! ### Hypotheses of the statements about calibration, captions, store and background services -/

/-- Calibration on with engine 3; zone 0 has amplifier 0 and microphone 0. -/
def calHub (f : Cal → Cal) : Hub :=
  ((base.setReg 0x5C 0x8003).setEff (kCal 0) 0x8001 |>.setEff (kCal 1) 1).modCal fun c => f { c with on := true }

def calState (f : Cal → Cal) : State := st0.withHub (calHub f)
def win (kind : Nat) (reason : Option Nat) (forced : Bool) : CalWin := { kind := kind, amp := 0, mic := 0, left := 0, last := 0, reason := reason, forced := forced }

theorem meets_CalibrationCommandsAnswer :
    (let h := fun (s : State) (_ : Word) => s.hub
     let n := fun w : Word => bits (putBits w.toNat 15 15 1) 3 0
     (∃ (s : State) (w : Word), s.live = true ∧ s.hub.cal.on = false ∧ ((h s w).reserved (n w) = true ∨ ((h s w).engine (n w)).st ≠ .normal)) ∧
     (∃ (s : State) (w : Word), s.live = true ∧ s.hub.cal.on = false ∧ (h s w).reserved (n w) = false ∧ ((h s w).engine (n w)).st = .normal ∧ ((h s w).engine (n w)).bgen = true) ∧
     (∃ (s : State) (w : Word), s.live = true ∧ s.hub.cal.on = false ∧ (h s w).reserved (n w) = false ∧ ((h s w).engine (n w)).st = .normal ∧ ((h s w).engine (n w)).bgen = false)) ∧
    (∃ (s : State) (w : Word), s.live = true ∧ s.hub.cal.on = true ∧ bits (putBits w.toNat 15 15 0) 3 0 = s.hub.fld 0x5C 3 0) ∧
    (∃ (s : State) (w : Word), s.live = true ∧ s.hub.cal.on = true ∧ bits (putBits w.toNat 15 15 0) 3 0 ≠ s.hub.fld 0x5C 3 0) ∧
    (∃ w : Word, bits w.toNat 7 0 = 241) ∧
    (∃ (s : State) (z : Fin 8) (w : Word), s.live = true ∧ bits w.toNat 7 0 = 240 ∧ (s.hub.setReg (kCal (16 * z) + 4) (bits w.toNat 7 0)).zoneBad z = true) ∧
    (∃ (s : State) (z : Fin 8) (w : Word), s.live = true ∧ bits w.toNat 7 0 ≤ 240 ∧ (s.hub.setReg (kCal (16 * z) + 4) (bits w.toNat 7 0)).zoneBad z = false) ∧
    (∃ (s : State) (kind : BitVec 2) (n m : Fin 8) (w : CalWin) (exc : Int), s.live = true ∧ (s.hub.cal.wins.find? fun w => w.is kind.toNat n m && w.left == 0) = some w ∧
      (s.hub.cal.work.find? fun v => v.is kind.toNat n m) = none ∧ w.reason = none ∧ w.pilot = false ∧ exc = -401 ∧ kind.toNat < 3) ∧
    (∃ (s : State) (kind : BitVec 2) (n m : Fin 8) (w : CalWin) (exc : Int), s.live = true ∧ (s.hub.cal.wins.find? fun w => w.is kind.toNat n m && w.left == 0) = some w ∧
      (s.hub.cal.work.find? fun v => v.is kind.toNat n m) = none ∧ w.reason = none ∧ exc = -400) ∧
    (∀ kind : BitVec 2, kind ≠ 0 → ∃ (s : State) (n m : Fin 8) (w : CalWin) (r : CalRes), s.live = true ∧ (s.hub.cal.work.find? fun w => w.is kind.toNat n m) = some w ∧
      (w.reason.orElse fun _ => if kind.toNat = 2 ∧ r.coh.toNat < (s.hub.modCal fun c => { c with work := c.work.erase w }).reg (kCal 0x700) then some 11 else none) = none ∧
      w.forced = false) ∧
    (∃ (s : State) (kind : BitVec 2) (n m : Fin 8) (w : CalWin), s.live = true ∧ (s.hub.cal.work.find? fun w => w.is kind.toNat n m) = some w ∧ w.reason = some 9) ∧
    (∃ (s : State) (w : Word), s.live = true ∧ bits w.toNat 15 12 = 0xF ∧ s.hub.cal.on = false) ∧
    (∃ (s : State) (w : Word), s.live = true ∧ bits w.toNat 15 12 = 0xF ∧ s.hub.cal.on = true ∧ s.hub.cal.forced = none ∧ bits w.toNat 11 10 ≠ 1 ∧ bits w.toNat 11 10 ≠ 2) ∧
    (∃ (s : State) (w : Word), s.live = true ∧ bits w.toNat 15 12 = 0xF ∧ s.hub.cal.on = true ∧ s.hub.cal.forced = none ∧ bits w.toNat 11 10 = 2 ∧
      s.hub.zoneOfAmp (bits w.toNat 6 4) ≠ none ∧ s.hub.zoneOfMic (bits w.toNat 2 0) = s.hub.zoneOfAmp (bits w.toNat 6 4)) := by
  refine ⟨⟨⟨on fun h => h.setReg 0x23 0x80, 0x8000, ?_⟩, ⟨onEng 15 fun e => { e with bgen := true }, 15, ?_⟩, ⟨st0, 15, ?_⟩⟩,
    ⟨calState id, 3, ?_⟩, ⟨calState id, 4, ?_⟩, ⟨241, ?_⟩, ⟨on fun h => h.setReg (kCal 0x70) 0x8000, 7, 240, ?_⟩, ⟨st0, 0, 240, ?_⟩,
    ⟨calState fun c => { c with wins := [win 2 none false] }, 2, 0, 0, win 2 none false, -401, ?_⟩,
    ⟨calState fun c => { c with wins := [win 1 none false] }, 1, 0, 0, win 1 none false, -400, ?_⟩,
    fun k hk => ⟨calState fun c => { c with work := [win k.toNat none false] }, 0, 0, win k.toNat none false, { coh := 1023 }, ?_⟩,
    ⟨calState fun c => { c with work := [win 3 (some 9) false] }, 3, 0, 0, win 3 (some 9) false, ?_⟩, ⟨st0, 0xF000, ?_⟩,
    ⟨calState id, 0xFC00, ?_⟩, ⟨calState id, 0xF800, ?_⟩⟩
  case refine_11 => revert k; decide +kernel
  all_goals decide +kernel

theorem meets_CalibrationCommandsAnswer_forced :
    (∃ (s : State) (f : Forced) (exc : Int), s.live = true ∧ s.hub.cal.forced = some f ∧ f.st = .measuring ∧ exc = -401 ∧ rateHz (s.hub.dom s.hub.calDom).rate < 44100) ∧
    (∃ (s : State) (f : Forced) (exc : Int), s.live = true ∧ s.hub.cal.forced = some f ∧ f.st = .measuring ∧ exc = -401 ∧ 44100 ≤ rateHz (s.hub.dom s.hub.calDom).rate) ∧
    (∃ (s : State) (f : Forced), s.live = true ∧ s.hub.cal.forced = some f ∧ f.st = .fadeIn) ∧
    (∃ (s : State) (n : Fin 8), s.live = true ∧ bit (s.hub.reg 0x5C) 11 = true ∧ bit (s.hub.reg 0x48) n = true ∧ s.hub.reg (kTrimSt n) = 0) ∧
    (∃ (s : State) (n : Fin 8), s.live = true ∧ bit (s.hub.reg 0x5C) 11 = true ∧ bit (s.hub.reg 0x48) n = true ∧ s.hub.reg (kTrimSt n) = 1 ∧ (s.hub.adc n).biasf = false ∧
      s.hub.fld (kAdc n 3) 5 0 = s.hub.fld (kAdc n 0) 5 0) ∧
    (∃ (s : State) (n : Fin 8) (t : Trim), s.live = true ∧ tget (fun _ => none) s.hub.cal.trims n.val = some t ∧ s16 (s.hub.reg (kAdc n 4)) = t.target ∧ t.wanted = t.target) := by
  refine ⟨⟨st0.withHub ((calHub fun c => { c with forced := some ⟨1, 0, 0, .measuring, false⟩ }).modDom 0 fun m => { m with rate := 2 }), ⟨1, 0, 0, .measuring, false⟩, -401, ?_⟩,
    ⟨calState fun c => { c with forced := some ⟨1, 0, 0, .measuring, false⟩ }, ⟨1, 0, 0, .measuring, false⟩, -401, ?_⟩,
    ⟨calState fun c => { c with forced := some ⟨2, 0, 0, .fadeIn, true⟩ }, ⟨2, 0, 0, .fadeIn, true⟩, ?_⟩,
    ⟨on fun h => (h.setReg 0x5C 0x0800).setReg 0x48 0x80, 7, ?_⟩, ⟨on fun h => ((h.setReg 0x5C 0x0800).setReg 0x48 1).setReg (kTrimSt 0) 1, 0, ?_⟩,
    ⟨calState fun c => { c with trims := [(7, some ⟨5, 0, 0⟩)] }, 7, ⟨5, 0, 0⟩, ?_⟩⟩ <;> decide +kernel

theorem meets_CaptionCommandsAnswer :
    (let other := fun s : State => (s.hub.clko 7).en = true ∧ ((s.hub.clko 7).dom ≠ 0 ∨ s.hub.reg (kClko 7 0) ≠ 16 ∨ s.hub.fld (kClko 7 1) 0 0 ≠ 0)
     (∃ (s : State) (p : Fin 2), s.live = true ∧ bit (s.hub.reg 0x60) p = false ∧ s.hub.modeValid p (s.hub.reg (0x64 + p)) = false) ∧
     (∃ (s : State) (p : Fin 2), s.live = true ∧ bit (s.hub.reg 0x60) p = false ∧ s.hub.modeValid p (s.hub.reg (0x64 + p)) = true ∧ other s) ∧
     (∃ (s : State) (p : Fin 2), s.live = true ∧ bit (s.hub.reg 0x60) p = false ∧ s.hub.modeValid p (s.hub.reg (0x64 + p)) = true ∧ ¬ other s)) ∧
    (∃ (s : State) (p : Fin 2), s.live = true ∧ bit (s.hub.reg 0x60) p = true ∧ ((s.hub.setFld 0x60 p p 0).portStop p 1).capHolds = true) ∧
    (∃ (s : State) (p : Fin 2), s.live = true ∧ bit (s.hub.reg 0x60) p = true ∧ ((s.hub.setFld 0x60 p p 0).portStop p 1).capHolds = false) ∧
    (∃ (s : State) (p : Fin 2) (m : BitVec 4), s.live = true ∧ s.hub.capH p % (if bit m.toNat 2 then 16 else 8) = 0) ∧
    (∃ (s : State) (p : Fin 2) (m : BitVec 4), s.live = true ∧ s.hub.capH p % (if bit m.toNat 2 then 16 else 8) ≠ 0) ∧
    (∃ (s : State) (p : Fin 2), s.live = true ∧ (s.hub.cport p).run = true ∧ (s.hub.cport p).left = 0) ∧
    (∃ (s : State) (p : Fin 2), s.live = true ∧ (s.hub.cport p).run = true ∧ 0 < (s.hub.cport p).left ∧ (s.hub.cport p).left = 1) ∧
    (∃ c : Fin 64, c.val = 56) ∧
    (let h := fun (s : State) (c : Fin 64) (hi : Word) => iter 3 (fun i h => h.enforce (kCue c i)) (s.hub.setReg (kCue c 2) hi.toNat)
     (∃ (s : State) (c : Fin 64) (hi : Word), s.live = true ∧ c.val = 55 ∧ bit ((h s c hi).eff (kCue c 0)) 15 = false) ∧
     (∃ (s : State) (c : Fin 64) (hi : Word), s.live = true ∧ bit ((h s c hi).eff (kCue c 0)) 15 = true ∧ (h s c hi).cueLate c < 0) ∧
     (∃ (s : State) (c : Fin 64) (hi : Word), s.live = true ∧ bit ((h s c hi).eff (kCue c 0)) 15 = true ∧ 0 ≤ (h s c hi).cueLate c ∧ (h s c hi).cueLate c ≤ (h s c hi).reg (kCap 0x80300))) := by
  refine ⟨⟨⟨on fun h => (h.setReg 0x65 4).setReg (kPort 1 0) 0, 1, ?_⟩, ⟨on fun h => h.modClko 7 fun o => { o with en := true, dom := 1 }, 0, ?_⟩, ⟨st0, 0, ?_⟩⟩,
    ⟨on fun h => h.setReg 0x60 3, 0, ?_⟩, ⟨on fun h => h.setReg 0x60 2, 1, ?_⟩, ⟨on fun h => h.setReg (kPort 0 0) 1, 0, 4, ?_⟩, ⟨on fun h => h.setReg (kPort 0 0) 0, 0, 4, ?_⟩,
    ⟨on fun h => h.modPort 1 fun c => { c with run := true }, 1, ?_⟩, ⟨on fun h => h.modPort 0 fun c => { c with run := true, left := 1 }, 0, ?_⟩, ⟨56, ?_⟩,
    ⟨⟨st0, 55, 0, ?_⟩, ⟨on fun h => h.setReg (kCue 0 0) 0x8000, 0, 1, ?_⟩, ⟨on fun h => h.setReg (kCue 0 0) 0x8000, 0, 0, ?_⟩⟩⟩ <;> decide +kernel

/-- A mounted store as `f` makes it. -/
def carHub (part id arg : Nat) (f : Store → Store) : Hub :=
  (((base.setReg (kCar 0x1001) part).setReg (kCar 0x1002) id).setEffN (kCar 0x1003) 2 arg).modNand fun n => f { n with avail := some true }
def carState (part id arg : Nat) (f : Store → Store) : State := st0.withHub (carHub part id arg f)
def obj1 : NandObj := { len := 4096, pages := [List.replicate 8 1], gen := 1, crc := 0 }
def obj1Store (n : Store) : Store := { n with objs := [(0, some obj1)], blocks := [(63, { reads := 99998, pages := [(0, 0, 1)] })] }

theorem meets_StoreCommandsAnswer :
    (∃ s : State, s.live = true ∧ s.hub.nand.busy = none ∧ s.hub.nand.avail ≠ some true) ∧
    (∃ s : State, s.live = true ∧ s.hub.nand.busy = none ∧ s.hub.nand.avail = some true ∧ s.hub.nand.closed = true) ∧
    (∃ s : State, s.live = true ∧ s.hub.nand.busy = none ∧ s.hub.nand.avail = some true ∧ s.hub.nand.closed = false ∧ s.hub.carOk = true ∧ s.hub.nand.sess = none ∧
      s.hub.carArg = partMax (s.hub.reg (kCar 0x1001)) ∧ 1 ≤ s.hub.carArg) ∧
    (∃ (s : State) (t : Session) (n : Store), s.live = true ∧ s.hub.nand.busy = none ∧ s.hub.nand.avail = some true ∧ s.hub.nand.closed = false ∧ s.hub.nand.sess = some t ∧
      t.pages.length < pagesFor t.len ∧ s.hub.nand.addPage (t.obj / 4096) (t.obj, t.pages.length, t.gen) false = some n) ∧
    (∃ (s : State) (t : Session), s.live = true ∧ s.hub.nand.busy = none ∧ s.hub.nand.avail = some true ∧ s.hub.nand.closed = false ∧ s.hub.nand.sess = some t ∧
      pagesFor t.len = t.pages.length) ∧
    (∃ (s : State) (v : NandObj), s.live = true ∧ s.hub.nand.busy = none ∧ s.hub.nand.avail = some true ∧ s.hub.nand.closed = false ∧ s.hub.carOk = true ∧
      s.hub.nand.obj s.hub.carObj = some v ∧ v.pages.length ≤ s.hub.carArg ∧ s.hub.carArg = v.pages.length) ∧
    (∃ (s : State) (v : NandObj), s.live = true ∧ s.hub.nand.busy = none ∧ s.hub.nand.avail = some true ∧ s.hub.nand.closed = false ∧ s.hub.carOk = true ∧
      s.hub.nand.obj s.hub.carObj = some v ∧ s.hub.carArg < v.pages.length ∧
      (s.hub.nand.block (((partBlocks (s.hub.carObj / 4096)).find? fun b => (s.hub.nand.block b).pages.contains (s.hub.carObj, s.hub.carArg, v.gen)).getD 0)).reads + 1 < 100000) ∧
    (∃ (s : State) (e : Nat) (b : List Byte), s.live = true ∧ s.hub.nand.busy = none ∧ s.hub.nand.avail = some true ∧ s.hub.nand.closed = false ∧ s.hub.nand.log[s.hub.carArg]? = some (e, b)) ∧
    (∃ s : State, s.live = true ∧ s.hub.nand.busy ≠ none) ∧ (∃ (s : State) (cmd r id : Nat), s.live = true ∧ s.hub.nand.busy = some (cmd, r, id) ∧ s.hub.pwr.boot.wait ≠ .fload) := by
  refine ⟨⟨st0, ?_⟩, ⟨carState 0 0 0 fun n => { n with closed := true }, ?_⟩, ⟨carState 1 0 (14 * 2 ^ 20) id, ?_⟩,
    ⟨carState 0 0 0 fun n => { n with sess := some ⟨0, 4096, 1, []⟩ }, ⟨0, 4096, 1, []⟩,
      (carHub 0 0 0 fun n => { n with sess := some ⟨0, 4096, 1, []⟩ }).nand.addPage 0 (0, 0, 1) false |>.getD {}, ?_⟩,
    ⟨carState 0 0 0 fun n => { n with sess := some ⟨0, 4096, 1, [[]]⟩ }, ⟨0, 4096, 1, [[]]⟩, ?_⟩,
    ⟨carState 0 0 1 obj1Store, obj1, ?_⟩, ⟨carState 0 0 0 obj1Store, obj1, ?_⟩, ⟨carState 0 0 0 fun n => { n with log := [(1664, [1])] }, 1664, [1], ?_⟩,
    ⟨carState 0 0 0 fun n => { n with busy := some (9, 0, 1) }, ?_⟩, ⟨carState 0 0 0 fun n => { n with busy := some (9, 0, 1) }, 9, 0, 1, ?_⟩⟩ <;> decide +kernel

/-- The scrubber on, with its positions. -/
def scrState (chip dram : Nat) : State := on fun h => { h.setReg 0x68 0x8000 with scr := { chip := chip, dram := dram } }

theorem meets_BackgroundServicesAnswer :
    (∃ s : State, s.live = true ∧ bit (s.hub.reg 0x68) 15 = true ∧ (s.hub.scrubDram s.hub.scr.dram .ok .other).scr.dram + 1 < dramUnits) ∧
    (∃ s : State, s.live = true ∧ bit (s.hub.reg 0x68) 15 = true ∧ dramUnits = (s.hub.scrubDram s.hub.scr.dram .ok .other).scr.dram + 1) ∧
    (∃ s : State, s.live = true ∧ bit (s.hub.reg 0x68) 15 = true ∧ (s.hub.scrubChip (chipUnit s.hub.scr.chip) .ok .other).scr.chip + 1 < chipUnits) ∧
    (∃ s : State, s.live = true ∧ bit (s.hub.reg 0x68) 15 = true ∧ chipUnits = (s.hub.scrubChip (chipUnit s.hub.scr.chip) .ok .other).scr.chip + 1) ∧
    (∃ s : State, s.live = true ∧ s.hub.pwr.running = true ∧ s.hub.nand.avail = none ∧ s.hub.nand.log ≠ []) ∧
    (∃ s : State, s.live = true ∧ bit (s.hub.reg 0x6A) 15 = true ∧ s.hub.nand.avail = some true ∧ s.hub.rcd.frozen = true) ∧
    (∃ (s : State) (x : LogIn), s.live = true ∧ bit (s.hub.reg 0x6A) 15 = true ∧ s.hub.nand.avail = some true ∧ s.hub.rcd.frozen = false ∧ s.hub.rcd.closed = false ∧
      s.hub.rcd.closing = false ∧ x.late = false ∧ bit (s.hub.reg 0x6A) 14 = false) ∧
    (∃ (s : State) (e : Fin 64), s.live = true ∧ let w := s.hub.reg (kTel (0x400010 + 2 * e))
      bit (s.hub.reg 0x6C) 15 = true ∧ s.hub.reg (kTel (0x400011 + 2 * e)) ≠ 0 ∧ bits w 14 8 ≠ 3 ∧ bits w 14 8 ≠ 0xC ∧ bits w 14 8 ≠ 0x10) ∧
    (∃ s : State, s.live = true ∧ bit (s.hub.reg 0x6C) 14 = true ∧ s.hub.telCnt ≤ s.hub.tel.next + 2 ^ 20 ∧ min (s.hub.fld (kTel 0x400101) 7 0) (s.hub.telCnt - s.hub.tel.next) ≠ 0) := by
  refine ⟨⟨scrState 0 0, ?_⟩, ⟨scrState 0 (dramUnits - 1), ?_⟩, ⟨scrState 0 0, ?_⟩, ⟨scrState (chipUnits - 1) 0, ?_⟩,
    ⟨on fun h => { h with pwr := { h.pwr with running := true }, nand := { h.nand with log := [(1664, [1])] } }, ?_⟩,
    ⟨on fun h => { h.setReg 0x6A 0x8000 with nand := { h.nand with avail := some true }, rcd := { h.rcd with frozen := true } }, ?_⟩,
    ⟨on fun h => { h.setReg 0x6A 0x8000 with nand := { h.nand with avail := some true } }, {}, ?_⟩,
    ⟨on fun h => ((h.setReg 0x6C 0x8000).setReg (kTel (0x400010 + 126)) 0).setReg (kTel (0x400011 + 126)) 1, 63, ?_⟩,
    ⟨on fun h => ((h.setReg 0x6C 0x4000).setReg (kTel 0x400101) 1).addWrap (kTel 0x400000) 3 (2 ^ 20), ?_⟩⟩ <;> decide +kernel

/-! ### Hypotheses of the statements about supply, start-up, the control port and the event queue -/

/-- The reset state with the supply's state as `f` makes it. -/
def pwrHub (f : Power → Power) : Hub := { base with pwr := f base.pwr }
def pwrState (f : Power → Power) : State := st0.withHub (pwrHub f)

/-- A loaded OTP, an input qualified and 250 ms of hold-up. -/
def roastHub : Hub :=
  let h := (pwrHub fun p => { p with dc := true }).setReg 0x75 250
  { h with otp := { h.otp with loaded := true } }

/-- A Roast of slot 8, generation 0, that burns a payload of zeros. -/
def roast8 : Roast := { slot := 8, gen := 0, lock := true, payload := List.replicate 32 0, check := 37132 }

theorem crc_step (a c c' : Nat) (l m : List Byte) (h : crcBytes 16 0x1021 a l = c) (h' : crcBytes 16 0x1021 c m = c') :
    crcBytes 16 0x1021 a (l ++ m) = c' := by
  rw [crcBytes, List.foldl_append]; rw [crcBytes] at h; rw [h]; exact h'

/-- The check word of slot 8, generation 0 over zeros, 16 bytes at a time. -/
theorem roast8_check : otpCheck 8 0 (List.replicate 32 0) = 37132 := by
  have h0 : crcBytes 16 0x1021 0xFFFF [8, 0] = 38054 := by decide +kernel
  have h1 : crcBytes 16 0x1021 38054 (List.replicate 16 0) = 46276 := by decide +kernel
  have h2 : crcBytes 16 0x1021 46276 (List.replicate 16 0) = 2068 := by decide +kernel
  have h3 : crcBytes 16 0x1021 2068 (List.replicate 16 0) = 50365 := by decide +kernel
  have h4 : crcBytes 16 0x1021 50365 (List.replicate 16 0) = 37132 := by decide +kernel
  have h := crc_step _ _ _ _ _ (crc_step _ _ _ _ _ (crc_step _ _ _ _ _ (crc_step _ _ _ _ _ h0 h1) h2) h3) h4
  have hb : [8, 0] ++ List.replicate 16 0 ++ List.replicate 16 0 ++ List.replicate 16 0 ++ List.replicate 16 (0 : Byte) =
      BitVec.ofNat 8 8 :: BitVec.ofNat 8 0 :: (List.replicate 32 (0 : Word)).flatMap fun w => [BitVec.ofNat 8 (w.toNat / 256), BitVec.ofNat 8 w.toNat] := by decide +kernel
  rw [hb] at h; rw [otpCheck, h]; rfl

theorem meets_SupplyAndRoastCommandsAnswer_done :
    ∃ (s : State) (r : Roast), s.live = true ∧ s.hub.otp.roast = some r ∧ (s.hub.burn r.slot r.gen none r.words 0).1.otpClass r.slot r.gen = 1 := by
  refine ⟨st0.withHub { roastHub with otp := { roastHub.otp with roast := some roast8 } }, roast8, rfl, rfl, ?_⟩
  have hp : (({ roastHub with otp := { roastHub.otp with roast := some roast8 } } : Hub).burn 8 0 none roast8.words 0).1.otpPayload 8 0 = List.replicate 32 0 := by decide +kernel
  show Hub.otpClass _ 8 0 = 1
  rw [Hub.otpClass]
  rw [if_neg (by decide +kernel), if_pos (by decide +kernel), if_pos]
  show _ = otpCheck 8 0 (Hub.otpPayload (({ roastHub with otp := { roastHub.otp with roast := some roast8 } } : Hub).burn 8 0 none roast8.words 0).1 8 0)
  rw [hp, roast8_check]; decide +kernel

theorem meets_SupplyAndRoastCommandsAnswer :
    (∃ (s : State) (ac : Bool), (if ac then s.hub.pwr.ac else s.hub.pwr.dc) = false ∧ s.hub.pwr.loss = false) ∧
    (∃ (s : State) (ac : Bool), (if ac then s.hub.pwr.ac else s.hub.pwr.dc) = false ∧ s.hub.pwr.loss = true) ∧
    (∃ (s : State) (ac : Bool), (if ac then s.hub.pwr.ac else s.hub.pwr.dc) = true ∧ (if ac then s.hub.pwr.dc else s.hub.pwr.ac) = true) ∧
    (∃ (s : State) (ac : Bool), (if ac then s.hub.pwr.ac else s.hub.pwr.dc) = true ∧ (if ac then s.hub.pwr.dc else s.hub.pwr.ac) = false ∧
      s.hub.pwr.running = true ∧ s.hub.pwr.loss = false) ∧
    (∃ s : State, s.live = true ∧ s.hub.pwr.loss = true ∧ s.hub.pwr.shed = false) ∧ (∃ s : State, s.live = true ∧ s.hub.pwr.shed = true ∧ s.hub.pwr.released = false) ∧
    (let g := fun (s : State) (r h a : Word) => (((s.hub.setReg (kPwr 0xA) r.toNat).setReg (kPwr 0xB) h.toNat).setReg (kPwr 0xC) a.toNat).derate h.toInt
     (∃ (s : State) (r h a : Word), s.live = true ∧ (g s r h a).pwr.hot = false ∧ r.toInt = 120) ∧ (∃ (s : State) (r h a : Word), s.live = true ∧ (g s r h a).pwr.hot = true ∧ r.toInt = 114) ∧
     (∃ (s : State) (r h a : Word), s.live = true ∧ (g s r h a).pwr.hot = false ∧ r.toInt = 119)) ∧
    (∃ (s : State) (w : Word) (c : Nat), s.live = true ∧ bits w.toNat 15 12 = 0xB ∧ s.hub.roastCause (bits w.toNat 3 0) = some c) ∧
    (∃ (s : State) (w : Word) (g : Nat), s.live = true ∧ let slot := bits w.toNat 3 0; let h := s.hub.setReg (kOtp 0x1001) (s.hub.reg 0x75)
      bits w.toNat 15 12 = 0xB ∧ s.hub.roastCause slot = none ∧ s.hub.otpTarget slot = some g ∧ h.holdupProof = false) ∧
    (∃ (s : State) (w : Word) (g : Nat), s.live = true ∧ let slot := bits w.toNat 3 0; let h := s.hub.setReg (kOtp 0x1001) (s.hub.reg 0x75)
      bits w.toNat 15 12 = 0xB ∧ s.hub.roastCause slot = none ∧ s.hub.otpTarget slot = some g ∧ h.holdupProof = true ∧ h.otpBlank slot g = true) ∧
    (∃ (s : State) (w : Word) (g : Nat), s.live = true ∧ let slot := bits w.toNat 3 0; let h := s.hub.setReg (kOtp 0x1001) (s.hub.reg 0x75)
      bits w.toNat 15 12 = 0xB ∧ s.hub.roastCause slot = none ∧ s.hub.otpTarget slot = some g ∧ h.holdupProof = true ∧ h.otpBlank slot g = false) := by
  refine ⟨⟨st0, true, ?_⟩, ⟨pwrState fun p => { p with loss := true }, false, ?_⟩, ⟨pwrState fun p => { p with ac := true, dc := true }, true, ?_⟩,
    ⟨pwrState fun p => { p with ac := true, running := true }, true, ?_⟩, ⟨pwrState fun p => { p with loss := true }, ?_⟩, ⟨pwrState fun p => { p with shed := true }, ?_⟩,
    ⟨⟨st0, 120, 0, 0, ?_⟩, ⟨pwrState fun p => { p with hot := true }, 114, 0, 0, ?_⟩, ⟨st0, 119, 0, 0, ?_⟩⟩, ⟨st0, 0xB003, 2, ?_⟩,
    ⟨st0.withHub (roastHub.setReg 0x75 249), 0xB103, 0, ?_⟩, ⟨st0.withHub roastHub, 0xB108, 0, ?_⟩,
    ⟨st0.withHub { roastHub with otp := { roastHub.otp with words := [(136 * 8 + 5, ⟨1, 0, 0⟩)] } }, 0xB008, 0, ?_⟩⟩ <;> decide +kernel

/-- An image executes, its body at the record `ws`. -/
def bootState (ws : List Nat) (f : Boot → Boot) : State := st0.withHub
  ((pwrHub fun p => { p with running := true, boot := f { p.boot with body := ws.flatMap fun w => [BitVec.ofNat 8 (w / 256), BitVec.ofNat 8 w] } }).setReg 0x04 0x0400)

theorem meets_StartUpCommandsAnswer :
    (∃ s : State, (s.hub.pwr.dc = true ∨ s.hub.pwr.ac = true) ∧ s.hub.pwr.running = false) ∧ (∃ s : State, s.live = true ∧ s.hub.pwr.running = true ∧ s.hub.otp.loaded = false) ∧
    (∃ (s : State) (i : Nat) (rest : List Nat), s.live = true ∧ s.hub.pwr.boot.cands = some (i :: rest) ∧ 5 ≤ s.hub.phase ∧ s.hub.phase = 5 ∧ s.hub.bootRun = false) ∧
    (∃ s : State, s.live = true ∧ s.hub.bootRun = true ∧ s.hub.pwr.boot.wait = .none ∧ s.hub.pwr.boot.recordLen = none) ∧
    (∀ c ∈ [1, 128, 129], ∃ (s : State) (n : Nat), s.live = true ∧ s.hub.atRecord 1 = some n ∧ s.hub.pwr.boot.word 1 = c) ∧
    (∀ c ∈ [0, 1], ∃ (s : State) (n : Nat), s.live = true ∧ s.hub.atRecord 2 = some n ∧ s.hub.pwr.boot.word 3 = c) ∧
    (∃ (s : State) (n : Nat), s.live = true ∧ s.hub.atRecord 3 = some n ∧ s.hub.nand.busy = none) ∧ (∃ (s : State) (n : Nat), s.live = true ∧ s.hub.atRecord 3 = some n ∧ s.hub.nand.busy ≠ none) ∧
    (∀ c ∈ [0, 1, 10000, 10001], ∃ (s : State) (n : Nat), s.live = true ∧ s.hub.atRecord 4 = some n ∧ s.hub.pwr.boot.word 1 = c) ∧ (∃ s : State, s.live = true ∧ s.hub.pwr.boot.wait = .delay) ∧
    (∃ (s : State) (w : Word), s.live = true ∧ s.hub.chimeP = true ∧ bits w.toNat 15 12 = 3) ∧
    (∃ (s : State) (w : Word), s.live = true ∧ s.hub.chimeP = true ∧ bits w.toNat 15 12 = 9 ∧ s.hub.pwr.chime.releasing = false) ∧
    (∃ s : State, s.live = true ∧ s.hub.cp.resetPending = true ∧ s.hub.otp.roast = none) ∧ (∃ s : State, s.live = true ∧ s.hub.pwr.loss = true) := by
  refine ⟨⟨pwrState fun p => { p with ac := true, running := false }, ?_⟩, ⟨pwrState fun p => { p with running := true }, ?_⟩,
    ⟨st0.withHub ((pwrHub fun p => { p with boot := { p.boot with cands := some [1, 0] } }).setReg 0x04 0x5000), 1, [0], ?_⟩,
    ⟨bootState [0] id, ?_⟩, fun c hc => ⟨bootState ([0x1000, c] ++ List.replicate 129 0) id, 2 + c, ?_⟩,
    fun c hc => ⟨bootState ([0x2000, 0, 0, c] ++ List.replicate 3 0) id, 4 + c, ?_⟩, ⟨bootState ([0x3000] ++ List.replicate 6 0) id, 5, ?_⟩,
    ⟨st0.withHub { (bootState ([0x3000] ++ List.replicate 6 0) id).hub with nand := { busy := some (1, 0, 0) } }, 5, ?_⟩,
    fun c hc => ⟨bootState [0x4000, c, 0] id, 2, ?_⟩, ⟨bootState [] fun b => { b with wait := .delay }, ?_⟩,
    ⟨on fun h => h.setReg 0x04 0x0800, 0x3003, ?_⟩, ⟨on fun h => h.setReg 0x04 0x0800, 0x9000, ?_⟩, ⟨on fun h => { h with cp := { h.cp with resetPending := true } }, ?_⟩,
    ⟨pwrState fun p => { p with loss := true }, ?_⟩⟩
  case refine_5 => revert c; decide +kernel
  case refine_6 => revert c; decide +kernel
  case refine_9 => revert c; decide +kernel
  all_goals decide +kernel

/-- A request's words with the CRC that belongs to them. -/
def reqOk (op : Nat) (tag : BitVec 4) (addr : Byte) (w1 : Word) (data : List Word) : List Word :=
  reqWords op tag addr w1 data (frameCrc (reqWords op tag addr w1 data 0).dropLast)

def tunFrom0 : TunFrom := { peer := peer0, udpPort := 0x1234, port := 0, own := 0x0A000002, seq := 7 }
def tunState (f : Tunnel → Tunnel) : State := on fun h => (h.modTun f).setReg 0x0C 0x8000

theorem meets_ControlPortFramesAnswer :
    (∀ op : Fin 6, ∃ (s : State) (addr : Byte) (w1 crc : Word) (d : List Word), s.live = true ∧ s.hub.reqCheck 0 (reqWords op 0 addr w1 d crc) = 0) ∧
    (∃ (s : State) (ws : List Word), s.live = true ∧ s.hub.reqCheck 0 ws = 1 ∧ badCount ws = false ∧ ws.length = reqLen ws) ∧
    (∃ (s : State) (ws : List Word), s.live = true ∧ s.hub.reqCheck 0 ws = 4 ∧ badCount ws = false ∧ ws.length = reqLen ws) ∧
    (∃ (s : State) (ws : List Word), s.live = true ∧ s.hub.reqCheck 0 ws = 5 ∧ badCount ws = false ∧ ws.length = reqLen ws) ∧
    (∃ (s : State) (ws : List Word) (f : TunFrom) (rest : List TunReq), s.live = true ∧ s.hub.cp.tun.queue = { from_ := f, words := ws } :: rest ∧ s.hub.cp.tun.repeats f = false ∧
      (s.hub.modTun fun t => { t with queue := rest }).reqCheck 1 ws = 0) ∧
    (∃ ws : List Word, ws ≠ [] ∧ 5 < reqOp ws ∧ reqOp ws = 6) ∧ (∀ n ∈ [0, 129], ∃ ws : List Word, 2 ≤ ws.length ∧ badCount ws = true ∧ reqCount ws = n) ∧
    (∃ ws : List Word, ws = []) ∧ (∃ ws : List Word, reqOp ws = 5 ∧ badCount ws = false ∧ ws.length = 2 ∧ ws.length < reqLen ws) ∧
    (∃ ws : List Word, 1 ≤ reqOp ws ∧ reqOp ws ≤ 4 ∧ reqOp ws = 4) := by
  refine ⟨fun op => ⟨st0, 0x7F, 1, frameCrc (reqWords op 0 0x7F 1 (if op = 3 ∨ op = 4 then [0] else []) 0).dropLast, if op = 3 ∨ op = 4 then [0] else [], ?_⟩,
    ⟨st0, reqWords 0 0 0 0 [] 0, ?_⟩, ⟨st0, reqOk 1 0 0x7F 2 [], ?_⟩, ⟨on fun h => h.setReg 0x09 1, reqOk 3 0 0x20 1 [0], ?_⟩,
    ⟨tunState fun t => { t with queue := [{ from_ := tunFrom0, words := reqOk 1 3 0 1 [] }] }, reqOk 1 3 0 1 [], tunFrom0, [], ?_⟩,
    ⟨[0x6000], ?_⟩, fun n hn => ⟨[0x1000, BitVec.ofNat 16 n], ?_⟩, ⟨[], ?_⟩, ⟨[0x5000, 0], ?_⟩, ⟨[0x4000], ?_⟩⟩
  case refine_1 => revert op; decide +kernel
  case refine_7 => revert n; decide +kernel
  all_goals decide +kernel

/-- A tunnel request of three words with SEQ 7. -/
def tunBytes : List Byte := [0x4C, 0x56, 1, 0, 0, 7, 0, 3, 0, 0, 0, 0, 0, 0]

/-- A frame that carries `b` in a UDP datagram from 10.0.0.1 to the tunnel at 10.0.0.2. -/
def tunFrame0 (b : List Byte) : List Byte :=
  let udp : List Byte := [0x12, 0x34] ++ beBytes 2 (base.reg 0x0D) ++ beBytes 2 (b.length + 8) ++ [0, 0]
  let ip : List Byte := [0x45, 0] ++ beBytes 2 (b.length + 28) ++ [0, 0, 0, 0, 64, 17, 0, 0, 10, 0, 0, 1, 10, 0, 0, 2]
  let ip := ip.take 10 ++ beBytes 2 (checksum (inetSum ip)) ++ ip.drop 12
  beBytes 6 base.netMac ++ beBytes 6 1 ++ [0x08, 0x00] ++ ip ++ udp ++ b ++ List.replicate (18 - b.length) 0

/-- The tunnel on, at the own address 10.0.0.2. -/
def tunOn (f : Tunnel → Tunnel) : State := st0.withHub
  ((((tunState f).hub.setEffN (kNet 0x510) 2 0x0A000002).setReg (kNet 0x540) 1).setReg (kCls 0x114) 4)

theorem meets_TunnelAndOwnershipAnswer_datagram :
    let meets := fun (s : State) (b : List Byte) => let f := s.hub.parse b
      s.live = true ∧ bit (s.hub.reg 0x0C) 15 = true ∧ f.bad = none ∧ bit (s.hub.reg (kCls 0x114)) 2 = true ∧ s.hub.isTunnel f = true ∧ f.declared.getD 0 ≤ b.length + 4
    let data := fun (s : State) (b : List Byte) => (b.drop (s.hub.parse b).pay).take (s.hub.parse b).payLen
    (∃ s b, meets s b ∧ tunWellFormed (data s b) = false) ∧
    (∀ k ∈ [7, 8], ∃ s b, meets s b ∧ data s b = tunBytes ∧ tunWellFormed tunBytes = true ∧ s.hub.cp.tun.queue.length = k ∧
      s.hub.cp.tun.repeats (tunFrom 0 b (s.hub.parse b)) = false) ∧
    (∃ s b, meets s b ∧ data s b = tunBytes ∧ s.hub.cp.tun.queue.length < 8 ∧ s.hub.cp.tun.repeats (tunFrom 0 b (s.hub.parse b)) = true) := by
  refine ⟨⟨tunOn id, tunFrame0 (tunBytes.take 12), ?_⟩, fun k hk => ⟨tunOn fun t => { t with queue := List.replicate k ⟨tunFrom0, []⟩ }, tunFrame0 tunBytes, ?_⟩,
    ⟨tunOn fun t => { t with last := some tunFrom0 }, tunFrame0 tunBytes, ?_⟩⟩
  case refine_2 => revert k; decide +kernel
  all_goals decide +kernel

theorem meets_TunnelAndOwnershipAnswer :
    (∃ (s : State) (b : List Byte), s.live = true ∧ bit (s.hub.reg 0x0C) 15 = true ∧ s.hub.isTunnel (s.hub.parse b) = false) ∧
    (∃ (s : State) (f : TunFrom), s.live = true ∧ s.hub.cp.tun.last = some f ∧ bit (s.hub.reg 0x0C) 14 = true ∧ s.hub.attention s.q = true) ∧
    (∃ (s : State) (w : Word), s.live = true ∧ s.hub.bootRun = false ∧ (s.hub.owner = 0 ∨ s.hub.owner = 1) ∧ (∀ p, s.hub.linkStalls 3 9 p = false) ∧ w.toNat % 2 ≠ s.hub.owner) ∧
    (∃ (s : State) (w : Word), s.live = true ∧ s.hub.bootRun = false ∧ (s.hub.owner = 0 ∨ s.hub.owner = 1) ∧ (∀ p, s.hub.linkStalls 3 9 p = false) ∧ s.hub.expired = true ∧
      w.toNat % 2 = 1 - s.hub.owner) ∧
    (∃ s : State, s.live = true ∧ s.hub.fld 0x09 13 8 ≠ 0 ∧ s.hub.expired = false) ∧
    (∃ (s : State) (p : Fin 2), s.live = true ∧ s.hub.cp.stalls = [] ∧ (s.hub.path p).wspace ≠ 0 ∧
      ((s.hub.modPath p fun b => { b with wstat := 0 }).busRead s.q p (s.hub.path p).wspace.toNat (s.hub.path p).waddr.toNat .ok).1.cp.fail = none) ∧
    (∀ act : Bool, ∃ (s : State) (p : Fin 2) (w : Word), s.live = true ∧ s.hub.cp.stalls = [] ∧ (s.hub.path p).wspace.toNat ≠ 0 ∧ s.hub.mayWrite p 0x14 w.toNat = true ∧
      actsNow (s.hub.path p).wspace.toNat (s.hub.path p).waddr.toNat = act) ∧
    (∃ (s : State) (p : Fin 2) (w : Word), s.live = true ∧ s.hub.mayWrite p 0x14 w.toNat = false) ∧
    (∃ (s : State) (sp : Byte) (o : BitVec 32) (w : Word), s.live = true ∧ s.hub.cp.stalls = [] ∧ sp ≠ 0 ∧ (s.hub.busWrite sp.toNat o.toNat w.toNat).1.cp.fail = none) ∧
    (∀ k ∈ [1, 8, 15], ∃ link : Word, link.toNat / 4096 = k) := by
  refine ⟨⟨tunState id, [], ?_⟩, ⟨on fun h => (h.modTun fun t => { t with last := some tunFrom0 }).setReg 0x0C 0x4000, tunFrom0, ?_⟩,
    ⟨st0, 1, rfl, by decide +kernel, by decide +kernel, fun p => rfl, by decide +kernel⟩,
    ⟨on fun h => h.setReg 0x09 0x3C02, 1, rfl, by decide +kernel, by decide +kernel, fun p => rfl, by decide +kernel⟩,
    ⟨on fun h => h.setReg 0x09 0x0100, ?_⟩, ⟨on fun h => h.modPath 0 fun b => { b with wspace := 0x3F, waddr := 0x100 }, 0, ?_⟩,
    fun a => ⟨on fun h => h.modPath 0 fun b => { b with wspace := 0x3F, waddr := if a then 0x110 else 0x100 }, 0, 0, ?_⟩, ⟨st0, 1, 0, ?_⟩,
    ⟨st0, 0x3F, 0x100, 1, ?_⟩, fun k hk => ⟨BitVec.ofNat 16 (4096 * k), ?_⟩⟩
  case refine_5 => revert a; decide +kernel
  case refine_8 => revert k; decide +kernel
  all_goals decide +kernel

theorem meets_ConditionalClears :
    (∃ (h : Hub) (sp o w : Nat) (r : RegRow), w < 65536 ∧ findRow (regRows sp) o = some r ∧ r.acc = .cc ∧ (sp = 0 ∨ spaceKnown sp = true) ∧
      ¬ (sp = 0x0C ∧ o < 0x40000000) ∧ (16 ≤ sp → sp < 32 → 0x40000 ≤ o ∧ h.reserved (sp - 16) = false) ∧
      bit w 15 = true ∧ bit (h.reg (spc sp o)) 15 = true ∧ w % 16 = h.reg (spc sp o) % 16) ∧
    (∃ (h : Hub) (sp o w : Nat) (r : RegRow), w < 65536 ∧ findRow (regRows sp) o = some r ∧ r.acc = .cc ∧ (sp = 0 ∨ spaceKnown sp = true) ∧
      ¬ (sp = 0x0C ∧ o < 0x40000000) ∧ (16 ≤ sp → sp < 32 → 0x40000 ≤ o ∧ h.reserved (sp - 16) = false) ∧
      ¬ (bit w 15 = true ∧ bit (h.reg (spc sp o)) 15 = true ∧ w % 16 = h.reg (spc sp o) % 16)) ∧
    (∃ (x : Xfer) (p a : Nat) (r : RegRow), findRow (regRows 0) a = some r ∧ r.acc = .cc ∧ x.h.linkStalls 3 a p = false ∧ a ≠ 0x09 ∧ a ≠ 0x19 ∧ a ≠ 0x1E ∧ ¬ (0x10 ≤ a ∧ a < 0x18)) ∧
    (∃ (x : Xfer) (p : Nat), x.h.linkStalls 3 0x14 p = false ∧ x.h.linkStalls 2 (x.h.path p).wspace.toNat p = false ∧ (x.h.path p).wspace ≠ 0) ∧
    (∃ (s : State) (sp : Byte) (o : BitVec 32) (r : RegRow), s.live = true ∧ findRow (regRows sp.toNat) o.toNat = some r ∧ r.acc = .cc ∧ s.hub.cp.stalls = [] ∧ sp ≠ 0) := by
  refine ⟨⟨base.setReg (kSe 15 0x111) 0x800F, 0x1F, 0x40111, 0x800F, (findRow (regRows 0x1F) 0x40111).get (by decide +kernel), ?_⟩,
    ⟨base.setReg 0x7F 0x8000, 0, 0x1F, 0x8001, (findRow (regRows 0) 0x1F).get (by decide +kernel), ?_⟩,
    ⟨{ h := base, q := .start 0 }, 0, 0x1F, (findRow (regRows 0) 0x1F).get (by decide +kernel), ?_⟩, ⟨{ h := base.modPath 0 fun b => { b with wspace := 1 }, q := .start 0 }, 0, ?_⟩,
    ⟨st0, 2, 0x2600, (findRow (regRows 2) 0x2600).get (by decide +kernel), ?_⟩⟩ <;> decide +kernel

def rec0 : EvRecord := { src := 3, urg := 1, lostF := false, lostN := 0, seq := 0, stamp := 0, code := 1, data0 := 0, data1 := 0, data2 := 0 }

/-- A queue of `n` records of which `head` were released before, with or without an open episode. -/
def queueState (n : Nat) (head : Word) (ep : Option Episode) : State :=
  { st0 with q := { entries := List.replicate n ⟨rec0, 0⟩, head := head, tail := head + BitVec.ofNat 16 n, hwm := 1024, episode := ep } }

theorem meets_EventCommandsAnswer :
    (∃ (h : Hub) (src : Nat), src < 256 ∧ src = 255 ∧ bit (h.reg (evCfg src)) 2 = true) ∧ (∃ (h : Hub) (src : Nat), src < 256 ∧ bit (h.reg (evCfg src)) 2 = false) ∧
    (∀ n ∈ [1023, 1024], ∃ (s : State) (src : Byte) (r : EvRecord) (rest : List EvRecord), s.live = true ∧ takeFirst src.toNat s.hub.ev.inflight = some (r, rest) ∧ r.src = src ∧
      s.q.entries.length = n) ∧
    (∃ (s : State) (w : Word), s.live = true ∧ (w - s.q.head).toNat = 0) ∧
    (∃ (s : State) (w : Word), s.live = true ∧ let n := (w - s.q.head).toNat
      1 ≤ n ∧ n ≤ s.q.entries.length ∧ n = s.q.entries.length ∧ s.q.episode = none ∧ w.toNat < s.q.head.toNat) ∧
    (∃ (s : State) (w : Word), s.live = true ∧ let n := (w - s.q.head).toNat
      1 ≤ n ∧ n ≤ s.q.entries.length ∧ s.q.entries.length ≤ 1024 ∧ s.q.episode ≠ none ∧ bit (s.hub.reg (evCfg 240)) 2 = false) ∧
    (∃ (s : State) (w : Word), s.live = true ∧ s.q.entries.length < (w - s.q.head).toNat ∧ (w - s.q.head).toNat = s.q.entries.length + 1) ∧
    (∃ h : Hub, bit (h.reg (evCfg 3)) 2 = false ∧ h.windowOpen 0 3 1 = false) ∧ (∃ h : Hub, bit (h.reg (evCfg 3)) 2 = false ∧ h.windowOpen 0 3 1 = true) ∧
    (∃ (w : RateWindow) (d : Nat), w.dom = some d ∧ w.src ≠ 242 ∧ w.ticks + 48 * w.ms = 1000) ∧
    (∃ (w : RateWindow) (d : Nat), w.dom = some d ∧ w.src = 242 ∧ w.ticks + 50 * w.ms = 999) := by
  refine ⟨⟨base.setReg (evCfg 255) 6, 255, ?_⟩, ⟨base, 255, ?_⟩,
    fun n hn => ⟨{ queueState n 0 none with hub := { base with ev := { EvSources.start with inflight := [rec0] } } }, 3, rec0, [], rfl, rfl, rfl, List.length_replicate⟩,
    ⟨st0, 0, ?_⟩, ⟨queueState 16 0xFFF8 none, 8, ?_⟩, ⟨queueState 1024 0 (some ⟨1, [3], 0⟩), 1, ?_⟩, ⟨queueState 16 0xFFF8 none, 9, ?_⟩,
    ⟨base, ?_⟩, ⟨{ base with ev := { base.ev with windows := [{ src := 3, code := 1, sub := 0 }] } }, ?_⟩,
    ⟨{ src := 3, code := 1, sub := 0, dom := some 0, ticks := 520, ms := 10 }, 0, ?_⟩,
    ⟨{ src := 242, code := 1, sub := 0, dom := some 0, ticks := 499, ms := 10 }, 0, ?_⟩⟩
  all_goals decide +kernel

theorem meets_StepRunsTheFrontCommand : (∃ (c : Instr) (s : State), s.live = false ∧ supplyActs c = false) ∧ (∃ s : State, s.pending = []) ∧ (∃ (c : Instr) (rest : List Instr) (s : State), s.pending = c :: rest) :=
  ⟨⟨.hwmReset, .reset, rfl, rfl⟩, ⟨st0, rfl⟩, ⟨.hwmReset, [], { st0 with pending := [.hwmReset] }, rfl⟩⟩

/-- A sound state from which a step adds a record to a queue with 1,023 waiting; and one with an open episode. -/
theorem meets_EveryStepKeepsTheQueueSound :
    (∃ s t : State, s.Sound ∧ step s = .next t) ∧ (∃ s : State, s.Sound ∧ s.q.episode ≠ none) := by
  refine ⟨⟨{ queueState 1023 0 none with pending := [.hwmReset] }, _, ⟨by decide +kernel, by decide +kernel, by decide +kernel, by decide +kernel⟩, rfl⟩,
    ⟨queueState 1024 0xFFFF (some ⟨1, [3], 0⟩), ⟨by decide +kernel, by decide +kernel, by decide +kernel, by decide +kernel⟩, by decide +kernel⟩⟩

theorem meets_TheEventQueueIsFirstInFirstOut :
    (∃ (c : Instr) (s t : State), s.Sound ∧ restartsQueue c = false ∧ exec c s = .next t ∧ movesQueue c = true) ∧
    (∃ (c : Instr) (s t : State), s.Sound ∧ restartsQueue c = false ∧ exec c s = .next t ∧ movesQueue c = false) := by
  refine ⟨⟨.eventRelease 1, queueState 1024 0 none, _, ⟨by decide +kernel, by decide +kernel, by decide +kernel, by decide +kernel⟩, rfl, rfl, rfl⟩,
    ⟨.attentionEvaluation, queueState 1024 0 none, _, ⟨by decide +kernel, by decide +kernel, by decide +kernel, by decide +kernel⟩, rfl, rfl, rfl⟩⟩

end Sys2Proof.Tests
end

section
/-! PROOF. Start-up: the event queue as reset leaves it (O58), and the commands of start-up, booting, the chime path, system
reset and the stop of the logic (O52). -/

namespace Sys2Proof.Machine

/-! ### The event queue at reset (R132, R141, R147) -/

/-- The configuration word of a source stands in the row of space 0x02 that R141 resets. -/
theorem resetWord_evCfg {src : Nat} (hs : src < 256) : resetWord (evCfg src) = BitVec.ofNat 16 (urgReset src) := by
  have space : keySpace (evCfg src) = 2 := by simp only [keySpace, evCfg, spc]; omega
  have off : keyOff (evCfg src) = 0x2000 + src := by simp only [keyOff, evCfg, spc]; omega
  have record : ¬ (0x2000 + src) / 8 < 1024 := by omega
  have row : rowOf (evCfg src) = some ⟨"EV_CFG", 0x2000, 256, 0x1, 1, 1, .rw, 0x7, 0x7, .urg⟩ := by
    simp [rowOf, space, off, regRows, regRows02, findRow, RegRow.holds, record, Nat.mod_one, hs]
    omega
  simp [resetWord, row, off, RegRow.inst, RegReset.value]

/-- The reset urgencies are those of R141, listed from the sources of urgency 2 on. -/
theorem urgReset_eq {src : Nat} (hs : src < 256) : urgReset src =
    if src ≤ 15 ∨ (96 ≤ src ∧ src ≤ 111) ∨ (120 ≤ src ∧ src ≤ 159) ∨ (216 ≤ src ∧ src ≤ 223) ∨ (240 ≤ src ∧ src ≤ 255) then 2
    else if 224 ≤ src ∧ src ≤ 239 then 3 else 1 := by
  unfold urgReset
  split_ifs <;> omega

theorem urgReset_le (src : Nat) : urgReset src ≤ 3 := by
  unfold urgReset
  split_ifs <;> omega

/-- At reset a source's configuration word is its urgency, with MASK 0 (R141). -/
theorem Hub.reset_evCfg {src : Nat} (hs : src < 256) : Hub.reset.reg (evCfg src) = urgReset src := by
  have := urgReset_le src
  rw [Hub.reg, show Hub.reset.regs = [] from rfl, tget_nil, resetWord_evCfg hs, BitVec.toNat_ofNat]
  omega

/-- The queue that starts holds one record, QUEUE_STARTED, and is sound (R132). -/
theorem EvQueue.start_sound (now : Nat) : (EvQueue.start now).Sound where
  bounded := show 1 ≤ 1024 by decide
  counted := show (1 : Word) - 0 = BitVec.ofNat 16 1 by decide
  marked := show 1 ≤ 1 ∧ 1 ≤ 1024 by decide
  full h := absurd rfl h

/-- EVQ_ATTN, EVQ_AGE and EVQ_OVFFLAG at reset (R147). -/
theorem Hub.reset_attentionWords : Hub.reset.reg 0x1B = 0xA040 ∧ Hub.reset.reg 0x1C = 10 ∧ Hub.reset.reg 0x1F = 0 := by decide

/-- QUEUE_STARTED has the urgency that EVQ_ATTN asks for at reset, so attention is raised (R146). -/
theorem Hub.reset_attention (now : Nat) : Hub.reset.attention (.start now) = true := by
  obtain ⟨attn, -, -⟩ := Hub.reset_attentionWords
  have urgent : Hub.reset.byUrg (.start now) = true := by simp [Hub.byUrg, Hub.fld, attn, EvQueue.start, EvRecord.started, bits]
  simp [Hub.attention, attn, urgent, bit, Nat.testBit]

/-- Settles O58: the queue is the one that R132 starts, and the register store lists no word, so every word reads its reset. -/
theorem resetLeavesTheQueueStarted : Obligations.ResetLeavesTheQueueStarted := by
  obtain ⟨attn, age, ovf⟩ := Hub.reset_attentionWords
  refine ⟨EvQueue.start_sound 0, rfl, rfl, rfl, rfl, rfl, by decide, by decide, attn, age, ovf, fun src hs => ?_, Hub.reset_attention 0⟩
  rw [← urgReset_eq hs]
  exact Hub.reset_evCfg hs

/-! ### Operations of start-up: what they leave -/

/-- Entries that a table keeps read as before. -/
theorem tget_filter {α : Type} (d : Nat → α) (p : Nat → Bool) (t : Tbl α) {k : Nat} (hk : p k = true) :
    tget d (t.filter fun e => p e.1) k = tget d t k := by
  induction t with
  | nil => rfl
  | cons e t ih =>
    by_cases hp : p e.1 = true
    · simp [hp, tget_cons, ih]
    · have apart : k ≠ e.1 := fun h => hp (h ▸ hk)
      simp [hp, tget_cons, ih, apart]

/-- PHASE is all that a step of the start-up writes of the hub (R591). -/
theorem Hub.toPhase_frame (h : Hub) (n : Nat) : ∃ regs, h.toPhase n = { h with regs := regs } := by
  unfold Hub.toPhase
  split
  · exact ⟨_, rfl⟩
  · exact ⟨h.regs, rfl⟩

/-- The phase is reached, whether or not a later one was before. -/
theorem Hub.le_phase_toPhase (h : Hub) {n : Nat} (hn : n < 16) : n ≤ (h.toPhase n).phase := by
  unfold Hub.toPhase
  split
  · rw [Hub.phase, Hub.fld_setFld h n (by decide) (by decide)]; omega
  · omega

/-- The fields of SYS_START below PHASE are unchanged. -/
theorem Hub.fld_toPhase (h : Hub) (n : Nat) {hi lo : Nat} (hh : hi < 12) (hl : lo ≤ hi) :
    (h.toPhase n).fld 0x04 hi lo = h.fld 0x04 hi lo := by
  unfold Hub.toPhase
  split
  · exact Hub.fld_setFld_apart h n (by decide) (by decide) (.inl hh) hl
  · rfl

/-- The XL detection writes registers and the cluster's mask only (R637). -/
theorem Hub.xlDetect_frame (h : Hub) (xl : Option (Byte × Byte)) :
    ∃ regs clu, h.xlDetect xl = { h with regs := regs, clu := clu } := by
  cases xl with
  | none => exact ⟨_, _, rfl⟩
  | some x => exact ⟨_, _, rfl⟩

theorem Hub.reg_xlDetect (h : Hub) (xl : Option (Byte × Byte)) {k : Nat} (hk : k ≠ 0x27) : (h.xlDetect xl).reg k = h.reg k := by
  cases xl with
  | none => exact Hub.reg_setReg_other h _ hk
  | some x => exact Hub.reg_setReg_other h _ hk

/-- Events issued again change nothing but the event sources and the count of refusals (R132). -/
theorem Hub.reissue_frame (l : List EvRecord) (h : Hub) : ∃ ev cp, h.reissue l = { h with ev := ev, cp := cp } := by
  induction l generalizing h with
  | nil => exact ⟨h.ev, h.cp, rfl⟩
  | cons r l ih =>
    obtain ⟨ev, cp, e⟩ := h.issue_frame r.src.toNat r.code.toNat r.data0.toNat r.data1.toNat r.data2.toNat
    obtain ⟨ev', cp', e'⟩ := ih (h.issue r.src.toNat r.code.toNat r.data0.toNat r.data1.toNat r.data2.toNat)
    exact ⟨ev', cp', e'.trans (by rw [e])⟩

theorem Hub.reg_reissue (h : Hub) (l : List EvRecord) (k : Nat) : (h.reissue l).reg k = h.reg k := by
  obtain ⟨ev, cp, e⟩ := Hub.reissue_frame l h; rw [e]; rfl

theorem iter_succ {α : Type} (n : Nat) (f : Nat → α → α) (a : α) : iter (n + 1) f a = f n (iter n f a) := by
  simp [iter, List.range_succ]

/-- Changing engines in turn changes nothing else. -/
theorem Hub.iter_modEng_frame (f : Engine → Engine) (h : Hub) (n : Nat) :
    ∃ engs, iter n (fun n h => h.modEng n f) h = { h with engs := engs } := by
  induction n with
  | zero => exact ⟨h.engs, rfl⟩
  | succ n ih =>
    obtain ⟨engs, e⟩ := ih
    exact ⟨_, by rw [iter_succ, e]; rfl⟩

/-- Changing the first `n` engines in turn changes each of them once. -/
theorem Hub.engine_iter_modEng (f : Engine → Engine) (h : Hub) (n m : Nat) :
    (iter n (fun n h => h.modEng n f) h).engine m = if m < n then f (h.engine m) else h.engine m := by
  induction n with
  | zero => rfl
  | succ n ih =>
    rw [iter_succ]
    by_cases hm : m = n
    · subst hm; simp [ih]
    · rw [Hub.engine_modEng_other _ _ hm, ih]
      exact if_congr (by omega) rfl rfl

/-! ### Completion: what each command makes of the hub and the queue

FABRIC_START and LOGIC_STOP act whether or not the fabric runs, the others while it does (R24). -/

theorem exec_fabricStart (s : State) (ms : Word) (xl : Option (Byte × Byte)) : exec (.fabricStart ms xl) s =
    .next { s with hub := (powerOn s.hub s.q ms.toNat xl).1, q := (powerOn s.hub s.q ms.toNat xl).2 } := rfl

theorem exec_logicStop (s : State) (cut : RoastBad) : exec (.logicStop cut) s =
    .next { s with hub := (logicStop s.hub s.q cut).1, q := (logicStop s.hub s.q cut).2 } := rfl

section runs
variable {s : State} (l : s.live = true)
include l

theorem exec_systemReset (xl : Option (Byte × Byte)) : exec (.systemReset xl) s =
    .next { s with hub := (systemReset s.hub s.q xl).1, q := (systemReset s.hub s.q xl).2 } := State.onQ_next l _
theorem exec_amplifierLevel : exec .amplifierLevel s =
    .next { s with hub := (amplifierLevel s.hub s.q).1, q := (amplifierLevel s.hub s.q).2 } := State.onQ_next l _
theorem exec_bootDirect : exec .bootDirect s =
    .next { s with hub := (bootDirect s.hub s.q).1, q := (bootDirect s.hub s.q).2 } := State.onQ_next l _
theorem exec_bootWindow : exec .bootWindow s =
    .next { s with hub := (bootWindow s.hub s.q).1, q := (bootWindow s.hub s.q).2 } := State.onQ_next l _

theorem exec_loadDone (us : Word) : exec (.loadDone us) s = .next (s.withHub (s.hub.loadDone us.toNat)) :=
  State.onHub_next l fun h => h.loadDone us.toNat
theorem exec_dramInitDone : exec .dramInitDone s = .next (s.withHub s.hub.dramInit) := State.onHub_next l _
theorem exec_bootVerify : exec .bootVerify s = .next (s.withHub s.hub.bootVerify) := State.onHub_next l _
theorem exec_bootEndRecord : exec .bootEndRecord s = .next (s.withHub s.hub.bootEnd) := State.onHub_next l _
theorem exec_bootFload (x : NandIn) : exec (.bootFload x) s = .next (s.withHub (s.hub.bootFload x)) :=
  State.onHub_next l fun h => h.bootFload x
theorem exec_bootWait : exec .bootWait s = .next (s.withHub s.hub.bootWait) := State.onHub_next l _
theorem exec_bootWaitEnd : exec .bootWaitEnd s = .next (s.withHub s.hub.bootWaitEnd) := State.onHub_next l _
theorem exec_chimeRequest (w : Word) : exec (.chimeRequest w) s = .next (s.withHub (s.hub.chimeCmd w.toNat)) :=
  State.onHub_next l fun h => h.chimeCmd w.toNat
theorem exec_chimeRelease (w : Word) : exec (.chimeRelease w) s = .next (s.withHub (s.hub.chimeCmd w.toNat)) :=
  State.onHub_next l fun h => h.chimeCmd w.toNat

end runs

/-! ### FABRIC_START and SYSTEM_RESET (R125, R132, R591) -/

/-- Of the hub, step 3 of the start-up changes registers, the event sources, the cluster, the count of refusals and the marks of
the fabric's start. -/
theorem fabricStart_frame (h : Hub) (ms : Nat) (xl : Option (Byte × Byte)) : ∃ regs ev clu cp,
    (fabricStart h ms xl).1 = { h with
      regs := regs, ev := ev, clu := clu, cp := cp, pwr := { h.pwr with running := true, zeroMs := ms, startMs := h.refMs } } := by
  unfold fabricStart
  dsimp only
  generalize e : Hub.modPwr _ _ = g
  obtain ⟨_, phase⟩ := g.toPhase_frame 1
  obtain ⟨regs, clu, detect⟩ := (g.toPhase 1).xlDetect_frame xl
  obtain ⟨ev, cp, started⟩ := ((g.toPhase 1).xlDetect xl).issue_frame 241 1 ((g.toPhase 1).fld 0x04 5 4) (ms % 65536) 0
  obtain ⟨ev', cp', again⟩ := Hub.reissue_frame h.ev.inflight
    (((g.toPhase 1).xlDetect xl).issue 241 1 ((g.toPhase 1).fld 0x04 5 4) (ms % 65536) 0)
  refine ⟨regs, ev', clu, cp', ?_⟩
  rw [again, started, detect, phase, ← e]
  rfl

/-- The queue starts afresh, at the reference time of step 3 (R132). -/
theorem fabricStart_queue (h : Hub) (ms : Nat) (xl : Option (Byte × Byte)) : (fabricStart h ms xl).2 = .start h.refMs := by
  obtain ⟨regs, ev, clu, cp, e⟩ := fabricStart_frame h ms xl
  have time : (fabricStart h ms xl).1.refMs = h.refMs := by rw [e]
  exact congrArg EvQueue.start time

/-- The fields of SYS_START below PHASE outlast step 3. -/
theorem fabricStart_fld (h : Hub) (ms : Nat) (xl : Option (Byte × Byte)) {hi lo : Nat} (hh : hi < 12) (hl : lo ≤ hi) :
    (fabricStart h ms xl).1.fld 0x04 hi lo = h.fld 0x04 hi lo := by
  unfold fabricStart
  dsimp only
  rw [Hub.fld, Hub.reg_reissue, Hub.reg_issue, Hub.reg_xlDetect _ _ (by decide), ← Hub.fld, Hub.fld_toPhase _ 1 hh hl]
  exact congrArg (fun w : Word => bits w.toNat hi lo) (tget_filter resetWord (fun k => !lossCounter k) h.regs (by decide))

/-- With an input qualified FABRIC_START acts, once. -/
theorem powerOn_starts {h : Hub} (input : h.pwr.dc = true ∨ h.pwr.ac = true) (off : h.pwr.running = false) (q : EvQueue) (ms : Nat)
    (xl : Option (Byte × Byte)) : powerOn h q ms xl = fabricStart h ms xl :=
  if_pos (by simp [off, input])

/-- A system reset that is due restarts a hub with reference time, the array and the store's objects of the old one, and with
RSTCAUSE 1 (R125). -/
theorem systemReset_restarts {h : Hub} (due : h.cp.resetPending = true) (idle : h.otp.roast = none) (q : EvQueue)
    (xl : Option (Byte × Byte)) : ∃ k : Hub, systemReset h q xl = fabricStart k h.sinceZero xl ∧ k.refMs = h.refMs ∧
      k.otp.words = h.otp.words ∧ k.nand.objs = h.nand.objs ∧ k.fld 0x04 5 4 = 1 :=
  ⟨_, if_neg (by simp [due, idle]), rfl, rfl, rfl, Hub.fld_setFld _ 1 (by decide) (by decide)⟩

/-- During power loss the logic stops, with what outlasts it (R603). -/
theorem logicStop_stops {h : Hub} (loss : h.pwr.loss = true) (q : EvQueue) (cut : RoastBad) :
    logicStop h q cut = ((h.roastCut cut).kept, .start 0) := if_pos loss

/-! ### LOAD_DONE, DRAM_INIT_DONE and AMPLIFIER_LEVEL (R564, R591) -/

/-- The load marks itself complete (R564). -/
theorem Hub.otpLoad_loaded (h : Hub) (us : Nat) : (h.otpLoad us).otp.loaded = true := by
  unfold Hub.otpLoad
  rw [Hub.issue_otp]

theorem Hub.loadDone_loads {h : Hub} (on : h.pwr.running = true) (first : h.otp.loaded = false) (us : Nat) :
    h.loadDone us = ((((h.otpLoad us).toPhase 2).coreStart 0).coreStart 1).clkSync :=
  if_neg (by simp [on, first])

/-- DRAM reads 0 with no uncorrectable unit, the restore images are empty and PHASE 4 is reached (R296, R591). -/
theorem Hub.dramInit_clears {h : Hub} (on : h.pwr.running = true) :
    h.dramInit.dram = [] ∧ h.dramInit.dramUe = [] ∧ 4 ≤ h.dramInit.phase ∧ ∀ n < 16, (h.dramInit.engine n).image = {} := by
  unfold Hub.dramInit
  rw [if_neg (by simp [on])]
  dsimp only
  generalize e : ({ h with dram := [], dramUe := [], regs := _ } : Hub) = g
  obtain ⟨engs, images⟩ := Hub.iter_modEng_frame (fun e => { e with image := {} }) g 16
  obtain ⟨regs, phase⟩ := (iter 16 (fun n h => h.modEng n fun e => { e with image := {} }) g).toPhase_frame 4
  refine ⟨by rw [phase, images, ← e], by rw [phase, images, ← e], Hub.le_phase_toPhase _ (by decide), fun n hn => ?_⟩
  have cleared := Hub.engine_iter_modEng (fun e => { e with image := {} }) g 16 n
  rw [if_pos hn] at cleared
  have kept : ∀ x : Hub, (x.toPhase 4).engine n = x.engine n := fun x => by
    obtain ⟨regs, ex⟩ := x.toPhase_frame 4; rw [ex]; rfl
  rw [kept, cleared]

theorem amplifierLevel_on {h : Hub} (on : h.pwr.running = true) (q : EvQueue) :
    amplifierLevel h q = stepSeven (h.modPwr fun p => { p with rail := true }) q := if_pos on

/-! ### Booting (R597, R598) -/

section verify
variable {h : Hub} {i : Nat} {rest : List Nat} (first : h.pwr.boot.cands = some (i :: rest)) (phase : 5 ≤ h.phase) (free : h.bootRun = false)
include first phase free

/-- From PHASE 5 on, while no image executes, the first candidate is verified. -/
theorem Hub.bootVerify_judges : h.bootVerify =
    let b := (h.imageBytes i).getD []
    if signatureOk b then h.bootAccept i b
    else
      let h := (h.bootRejected i 3 2 (imgVersion b)).modBoot fun s => { s with cands := some rest }
      if rest.isEmpty then h.bootNone else h := by
  have judged : ¬ (h.phase < 5 ∨ h.bootRun = true) := by simp [free]; omega
  unfold Hub.bootVerify
  rw [first]
  exact if_neg judged

theorem Hub.bootVerify_accepts (ok : signatureOk ((h.imageBytes i).getD []) = true) :
    h.bootVerify = h.bootAccept i ((h.imageBytes i).getD []) := by
  rw [Hub.bootVerify_judges first phase free]
  exact if_pos ok

theorem Hub.bootVerify_rejects (bad : signatureOk ((h.imageBytes i).getD []) = false) : h.bootVerify =
    let g := (h.bootRejected i 3 2 (imgVersion ((h.imageBytes i).getD []))).modBoot fun s => { s with cands := some rest }
    if rest.isEmpty then g.bootNone else g := by
  rw [Hub.bootVerify_judges first phase free]
  exact if_neg (by simp [bad])

end verify

/-- Where no record can be executed, execution ends; it fails but at END (R598). -/
theorem Hub.bootEnd_ends {h : Hub} (run : h.bootRun = true) (goes : h.pwr.boot.wait = .none) (last : h.pwr.boot.recordLen = none) :
    h.bootEnd =
      let s := h.pwr.boot
      let h := if s.has 1 ∧ bits (s.word 0) 15 12 = 0 then h else h.bootFails 1 s.pos
      let i := h.fld 0x04 8 8
      let h := ((h.setFld 0x04 10 10 0).modBoot fun b => { b with body := [], pos := 0 }).toPhase 8
      (h.issue 241 3 i (h.reg (kPwr (0x15 + 2 * i))) (h.reg (kPwr 0x11))).trainPoint :=
  if_neg (by simp [run, goes, last])

section records
variable {h : Hub} {n : Nat}

/-- A DIRECT record that a frame would be refused for writes nothing and fails (R598). -/
theorem bootDirect_refused (next : h.atRecord 1 = some n) (q : EvQueue) (bad : h.pwr.boot.word 1 = 0 ∨ 128 < h.pwr.boot.word 1 ∨
    0x7F < bits (h.pwr.boot.word 0) 6 0 + h.pwr.boot.word 1 - 1) :
    bootDirect h q = ((h.passRecord n).bootFails 1 h.pwr.boot.pos, q) := by
  unfold bootDirect
  rw [next]
  exact if_pos bad

/-- Another DIRECT record writes its words as one frame does. -/
theorem bootDirect_writes (next : h.atRecord 1 = some n) (q : EvQueue) (least : 1 ≤ h.pwr.boot.word 1) (most : h.pwr.boot.word 1 ≤ 128)
    (fits : bits (h.pwr.boot.word 0) 6 0 + h.pwr.boot.word 1 - 1 ≤ 0x7F) :
    bootDirect h q =
      let s := h.pwr.boot
      let a := bits (s.word 0) 6 0
      let h := h.passRecord n
      let h := if a ≤ 0x14 ∧ 0x14 < a + s.word 1 then h.modPath 2 fun b => { b with wstat := 0 } else h
      let x := bootComplete ((s.data 2 (s.word 1)).zipIdx.foldl (fun x w => bootDirectWrite x (a + w.2) w.1) { h := h, q := q }) true
      (x.h.bootFails x.bad s.pos, x.q) := by
  unfold bootDirect
  rw [next]
  exact if_neg (by omega)

/-- A WINDOW record without data fails. -/
theorem bootWindow_refused (next : h.atRecord 2 = some n) (q : EvQueue) (empty : h.pwr.boot.word 3 = 0) :
    bootWindow h q = ((h.passRecord n).bootFails 1 h.pwr.boot.pos, q) := by
  unfold bootWindow
  rw [next]
  exact if_pos empty

theorem bootWindow_writes (next : h.atRecord 2 = some n) (q : EvQueue) (data : h.pwr.boot.word 3 ≠ 0) :
    bootWindow h q =
      let s := h.pwr.boot
      let x := bootComplete ((s.data 4 (s.word 3)).zipIdx.foldl (fun x w =>
        x.spaceWrite 2 (bits (s.word 0) 7 0) ((65536 * s.word 1 + s.word 2 + w.2) % 2 ^ 32) w.1) { h := h.passRecord n, q := q }) false
      (x.h.bootFails x.bad s.pos, x.q) := by
  unfold bootWindow
  rw [next]
  exact if_neg data

/-- An FLOAD record fails while a store command runs (R538). -/
theorem Hub.bootFload_refused (next : h.atRecord 3 = some n) (x : NandIn) (busy : h.nand.busy ≠ none) :
    h.bootFload x = (h.passRecord n).bootFails 1 h.pwr.boot.pos := by
  unfold Hub.bootFload
  rw [next]
  exact if_pos (Option.isSome_iff_ne_none.2 busy)

theorem Hub.bootFload_starts (next : h.atRecord 3 = some n) (x : NandIn) (idle : h.nand.busy = none) :
    h.bootFload x =
      let s := h.pwr.boot
      let h := (((h.passRecord n).setReg (kCar 0x1001) (s.word 1 % 8)).setReg (kCar 0x1002) (s.word 2 % 4096)).setReg (kCar 0x1005) (s.word 0 % 16)
      ((h.setEffN (kCar 0x1003) 2 (65536 * s.word 3 + s.word 4)).carCmd 9 x).modBoot fun b => { b with wait := .fload, from_ := s.pos } := by
  unfold Hub.bootFload
  rw [next]
  exact if_neg (fun busy => Option.isSome_iff_ne_none.1 busy idle)

/-- A delay outside 1 to 10,000 ms fails and does not wait (R598). -/
theorem Hub.bootWait_refused (next : h.atRecord 4 = some n) (bad : h.pwr.boot.word 1 = 0 ∨ 10000 < h.pwr.boot.word 1) :
    h.bootWait = (h.passRecord n).bootFails 1 h.pwr.boot.pos := by
  unfold Hub.bootWait
  rw [next]
  exact if_pos bad

theorem Hub.bootWait_waits (next : h.atRecord 4 = some n) (least : 1 ≤ h.pwr.boot.word 1) (most : h.pwr.boot.word 1 ≤ 10000) :
    h.bootWait = (h.passRecord n).modBoot fun c => { c with wait := .delay, from_ := h.pwr.boot.pos } := by
  unfold Hub.bootWait
  rw [next]
  exact if_neg (by omega)

theorem Hub.bootWaitEnd_goes (wait : h.pwr.boot.wait = .delay) : h.bootWaitEnd = h.modBoot fun b => { b with wait := .none } := if_pos wait

end records

/-! ### The chime path (R594, R595) -/

theorem Hub.chimeCmd_requests {h : Hub} (ready : h.chimeP = true) {w : Nat} (key : bits w 15 12 = 3) :
    h.chimeCmd w = h.modPwr fun p => { p with chime := { p.chime with req := some (bits w 1 0, 1) } } := by
  rw [Hub.chimeCmd, if_pos key]
  exact if_pos ready

theorem Hub.chimeCmd_releases {h : Hub} (ready : h.chimeP = true) (stands : h.pwr.chime.releasing = false) {w : Nat} (key : bits w 15 12 = 9) :
    h.chimeCmd w = h.modPwr fun p => { p with chime := { p.chime with releaseReq := true } } := by
  rw [Hub.chimeCmd, if_neg (by omega)]
  exact if_pos ⟨key, ready, by simp [stands]⟩

/-- Settles O52, command by command from what each does in the state that its clause names. -/
theorem startUpCommandsAnswer : Obligations.StartUpCommandsAnswer := by
  refine ⟨fun s ms xl input off => ?fabricStart, fun s us on first => ⟨?loadDone, Hub.otpLoad_loaded _ _⟩, fun s on => ?dramInit,
    fun s on => ?amplifierLevel, fun s i rest l cands phase free => ?verify, fun s l run goes last => ?endRecord, fun s n l => ?records,
    fun s w l ready => ?chime, fun s xl l due idle => ?systemReset, fun s cut loss => ?logicStop⟩
  case fabricStart =>
    obtain ⟨regs, ev, clu, cp, e⟩ := fabricStart_frame s.hub ms.toNat xl
    refine ⟨(fabricStart s.hub ms.toNat xl).1, ?_, by rw [e], by rw [e]⟩
    rw [exec_fabricStart, powerOn_starts input off, fabricStart_queue]
  case loadDone => rw [exec_loadDone on, Hub.loadDone_loads on first]
  case dramInit => exact ⟨_, exec_dramInitDone on, Hub.dramInit_clears on⟩
  case amplifierLevel => rw [exec_amplifierLevel on, amplifierLevel_on on]
  case verify =>
    rw [exec_bootVerify l]
    refine ⟨fun ok => by rw [Hub.bootVerify_accepts cands phase free ok], fun bad => ?_⟩
    rw [Hub.bootVerify_rejects cands phase free bad]
    exact ⟨fun out => by rw [if_pos (by simp [out])], fun more => by rw [if_neg (by simp [more])]⟩
  case endRecord => rw [exec_bootEndRecord l, Hub.bootEnd_ends run goes last]
  case records =>
    refine ⟨fun next => ⟨fun bad => ?_, fun least most fits => ?_⟩, fun next => ⟨fun empty => ?_, fun data => ?_⟩,
      fun next x => ⟨fun busy => ?_, fun idle => ?_⟩, fun next => ⟨fun bad => ?_, fun least most => ?_⟩, fun wait => ?_⟩
    · rw [exec_bootDirect l, bootDirect_refused next _ bad]
    · rw [exec_bootDirect l, bootDirect_writes next _ least most fits]
    · rw [exec_bootWindow l, bootWindow_refused next _ empty]
    · rw [exec_bootWindow l, bootWindow_writes next _ data]
    · rw [exec_bootFload l, Hub.bootFload_refused next x busy]
    · rw [exec_bootFload l, Hub.bootFload_starts next x idle]
    · rw [exec_bootWait l, Hub.bootWait_refused next bad]
    · rw [exec_bootWait l, Hub.bootWait_waits next least most]
    · rw [exec_bootWaitEnd l, Hub.bootWaitEnd_goes wait]
  case chime =>
    refine ⟨fun key => ?_, fun key stands => ?_⟩
    · rw [exec_chimeRequest l, Hub.chimeCmd_requests ready key]
    · rw [exec_chimeRelease l, Hub.chimeCmd_releases ready stands key]
  case systemReset =>
    obtain ⟨k, restart, time, words, objs, cause⟩ := systemReset_restarts due idle s.q xl
    obtain ⟨regs, ev, clu, cp, e⟩ := fabricStart_frame k s.hub.sinceZero xl
    refine ⟨(fabricStart k s.hub.sinceZero xl).1, ?_, by rw [e], by rw [e, words], by rw [e, objs], ?_⟩
    · rw [exec_systemReset l, restart, fabricStart_queue, time]
    · rw [fabricStart_fld k _ xl (by decide) (by decide), cause]
  case logicStop => rw [exec_logicStop, logicStop_stops loss]

end Sys2Proof.Machine
end

section
/-! PROOF. What a command can do to the state, and that a step runs the front command (O57). -/

namespace Sys2Proof.Machine

/-- The four forms of a command: it changes the hub while the fabric runs; one that moves or restarts the event queue changes hub
and queue while the fabric runs; a happening of the supply changes the hub, or hub and queue where it restarts the queue, whether
or not the fabric runs (R24, R591, R603). -/
theorem exec_forms (c : Instr) (s : State) :
    (∃ h, exec c s = .next { s with hub := if s.live then h else s.hub }) ∨
    ((movesQueue c || restartsQueue c) = true ∧ ∃ h q, exec c s = if s.live then .next { s with hub := h, q := q } else .next s) ∨
    supplyActs c = true ∧ ((∃ h, exec c s = .next (s.withHub h)) ∨
      restartsQueue c = true ∧ ∃ h q, exec c s = .next { s with hub := h, q := q }) := by
  cases c with
  | cpNop | cpRd | cpRdf | cpWr | cpWrf | cpRpl | cpInvalidOp | frameTimeout | frameShort | ownerHandover | ownerClaim | windowWrite
  | conditionalClear | registerWrite | eventEntry | eventRelease | hwmReset | nandMount | mountFailed | amplifierLevel | bootDirect
  | bootWindow | systemReset => exact .inr (.inl ⟨rfl, _, _, rfl⟩)
  | inputQualified | inputLost => exact .inr (.inr ⟨rfl, .inl ⟨_, rfl⟩⟩)
  | fabricStart | logicStop => exact .inr (.inr ⟨rfl, .inr ⟨rfl, _, _, rfl⟩⟩)
  | _ => exact .inl ⟨_, rfl⟩

/-- Every command completes, and the commands that wait stay as they are. -/
theorem exec_completes (c : Instr) (s : State) : ∃ t, exec c s = .next t ∧ t.pending = s.pending := by
  obtain ⟨h, e⟩ | ⟨-, h, q, e⟩ | ⟨-, ⟨h, e⟩ | ⟨-, h, q, e⟩⟩ := exec_forms c s
  · exact ⟨_, e, rfl⟩
  · cases live : s.live
    · exact ⟨s, by simp [e, live], rfl⟩
    · exact ⟨{ s with hub := h, q := q }, by simp [e, live], rfl⟩
  · exact ⟨_, e, rfl⟩
  · exact ⟨_, e, rfl⟩

/-- While the fabric does not run only the supply acts (R24). -/
theorem exec_of_dead {c : Instr} {s : State} (dead : s.live = false) (other : supplyActs c = false) : exec c s = .next s := by
  obtain ⟨h, e⟩ | ⟨-, h, q, e⟩ | ⟨supply, -⟩ := exec_forms c s
  · simp [e, dead]
  · simp [e, dead]
  · simp [supply] at other

/-- Settles O57, from the forms that a command has. -/
theorem stepRunsTheFrontCommand : Obligations.StepRunsTheFrontCommand :=
  ⟨fun _ _ _ => rfl, exec_completes, fun _ _ => exec_of_dead, fun s idle => by rw [step, idle]⟩

end Sys2Proof.Machine
end

section
/-! PROOF. The tick of a domain: its counter and epoch, and its parts in their order (O12). -/

namespace Sys2Proof.Machine

/-! ### Counter and epoch as one number of 80 bits (R81) -/

theorem ofNat_counter_tick (t : BitVec 32) (e : BitVec 48) : BitVec.ofNat 32 (t.toNat + 2 ^ 32 * e.toNat + 1) = t + 1 := by
  apply BitVec.eq_of_toNat_eq
  have one : (1 : BitVec 32).toNat = 1 := rfl
  rw [BitVec.toNat_ofNat, BitVec.toNat_add, one]
  omega

/-- The epoch counts where the counter wraps. -/
theorem ofNat_counter_epoch (t : BitVec 32) (e : BitVec 48) :
    BitVec.ofNat 48 ((t.toNat + 2 ^ 32 * e.toNat + 1) / 2 ^ 32) = e + if t = BitVec.allOnes 32 then 1 else 0 := by
  have low := t.isLt
  have wraps : t = BitVec.allOnes 32 ↔ t.toNat = 2 ^ 32 - 1 := by rw [← BitVec.toNat_inj, BitVec.toNat_allOnes]
  by_cases last : t = BitVec.allOnes 32
  · have carry : (t.toNat + 2 ^ 32 * e.toNat + 1) / 2 ^ 32 = e.toNat + 1 := by rw [wraps] at last; omega
    rw [carry, if_pos last, BitVec.ofNat_add, BitVec.ofNat_toNat, BitVec.setWidth_eq]
    rfl
  · have carry : (t.toNat + 2 ^ 32 * e.toNat + 1) / 2 ^ 32 = e.toNat := by rw [wraps] at last; omega
    rw [carry, if_neg last, BitVec.ofNat_toNat, BitVec.setWidth_eq]
    exact (BitVec.add_zero e).symm

/-! ### The clock's part of a tick (R79 to R81) -/

/-- A refused binding shows in registers and events; the domains stay as they are. -/
@[simp] theorem Hub.dom_refuseRate (h : Hub) (d field : Nat) (why : Nat × Nat) (e : Nat) :
    (h.refuseRate d field why).dom e = h.dom e := by
  obtain ⟨ev, cp, frame⟩ := ((h.setFlag (kCksFlag 4)).setFld 0x31 (4 * d + 3) (4 * d)
    ((h.dom d).rebind.getD (h.dom d).field)).issue_frame (101 + d) 2 field why.1 (if why.1 = 3 then why.2 else 0)
  rw [Hub.refuseRate, frame]
  rfl

/-- The domains after the clock's part of a tick: `d` has counted, and where it stops the binding that waited is settled. -/
theorem Hub.dom_domCount (h : Hub) (d : Nat) : ∃ f : Domain → Domain,
    (∀ e, (h.domCount d).dom e =
      if (h.dom d).disabling then ((h.modDom d f).settleBind d).dom e else (h.modDom d f).dom e) ∧
    let x := (h.dom d).tick.toNat + 2 ^ 32 * (h.dom d).epoch.toNat + 1
    (∀ m, (f m).tick = if m.fresh then 0 else BitVec.ofNat 32 x) ∧
    (∀ m, (f m).epoch = if m.fresh then 0 else BitVec.ofNat 48 (x / 2 ^ 32)) := by
  refine ⟨?counted, fun e => ?domains, fun m => ?tick, fun m => ?epoch⟩
  case domains =>
    unfold Hub.domCount
    dsimp only
    split <;> split <;> rfl
  case tick => rfl
  case epoch => rfl

section domain
variable (h : Hub) {d : Nat} (hd : d < 4)
include hd

theorem Hub.dom_settleBind_other {e : Nat} (he : e ≠ d) : (h.settleBind d).dom e = h.dom e := by
  unfold Hub.settleBind
  split
  · rfl
  · dsimp only
    split <;> simp [Hub.dom_modDom, hd, he]

/-- Settling a binding keeps the domain's counter and epoch. -/
theorem Hub.settleBind_counter :
    ((h.settleBind d).dom d).tick = (h.dom d).tick ∧ ((h.settleBind d).dom d).epoch = (h.dom d).epoch := by
  unfold Hub.settleBind
  split
  · exact ⟨rfl, rfl⟩
  · dsimp only
    split <;> simp [Hub.dom_modDom, hd]

theorem Hub.dom_domCount_other {e : Nat} (he : e ≠ d) : (h.domCount d).dom e = h.dom e := by
  obtain ⟨f, domains, -⟩ := h.dom_domCount d
  have other : (h.modDom d f).dom e = h.dom e := by rw [Hub.dom_modDom h hd, if_neg he]
  rw [domains, Hub.dom_settleBind_other _ hd he, other, ite_self]

theorem Hub.domCount_counter : let m := h.dom d
    ((h.domCount d).dom d).tick = (if m.fresh then 0 else m.tick + 1) ∧
    ((h.domCount d).dom d).epoch = (if m.fresh then 0 else m.epoch + if m.tick = BitVec.allOnes 32 then 1 else 0) := by
  obtain ⟨f, domains, tick, epoch⟩ := h.dom_domCount d
  have counted : (h.modDom d f).dom d = f (h.dom d) := by rw [Hub.dom_modDom h hd, if_pos rfl]
  obtain ⟨keptTick, keptEpoch⟩ := (h.modDom d f).settleBind_counter hd
  rw [ofNat_counter_tick] at tick
  rw [ofNat_counter_epoch] at epoch
  rw [counted, tick] at keptTick
  rw [counted, epoch] at keptEpoch
  rw [domains, counted]
  split
  · exact ⟨keptTick, keptEpoch⟩
  · exact ⟨tick _, epoch _⟩

end domain

/-! ### DOMAIN_TICK (R19) -/

theorem exec_domainTick {s : State} (live : s.live = true) (d : Fin 4) (x : TickIn) :
    exec (.domainTick d x) s = .next (s.withHub (s.hub.domainTick d x)) := State.onHub_next live fun h => h.domainTick d x

/-- The parts of a running domain's tick; whether DOM0 starts with it is judged before the tick. -/
theorem Hub.domainTick_runs {h : Hub} {d : Nat} (run : (h.dom d).run = true) (x : TickIn) : h.domainTick d x =
    let g := (h.domCount d).publish d
    let g := if d = 0 ∧ h.clk.started = false then g.firstTick else g
    let g := (g.strTick d).sinksTick d
    let g := (if d = 0 then g.chimeTick else g).snapshot d x
    let g := (g.engsOf d).foldl (fun g n => g.engJudge n) g
    let g := (g.matrixTick d).calTick d
    let g := if d = 0 then g.cueFire else g
    ((g.engsOf d).foldl (fun g n => g.engBegin n) g).kickAll := by
  have first : ((d == 0 && !h.clk.started) = true) = (d = 0 ∧ h.clk.started = false) := by simp
  rw [Hub.domainTick, if_neg (by simp [run])]
  simp only [first]

/-- Settles O12: the parts by what a tick of a running domain does, counter and epoch by the clock's part of it. -/
theorem domainTickAnswers : Obligations.DomainTickAnswers := by
  refine ⟨fun s d x live run => ?tick, fun h d => ⟨fun counts => ?counts, fun fresh => ?fresh, fun e he => ?others⟩⟩
  case tick => rw [exec_domainTick live, Hub.domainTick_runs run]
  case counts => simpa [counts] using h.domCount_counter d.isLt
  case fresh => simpa [fresh] using h.domCount_counter d.isLt
  case others => exact h.dom_domCount_other d.isLt fun same => he (Fin.ext same)

end Sys2Proof.Machine
end

section
/-! PROOF. The deadline registers, the speed monitors (O13) and adaptive supply control (O14). -/

namespace Sys2Proof.Machine

/-! ### Registers of the control port, outside the spaces -/

/-- A word of the control port's own space is no word of space 0x3F. -/
theorem direct_ne_spc {a : Nat} (ha : a < 2 ^ 32) (off : Nat) : a ≠ spc 0x3F off := by simp only [spc]; omega

theorem Hub.fld_setReg_other (h : Hub) {k j : Nat} (n hi lo : Nat) (e : j ≠ k) : (h.setReg k n).fld j hi lo = h.fld j hi lo := by
  rw [Hub.fld, Hub.reg_setReg_other h n e, Hub.fld]

/-! ### Writes of the owner (R116) -/

theorem Hub.failWin_first {h : Hub} (clear : h.cp.fail = none) (cause off : Nat) :
    h.failWin cause off = { h with cp := { h.cp with fail := some (cause, off) } } := if_pos (by simp [clear])

/-- A failure noted changes the control port only. -/
theorem Hub.noteFail_frame (h : Hub) (path : Nat) : ∃ cp, h.noteFail path = { h with cp := cp } := by
  unfold Hub.noteFail
  split
  · exact ⟨h.cp, rfl⟩
  · split <;> exact ⟨_, rfl⟩

/-- A failure shows in the bank of the path that noted it, where no earlier one stands. -/
theorem Hub.noteFail_path {h : Hub} {cause off : Nat} (failed : h.cp.fail = some (cause, off)) (p : Nat) :
    (h.noteFail p).path p = (h.path p).fails cause off := by
  unfold Hub.noteFail Hub.path
  rw [failed]
  dsimp only
  split <;> rfl

theorem CpPath.fails_clear {b : CpPath} (clear : b.wstat = 0) (cause off : Nat) :
    b.fails cause off = { b with wstat := BitVec.ofNat 3 cause, wfail := BitVec.ofNat 32 off } := if_pos clear

@[simp] theorem Hub.noteFail_regs (h : Hub) (path : Nat) : (h.noteFail path).regs = h.regs := by
  obtain ⟨_, e⟩ := h.noteFail_frame path; rw [e]
@[simp] theorem Hub.noteFail_engs (h : Hub) (path : Nat) : (h.noteFail path).engs = h.engs := by
  obtain ⟨_, e⟩ := h.noteFail_frame path; rw [e]

/-- A write into the space of an engine that is not reserved (R169). -/
theorem State.onWrite_seWrite {s : State} (live : s.live = true) {n : Nat} (free : s.hub.reserved n = false) (f : Hub → Hub) :
    (s.onWrite fun h => h.seWrite n f) = .next (s.wrote (f s.hub)) := by
  rw [State.onWrite_next live, Hub.seWrite, if_neg (by simp [free])]

/-! ### Deadline registers (R37, R40, R194) -/

section runs
variable {s : State} (live : s.live = true) (n : Fin 16)
include live

theorem exec_bundleLimitEnd (x : EndIn) (running : (s.hub.engine n).run.inprog = true) (most : 8192 ≤ (s.hub.engine n).run.count) :
    exec (.bundleLimitEnd n x) s = .next (s.withHub ((if (s.hub.engine n).run.count = (s.hub.engine n).run.plen then
      (s.hub.seFlag n 0x004).issueLimited 0 n 0x102 (s.hub.engine n).run.plen (s.hub.engine n).run.count 0 else s.hub).programEnd n x)) :=
  (State.onHub_next live _).trans (congrArg (fun h => Host.Outcome.next (s.withHub h)) (if_pos (by rw [running, decide_eq_true most]; rfl)))

theorem exec_sePlenWrite (free : s.hub.reserved n = false) (len : BitVec 14) :
    exec (.sePlenWrite n len) s = .next (s.wrote (s.hub.plenWrite n len.toNat)) :=
  State.onWrite_seWrite live free fun h => h.plenWrite n len.toNat

theorem exec_slackMinReset (free : s.hub.reserved n = false) :
    exec (.slackMinReset n) s = .next (s.wrote (s.hub.setReg (kSe n 7) 0xFFFF)) :=
  State.onWrite_seWrite live free fun h => h.slackMinReset n

theorem exec_speedMonitorReading (m : Fin 8) (rate : Word) :
    exec (.speedMonitorReading m rate) s = .next (s.withHub (s.hub.speedReading m rate.toNat)) :=
  State.onHub_next live fun h => h.speedReading m rate.toNat

theorem exec_ascEvaluation : exec .ascEvaluation s = .next (s.withHub s.hub.ascEvaluate) := State.onHub_next live _

end runs

/-- A length in range, or any while SPEN is 0 in force, is stored (R37). -/
theorem Hub.plenWrite_stores {h : Hub} {n : Nat} {len : BitVec 14}
    (ok : (h.engine n).run.spen = true → len ≠ 0 ∧ len.toNat ≤ h.budget n) :
    h.plenWrite n len.toNat = (h.setReg (kSe n 1) len.toNat).imageReg n 0x40001 := by
  have taken : ¬ ((h.engine n).run.spen && h.lenBad n (len.toNat % 2 ^ 14)) = true := by
    cases spen : (h.engine n).run.spen with
    | false => simp
    | true =>
      obtain ⟨nonzero, fits⟩ := ok spen
      have pos : len.toNat ≠ 0 := fun e => nonzero (BitVec.eq_of_toNat_eq e)
      simp [Hub.lenBad, Nat.mod_eq_of_lt len.isLt, pos, fits]
  rw [Hub.plenWrite, if_neg taken, Nat.mod_eq_of_lt len.isLt]

/-- While SPEN is 1 in force a length out of range fails (R37). -/
theorem Hub.plenWrite_fails {h : Hub} {n : Nat} {len : BitVec 14} (spen : (h.engine n).run.spen = true)
    (bad : len = 0 ∨ h.budget n < len.toNat) : h.plenWrite n len.toNat = h.failWin 3 0x40001 := by
  have judged : h.lenBad n (len.toNat % 2 ^ 14) = true := by
    rw [Nat.mod_eq_of_lt len.isLt]
    rcases bad with rfl | long
    · rfl
    · simp [Hub.lenBad, long]
  exact if_pos (by rw [spen, judged]; rfl)

/-! ### Speed monitors (R41) -/

theorem Hub.speedReading_below (h : Hub) (m : Nat) {rate : Nat} (low : rate < 480) : h.speedReading m rate =
    let g := h.setReg (spc 0x3F (0x108 + m)) rate
    let g := { g with asc := { g.asc with breach := true, good := tput (fun _ => 0) g.asc.good m 0 } }
    ((g.setFlag (spc 0x3F 0x110)).issueLimited m 225 1 m rate (h.reg 0x6E)).setCode (h.fld 0x6F 13 8) := by
  have code := h.reg_setReg_other rate (direct_ne_spc (a := 0x6E) (by decide) (0x108 + m))
  have ceil := h.fld_setReg_other rate 13 8 (direct_ne_spc (a := 0x6F) (by decide) (0x108 + m))
  rw [← code, ← ceil]
  exact if_pos low

/-- A reading at or above the floor counts for its monitor; the breach ends with 1,000 of them on every monitor. -/
theorem Hub.speedReading_above (h : Hub) (m : Nat) {rate : Nat} (high : 480 ≤ rate) : h.speedReading m rate =
    let good := tput (fun _ => 0) h.asc.good m (min 1000 (tget (fun _ => 0) h.asc.good m + 1))
    let all := (List.range 8).all fun i => decide (1000 ≤ tget (fun _ => 0) good i)
    { h.setReg (spc 0x3F (0x108 + m)) rate with asc := { h.asc with good := good, breach := h.asc.breach && !all } } :=
  if_neg (by omega)

theorem all_range_iff_forall_fin {n : Nat} (p : Nat → Bool) : (List.range n).all p = true ↔ ∀ i : Fin n, p i = true := by
  simp [List.all_eq_true, Fin.forall_iff]

/-- Settles O13, by what each command does with a value in and out of its range. -/
theorem deadlineCommandsAnswer : Obligations.DeadlineCommandsAnswer := by
  refine ⟨fun s n x live running most => exec_bundleLimitEnd live n x running most, fun s n len live free ok => ?stored,
    fun s n live free => exec_slackMinReset live n free, fun s m rate live low => ?below, fun s m rate live high => ?above,
    fun s n len live free spen bad clear => ?refused⟩
  case stored => rw [exec_sePlenWrite live n free, Hub.plenWrite_stores ok]
  case below => rw [exec_speedMonitorReading live, Hub.speedReading_below _ _ low]
  case above =>
    intro good all
    have every := all_range_iff_forall_fin (n := 8) fun i => decide (1000 ≤ tget (fun _ => 0) good i)
    simp only [decide_eq_true_eq] at every
    refine ⟨_, exec_speedMonitorReading live m rate, ?_⟩
    rw [Hub.speedReading_above _ _ high]
    refine ⟨?reading, rfl, fun ends => ?ended, fun goesOn => ?stays⟩
    case reading => exact (Hub.reg_setReg_same _ _ _).trans (Nat.mod_eq_of_lt rate.isLt)
    case ended => exact (congrArg (s.hub.asc.breach && !·) (every.2 ends)).trans (Bool.and_false _)
    case stays => exact (congrArg (s.hub.asc.breach && !·) (Bool.eq_false_iff.2 (mt every.1 goesOn))).trans (Bool.and_true _)
  case refused =>
    generalize write : s.hub.plenWrite n len.toNat = g
    have failed : g = { s.hub with cp := { s.hub.cp with fail := some (3, 0x40001) } } := by
      rw [← write, Hub.plenWrite_fails spen bad, Hub.failWin_first clear]
    have shown : ∀ p, s.hub.owner = p → (s.hub.path p).wstat = 0 → ((g.noteFail s.hub.owner).path p).wstat = 3 := by
      rintro p rfl wstat
      have kept : g.path s.hub.owner = s.hub.path s.hub.owner := by rw [failed]; rfl
      rw [Hub.noteFail_path (by rw [failed]), CpPath.fails_clear (by rw [kept, wstat])]
      rfl
    refine ⟨s.wrote g, by rw [exec_sePlenWrite live n free, write], ?regs, ?engs, shown 0, shown 1⟩
    case regs => rw [Hub.noteFail_regs, failed]
    case engs => rw [Hub.noteFail_engs, failed]

/-! ### Adaptive supply control (R42, R43) -/

/-- Words beside a field of `m` words are unchanged by storing it. -/
theorem Hub.reg_setRegN_apart (h : Hub) {k j : Nat} (m n : Nat) (apart : j < k ∨ k + m ≤ j) : (h.setRegN k m n).reg j = h.reg j := by
  induction m generalizing h k n with
  | zero => rfl
  | succ m ih => rw [Hub.setRegN, ih _ _ (by omega), Hub.reg_setReg_other _ _ (by omega)]

/-- Of the registers a rate-limited event writes SUPCNT only, in space 0x02 (R142). -/
theorem Hub.reg_issueLimited (h : Hub) (sub src code d0 d1 d2 : Nat) {j : Nat} (direct : j < 2 ^ 32) :
    (h.issueLimited sub src code d0 d1 d2).reg j = h.reg j := by
  obtain ⟨cp, counted⟩ := h.noteRefusal_frame src code
  unfold Hub.issueLimited
  split
  · rw [counted]; rfl
  · split
    · rw [Hub.addSat, Hub.reg_setRegN_apart _ _ _ (.inl (by simp only [spc]; omega)), counted]; rfl
    · exact h.reg_issue src code d0 d1 d2 j

/-- The code after a move: never above CEIL (R42). -/
theorem Hub.reg_setCode (h : Hub) (c : Nat) : (h.setCode c).reg 0x6E = min c h.ascCeil := by
  have ceil : h.ascCeil < 2 ^ (13 - 8 + 1) := bits_lt _ _ _
  rw [Hub.setCode, Hub.addWrap, Hub.reg_setRegN_apart _ _ _ (.inl (by decide)), Hub.reg_setReg_same]
  omega

/-- A raise, whether or not the code stood at CEIL before it (R43, R44). -/
theorem Hub.reg_ascRaise (h : Hub) (k : Nat) : (h.ascRaise k).reg 0x6E = min (h.reg 0x6E + k) h.ascCeil := by
  unfold Hub.ascRaise
  dsimp only
  rw [Hub.reg_setCode]
  split
  · rw [Hub.ascCeil, Hub.fld, Hub.reg_issueLimited _ _ _ _ _ _ _ (by decide), Hub.setFlag, Hub.reg_setReg_other _ _ (by decide)]; rfl
  · rfl

/-- The interval's least slack: 0xFFFF where no engine was enabled (R40). -/
def Asc.least (a : Asc) : Nat := if a.any then a.slack else 0xFFFF

/-- Consecutive intervals with the slack at or above HIGH, this one included (R43). -/
def Hub.ascDwell (h : Hub) : Nat := if h.reg (spc 0x3F 0x101) ≤ h.asc.least then h.asc.dwell + 1 else 0

/-- SE_HUBSLACK as the evaluation publishes it (R40). -/
def Hub.ascShown (h : Hub) : Hub := h.setReg 0x2F (4096 * h.asc.eng + h.asc.least / 16)

theorem Hub.reg_ascShown (h : Hub) {j : Nat} (e : j ≠ 0x2F) : h.ascShown.reg j = h.reg j := Hub.reg_setReg_other h _ e

theorem Hub.ascCeil_ascShown (h : Hub) : h.ascShown.ascCeil = h.ascCeil := Hub.fld_setReg_other h _ 13 8 (by decide)

/-- What the evaluation of automatic mode does without a floor breach, and the count of intervals that it leaves (R43). -/
def Hub.ascMoved (h : Hub) : Hub × Nat :=
  if h.asc.missed then (h.ascShown.ascRaise 8, 0)
  else if h.asc.least < h.reg (spc 0x3F 0x100) then (h.ascShown.ascRaise 2, 0)
  else if h.reg (spc 0x3F 0x102) ≤ h.ascDwell then (h.ascShown.setCode (h.reg 0x6E - 1), 0)
  else (h.ascShown.setCode (h.reg 0x6E), h.ascDwell)

theorem Hub.ascEvaluate_auto {h : Hub} (started : h.clk.started = true) (breach : h.asc.breach = false) (auto : h.fld 0x6F 1 0 = 0) :
    h.ascEvaluate = { h.ascMoved.1 with
      asc := { h.ascMoved.1.asc with slack := 0xFFFF, eng := 0, any := false, missed := false, dwell := h.ascMoved.2 } } := by
  have mode : h.ascShown.fld 0x6F 1 0 = 0 := (Hub.fld_setReg_other h _ 1 0 (by decide)).trans auto
  have words : ∀ off, h.ascShown.reg (spc 0x3F off) = h.reg (spc 0x3F off) := fun off =>
    h.reg_ascShown (direct_ne_spc (by decide) off).symm
  have code := h.reg_ascShown (j := 0x6E) (by decide)
  rw [Hub.ascMoved, Hub.ascDwell, ← words 0x100, ← words 0x101, ← words 0x102, ← code]
  have unforced : ¬ (h.asc.breach = true ∨ h.ascShown.fld 0x6F 1 0 = 2) := by simp [breach, mode]
  have unfixed : ¬ h.ascShown.fld 0x6F 1 0 = 1 := by simp [mode]
  refine (if_neg (by simp [started])).trans ?_
  dsimp only
  rw [← Asc.least, ← Hub.ascShown, if_neg unforced, if_neg unfixed]

/-- Settles O14, branch by branch of R43. -/
theorem supplyControlEvaluates : Obligations.SupplyControlEvaluates := by
  intro s live started breach auto within code ceil slack dwell
  have eval := Hub.ascEvaluate_auto started breach auto
  have reg : s.hub.ascEvaluate.reg 0x6E = s.hub.ascMoved.1.reg 0x6E := by rw [eval]; rfl
  have count : s.hub.ascEvaluate.asc.dwell = s.hub.ascMoved.2 := by rw [eval]
  have top : s.hub.ascShown.ascCeil = ceil := s.hub.ascCeil_ascShown
  have now : s.hub.ascShown.reg 0x6E = code := s.hub.reg_ascShown (by decide)
  refine ⟨_, exec_ascEvaluation live, ?_⟩
  rw [reg, count]
  refine ⟨fun missed => ?miss, fun met low => ?low, fun met enough long => ?lower, fun met enough short => ?hold⟩
  case miss =>
    have moved : s.hub.ascMoved = (s.hub.ascShown.ascRaise 8, 0) := if_pos missed
    rw [moved, Hub.reg_ascRaise, top, now, Nat.min_comm]
    exact ⟨rfl, rfl⟩
  case low =>
    have moved : s.hub.ascMoved = (s.hub.ascShown.ascRaise 2, 0) := (if_neg (by simp [met])).trans (if_pos low)
    rw [moved, Hub.reg_ascRaise, top, now, Nat.min_comm]
    exact ⟨rfl, rfl⟩
  case lower =>
    have moved : s.hub.ascMoved = (s.hub.ascShown.setCode (code - 1), 0) :=
      (if_neg (by simp [met])).trans ((if_neg (Nat.not_lt.2 enough)).trans (if_pos long))
    rw [moved, Hub.reg_setCode, top]
    exact ⟨by omega, rfl⟩
  case hold =>
    have moved : s.hub.ascMoved = (s.hub.ascShown.setCode code, dwell) :=
      (if_neg (by simp [met])).trans ((if_neg (Nat.not_lt.2 enough)).trans (if_neg (Nat.not_le.2 short)))
    rw [moved, Hub.reg_setCode, top]
    exact ⟨by omega, rfl⟩

end Sys2Proof.Machine
end

section
/-! PROOF. The waits of a bundle: WFE, WTC and WFC hold it while their condition fails (O29). -/

namespace Sys2Proof.Machine

/-! ### What a control operation of a defined bundle waits for (R188, R193, R253 to R255) -/

/-- A control operation of a defined bundle has no predicate (R193). -/
theorem bundleOk_unguarded {i : Instr} {hd : Hdr} (control : opSlot i = some (hd, .k)) (ok : bundleOk [i] = true) : hd.pe = false := by
  simp only [bundleOk, Bool.and_eq_true, List.all_cons, control] at ok
  have unguarded : (Cls.k != .k || !hd.pe) = true := by tauto
  simpa using unguarded

theorem View.guard_unguarded (v : View) {i : Instr} {hd : Hdr} {c : Cls} (slot : opSlot i = some (hd, c)) (free : hd.pe = false) :
    v.guard i = (rv 0, true) := by
  rw [View.guard, slot]
  exact if_neg (by simp [free])

section waits
variable {v : View} {n : Fin 16} {bg : Bool} {hd : Hdr} (free : hd.pe = false)
include free

theorem View.waits_wfe {f : KW} (clear : v.b.latch.getLsbD f.ev = false) : v.waits (.wfe n bg hd f) = 1 := by
  simpa [View.waits, v.guard_unguarded (i := .wfe n bg hd f) rfl free, rv, RVal.crema] using clear

theorem View.waits_wtc {f : KW} (conf : (v.pair 0 f.cr).conf = true) (early : v.h.reached f.dom (v.pair 0 f.cr).n = false) :
    v.waits (.wtc n bg hd f) = 2 := by
  simp only [RVal.conf, Bool.and_eq_true, Bool.not_eq_true', beq_iff_eq] at conf
  simp [View.waits, v.guard_unguarded (i := .wtc n bg hd f) rfl free, rv, RVal.crema, conf, early]

theorem View.waits_wfc (out : v.e.cremaOut v.bg = true) : v.waits (.wfc n bg hd) = 3 := by
  simp [View.waits, v.guard_unguarded (i := .wfc n bg hd) rfl free, rv, RVal.crema, out]

end waits

/-- A bundle of one operation waits with the code of that operation. -/
theorem View.bundleWaits_single {v : View} {i : Instr} (waits : v.waits i ≠ 0) : v.bundleWaits [i] = v.waits i := by
  have first : ([i].zipIdx.map fun p => (v.slot p.2).waits p.1).find? (fun c => c != 0) = some (v.waits i) := by
    have slot : v.slot 0 = v := rfl
    simp [slot, waits]
  rw [View.bundleWaits, first]

/-! ### A bundle that is held (R36, R167, R185) -/

/-- Where ECC finds every word good, nothing is counted or reported (R167). -/
theorem Hub.fetched_good (h : Hub) (n : Nat) {l : List (Nat × Ecc)} (good : l.all (fun p => p.2 == .ok) = true) (sample : Bool) :
    h.fetched n l sample = (h, false) := by
  have each : ∀ p ∈ l, p.2 = .ok := by simpa using good
  have silent : l.foldl (fun h p => h.engEcc n 0 p.1 p.2 sample) h = h := by
    refine List.foldlRecOn l _ (motive := fun g => g = h) rfl fun g same p mem => ?_
    rw [each p mem, same]
    rfl
  have noneBad : l.any (fun p => p.2 == .uncorrectable) = false := by
    rw [List.any_eq_false]
    intro p mem
    rw [each p mem]
    decide
  rw [Hub.fetched, silent, noneBad]

/-- A bundle of good words that is defined is executed, or waits. -/
theorem Hub.bundle_good {h : Hub} {n : Nat} {is : List Instr} (good : ((h.engine n).bundleFound is).all (fun p => p.2 == .ok) = true)
    (ok : bundleOk is = true) : h.bundle n is = h.runSample n (h.engine n).run.discard is := by
  rw [Hub.bundle, Hub.fetched_good h n good]
  simp [ok]

/-- The view of the sample program of engine `n` in which the bundle `is` stands: results that are due have landed. -/
def Hub.bundleView (h : Hub) (n : Nat) (is : List Instr) : View :=
  (h.modEng n fun e => e.land false).viewOf n false (lastWord (h.engine n).shadow.pc is)

theorem Hub.runSample_waits {h : Hub} {n : Nat} {is : List Instr} (waits : (h.bundleView n is).bundleWaits (withoutRep is) ≠ 0) :
    h.runSample n false is =
      (h.beginWait (h.bundleView n is) (withoutRep is) ((h.bundleView n is).bundleWaits (withoutRep is))).modBank n false fun b =>
        { b with held := is } := by
  obtain ⟨k, code⟩ := Nat.exists_eq_succ_of_ne_zero waits
  rw [code]
  unfold Hub.runSample
  dsimp only
  rw [if_neg Bool.false_ne_true, ← Hub.bundleView, code]
  rfl

/-- A wait other than for the park buffer and the XL header holds the bundle and changes nothing else (R36). -/
theorem Hub.beginWait_holds (h : Hub) (v : View) (is : List Instr) {code : Nat} (park : code ≠ 4) (xl : code ≠ 5) :
    h.beginWait v is code = h.modBank v.n v.bg fun b => { b with held := is, wait := code } := by
  rw [Hub.beginWait]
  dsimp only
  rw [if_neg (fun c => park c.1), if_neg (fun c => xl c.1)]

/-- A placed operation that starts and ends a bundle runs that bundle (R185). -/
theorem Hub.slot_alone {h : Hub} {n : Nat} {i : Instr} (placed : (h.engine n).placed false i = true) (issues : h.issues n = true)
    (first : (h.engine n).shadow.bundle = []) (stops : opStops i = true) :
    h.slot n false i = ((h.modBank n false fun b => { b with bundle := [] }).bundle n [i]).kickAll := by
  simp [Hub.slot, placed, issues, first, stops]

/-- The engine of a hub in which its bundle `[i]` is held with the code of the wait, before what waits is tried again. -/
theorem Hub.bundle_held {h : Hub} {n : Nat} {i : Instr} {code : Nat} (kept : (h.engine n).run.discard = false)
    (good : ((h.engine n).bundleFound [i]).all (fun p => p.2 == .ok) = true) (ok : bundleOk [i] = true) (plain : withoutRep [i] = [i])
    (waits : (h.bundleView n [i]).waits i = code) (range : 1 ≤ code ∧ code ≤ 3) :
    (h.bundle n [i]).engine n = { h.engine n with shadow := { (h.engine n).shadow with held := [i], wait := code } } := by
  have held : (h.bundleView n [i]).bundleWaits (withoutRep [i]) = code := by
    rw [plain, View.bundleWaits_single (by omega), waits]
  rw [Hub.bundle_good good ok, kept, Hub.runSample_waits (by omega), held, Hub.beginWait_holds _ _ _ (by omega) (by omega)]
  simp [Hub.modBank, Engine.modBank, Hub.bundleView, Hub.viewOf]

/-- Settles O29: the three waits by their conditions, then the bundle that a wait holds. -/
theorem waitsHoldTheBundle : Obligations.WaitsHoldTheBundle := by
  intro s n hd i live placed issues first stop kept good ok v code cause
  have wait : exec i s = s.onHub (fun h => h.slot n false i) ∧ opStops i = true ∧ withoutRep [i] = [i] ∧ v.waits i = code ∧
      1 ≤ code ∧ code ≤ 3 := by
    rcases cause with ⟨f, rfl, clear, rfl⟩ | ⟨f, rfl, conf, early, rfl⟩ | ⟨rfl, out, rfl⟩
    case inl => exact ⟨rfl, stop, rfl, View.waits_wfe (bundleOk_unguarded rfl ok) clear, by decide⟩
    case inr.inl => exact ⟨rfl, stop, rfl, View.waits_wtc (bundleOk_unguarded rfl ok) conf early, by decide⟩
    case inr.inr => exact ⟨rfl, stop, rfl, View.waits_wfc (bundleOk_unguarded rfl ok) out, by decide⟩
  obtain ⟨runs, stops, plain, waits, range⟩ := wait
  have running : (s.hub.engine n).run.inprog = true := by
    simp only [Hub.issues, Bool.and_eq_true] at issues
    obtain ⟨⟨⟨running, -⟩, -⟩, -⟩ := issues
    exact running
  generalize e : s.hub.modBank n false (fun b => { b with bundle := [] }) = g
  have emptied : g.engine n = { s.hub.engine n with shadow := { (s.hub.engine n).shadow with bundle := [] } } := by
    rw [← e]; exact Hub.engine_modEng_same _ _ _
  have held : (g.bundle n [i]).engine n = _ := Hub.bundle_held (code := code) (by rw [emptied]; exact kept) (by rw [emptied]; exact good) ok plain
    (by rw [← waits, Hub.bundleView, emptied, ← e]; rfl) range
  refine ⟨g.bundle n [i], ?_, ?_⟩
  · rw [runs, State.onHub_next live, Hub.slot_alone placed issues first stops, e]
  · rw [held, emptied]
    exact ⟨rfl, rfl, rfl, running⟩

end Sys2Proof.Machine
end

section
/-! PROOF. Accesses of the control port while the fabric stalls none: the banks of the paths, the accesses of one frame, ownership
and the window (R100, R108 to R116). -/

namespace Sys2Proof.Machine

/-! ### The bank of a path (R112) -/

@[simp] theorem Hub.path_modPath (h : Hub) (p : Nat) (f : CpPath → CpPath) : (h.modPath p f).path p = f (h.path p) := by
  unfold Hub.modPath Hub.path
  split <;> rfl

@[simp] theorem Hub.modPath_stalls (h : Hub) (p : Nat) (f : CpPath → CpPath) : (h.modPath p f).cp.stalls = h.cp.stalls := by
  unfold Hub.modPath
  split <;> rfl

theorem Hub.path_leaseKept (h : Hub) (was p j : Nat) : (h.leaseKept was p).path j = h.path j := by
  unfold Hub.leaseKept
  split <;> rfl

theorem CpPath.advance_wstat (b : CpPath) : b.advance.wstat = b.wstat := by
  unfold CpPath.advance
  split <;> rfl

/-! ### Accesses while no access is ended by the watchdog (R53, R112, R116) -/

theorem Hub.linkStalls_quiet {h : Hub} (quiet : h.cp.stalls = []) (kind i p : Nat) : h.linkStalls kind i p = false := by
  simp [Hub.linkStalls, quiet]

theorem Hub.spaceLink_quiet {h : Hub} (quiet : h.cp.stalls = []) (p sp o : Nat) : h.spaceLink p sp o = none := by
  simp [Hub.spaceLink, Hub.linkStalls_quiet quiet]

/-- A frame after a read of CP_WDATA by path `p`: the address of its bank advances (R112). -/
def Xfer.advanced (x : Xfer) (p : Nat) : Xfer := { x with h := x.h.modPath p CpPath.advance, idx := x.idx + 1 }

section accesses
variable {x : Xfer} {p sp o : Nat}

theorem Xfer.settle_clear (clear : x.h.cp.fail = none) (i : Nat) : x.settle i = x := by rw [Xfer.settle, clear]

/-- The first access of a frame that fails is the one that counts. -/
theorem Xfer.settle_failed {cause off : Nat} (failed : x.h.cp.fail = some (cause, off)) (first : x.first = none) (i : Nat) :
    (x.settle i).first = some (i, cause, off) ∧ (x.settle i).data = x.data ∧ (x.settle i).h.path p = x.h.path p := by
  rw [Xfer.settle, failed, first]
  exact ⟨rfl, rfl, rfl⟩

theorem Xfer.told_none (first : x.first = none) : x.told p = x := by rw [Xfer.told, first]

/-- The first failure of a frame shows in the bank of its path; what it read is unchanged. -/
theorem Xfer.told_failed {i cause off : Nat} (first : x.first = some (i, cause, off)) :
    (x.told p).h.path p = (x.h.path p).fails cause off ∧ (x.told p).data = x.data := by
  rw [Xfer.told, first]
  exact ⟨Hub.noteFail_path rfl p, rfl⟩

/-- A frame without a write that waits completes as it stands. -/
theorem Xfer.complete_none (late : x.late = []) : x.complete p = x := by
  rw [Xfer.complete, late]
  exact congrArg (fun l => { x with late := l }) late.symm

/-- A frame with one write that waits completes with that write. -/
theorem Xfer.complete_one {w : Late} (late : x.late = [w]) : x.complete p = { x with late := [] }.apply p w.idx w.sp w.off w.val := by
  rw [Xfer.complete, late]
  cases last : actsLast w.sp w.off <;> simp [last]

/-- A write of a space that does not fail: its effect, and nothing to settle (R116). -/
theorem Xfer.apply_space {w : Nat} (space : sp ≠ 0) (clear : (x.h.busWrite sp o w).1.cp.fail = none) (i : Nat) :
    ∃ cci bad, x.apply p i sp o w = { x with h := (x.h.busWrite sp o w).1, cci := cci, bad := bad } := by
  rw [Xfer.apply, if_neg (fun c => space c.1), if_neg (fun c => space c.1)]
  dsimp only
  split
  · exact ⟨_, _, rfl⟩
  · exact ⟨_, _, Xfer.settle_clear (by exact clear) i⟩

variable (quiet : x.h.cp.stalls = [])
include quiet

theorem Xfer.spaceRead_quiet (space : sp ≠ 0) (c : Ecc) : x.spaceRead p sp o c =
    ({ x with h := (x.h.busRead x.q p sp o c).1 }.settle x.idx).got (x.h.busRead x.q p sp o c).2 := by
  rw [Xfer.spaceRead, Hub.spaceLink_quiet quiet]
  exact if_neg space

theorem Xfer.spaceWrite_quiet (space : sp ≠ 0) (w : Nat) : x.spaceWrite p sp o w = x.put p sp o w := by
  rw [Xfer.spaceWrite, Hub.spaceLink_quiet quiet]
  exact if_neg space

theorem Xfer.read_window (c : Ecc) :
    x.read p 0x14 c = (x.spaceRead p (x.h.path p).wspace.toNat (x.h.path p).waddr.toNat c).advanced p := by
  rw [Xfer.read, if_neg (by simp [Hub.linkStalls_quiet quiet])]
  rfl

theorem Xfer.write_window (w : Nat) :
    let y := x.spaceWrite p (x.h.path p).wspace.toNat (x.h.path p).waddr.toNat w
    x.write p 0x14 w = { y with h := y.h.modPath p CpPath.advance } := by
  intro y
  rw [Xfer.write, if_neg (by simp [Hub.linkStalls_quiet quiet])]
  rfl

end accesses

/-! ### A write of one frame (R108, R110, R112, R116) -/

/-- A write that waits for the end of its frame is listed with the number of its access. -/
theorem Xfer.put_late {x : Xfer} {p sp o w : Nat} (later : actsNow sp o = false) :
    x.put p sp o w = { x with idx := x.idx + 1, late := x.late ++ [⟨x.idx, sp, o, w⟩] } := if_neg (by simp [later])

theorem Xfer.put_now {x : Xfer} {p sp o w : Nat} (now : actsNow sp o = true) :
    x.put p sp o w = { x with idx := x.idx + 1 }.apply p x.idx sp o w := if_pos now

theorem soleWrite_refused {h : Hub} {p a w : Nat} (no : h.mayWrite p a w = false) (q : EvQueue) (w0 : Word) :
    soleWrite h q p a w w0 = ((h.frameError p 5 w0).leaseKept h.owner p, q) := if_neg (by simp [no])

/-- The frame of a write of CP_OWNER by path `p`: the write takes place as the frame completes. -/
theorem soleWrite_owner {h : Hub} {p w : Nat} (path : p ≠ 2) (may : h.mayWrite p 9 w = true) (quiet : h.linkStalls 3 9 p = false)
    (q : EvQueue) (w0 : Word) : soleWrite h q p 9 w w0 = ((h.ownerWrite p w).leaseKept h.owner p, q) := by
  have later : actsNow 0 9 = false := by decide
  have write : ({ h := h, q := q } : Xfer).write p 9 w = { h := h, q := q, idx := 1, late := [⟨0, 0, 9, w⟩] } := by
    rw [Xfer.write, if_neg (by simp [quiet])]
    exact Xfer.put_late (p := p) later
  have acts : ({ h := h, q := q, idx := 1 } : Xfer).apply p 0 0 9 w = { h := h.ownerWrite p w, q := q, idx := 1 } := by
    rw [Xfer.apply, if_pos ⟨rfl, rfl⟩, if_neg path]
  rw [soleWrite, if_pos may]
  dsimp only
  rw [if_neg (show ¬ 9 = 0x14 by decide), write, Xfer.complete_one rfl, acts, Xfer.told_none rfl]

/-! ### Ownership (R108 to R110) -/

theorem Hub.owner_leaseWrite (h : Hub) (w : Nat) : (h.leaseWrite w).owner = h.owner := by
  unfold Hub.leaseWrite
  split
  · rfl
  · exact Hub.fld_setFld_apart h _ (by decide) (by decide) (.inl (by decide)) (by decide)

theorem Hub.ownerWrite_stays {h : Hub} {w : Nat} (same : w % 2 = h.owner) : h.ownerWrite h.owner w = h.leaseWrite w := by
  rw [Hub.ownerWrite, Hub.owner_leaseWrite]
  exact (if_pos rfl).trans (if_pos same)

theorem Hub.ownerWrite_handover {h : Hub} {w : Nat} (other : w % 2 ≠ h.owner) :
    h.ownerWrite h.owner w = (h.leaseWrite w).ownerChanged (w % 2) 1 := by
  rw [Hub.ownerWrite, Hub.owner_leaseWrite]
  exact (if_pos rfl).trans (if_neg other)

theorem Hub.ownerWrite_claim {h : Hub} {p : Nat} (other : p ≠ h.owner) (w : Nat) :
    h.ownerWrite p w = ((h.leaseWrite w).setFld 0x09 1 1 0).ownerChanged p 2 := by
  rw [Hub.ownerWrite, Hub.owner_leaseWrite]
  exact if_neg other

section may
variable {h : Hub} {p w : Nat} (free : h.bootRun = false)
include free

theorem Hub.mayWrite_of_owner (a w : Nat) : h.mayWrite h.owner a w = true := by simp [Hub.mayWrite, free]

theorem Hub.mayWrite_claim (expired : h.expired = true) (own : w % 2 = p) : h.mayWrite p 9 w = true := by
  simp [Hub.mayWrite, free, expired, own]

theorem Hub.mayWrite_early (other : p ≠ h.owner) (stands : h.expired = false) : h.mayWrite p 9 w = false := by
  simp [Hub.mayWrite, free, other, stands]

end may

theorem Hub.leaseKept_owner (h : Hub) (p : Nat) : h.leaseKept p p = h.setFld 0x09 1 1 0 := if_pos rfl

theorem Hub.leaseKept_other (h : Hub) {was p : Nat} (other : was ≠ p) : h.leaseKept was p = h := if_neg other

theorem Hub.leaseExpires_shows {h : Hub} (lease : h.fld 0x09 13 8 ≠ 0) (stands : h.expired = false) :
    h.leaseExpires = (h.setFld 0x09 1 1 1).issue 244 2 h.owner (h.fld 0x09 13 8) 0 := if_neg (by simp [lease, stands])

/-! ### The window (R112, R116) -/

/-- The hub as an access of CP_WDATA by path `p` starts: CP_WSTAT reads 0 (R116). -/
def Hub.judged (h : Hub) (p : Nat) : Hub := h.modPath p fun b => { b with wstat := 0 }

theorem Hub.judged_place (h : Hub) (p : Nat) :
    ((h.judged p).path p).wspace = (h.path p).wspace ∧ ((h.judged p).path p).waddr = (h.path p).waddr := by
  rw [Hub.judged, Hub.path_modPath]
  exact ⟨rfl, rfl⟩

/-- The bank of the path after a read: the first failure shows, and the word read is sent. -/
theorem windowRead_path (h : Hub) (q : EvQueue) (p : Nat) (c : Ecc) :
    let x := (({ h := h.judged p, q := q } : Xfer).read p 0x14 c).told p
    (windowRead h q p c).path p = { x.h.path p with sent := x.data } := by
  intro x
  rw [windowRead, Hub.cpSent, Hub.path_modPath, Hub.path_leaseKept]
  rfl

section window
variable {h : Hub} {p : Nat} (quiet : h.cp.stalls = []) (space : (h.path p).wspace.toNat ≠ 0)
include quiet space

/-- A read of CP_WDATA reads the word that the bank names, and its failure, if there is one, is judged (R112, R116). -/
theorem judged_read {q : EvQueue} {c : Ecc} {r : Hub × Nat}
    (read : (h.judged p).busRead q p (h.path p).wspace.toNat (h.path p).waddr.toNat c = r) :
    ({ h := h.judged p, q := q } : Xfer).read p 0x14 c = ((({ h := r.1, q := q } : Xfer).settle 0).got r.2).advanced p := by
  have calm : (h.judged p).cp.stalls = [] := (h.modPath_stalls p _).trans quiet
  obtain ⟨sp, o⟩ := h.judged_place p
  rw [Xfer.read_window (x := { h := h.judged p, q := q }) calm, sp, o,
    Xfer.spaceRead_quiet (x := { h := h.judged p, q := q }) calm space, read]

theorem windowRead_clear {q : EvQueue} {c : Ecc} {r : Hub × Nat}
    (read : (h.judged p).busRead q p (h.path p).wspace.toNat (h.path p).waddr.toNat c = r) (clear : r.1.cp.fail = none) :
    windowRead h q p c = ((r.1.modPath p CpPath.advance).leaseKept h.owner p).cpSent p [BitVec.ofNat 16 r.2] := by
  rw [windowRead, ← Hub.judged, judged_read quiet space read, Xfer.settle_clear (x := { h := r.1, q := q }) clear, Xfer.told_none rfl]
  rfl

/-- The bank after a read that fails: its address has advanced, the failure shows and the word read is sent. -/
theorem windowRead_failed {q : EvQueue} {c : Ecc} {r : Hub × Nat} {cause off : Nat}
    (read : (h.judged p).busRead q p (h.path p).wspace.toNat (h.path p).waddr.toNat c = r) (failed : r.1.cp.fail = some (cause, off)) :
    (windowRead h q p c).path p = { (r.1.path p).advance.fails cause off with sent := [BitVec.ofNat 16 r.2] } := by
  obtain ⟨first, data, bank⟩ := Xfer.settle_failed (p := p) (x := { h := r.1, q := q }) failed rfl 0
  have reads := judged_read quiet space read
  generalize ({ h := r.1, q := q } : Xfer).settle 0 = y at reads first data bank
  obtain ⟨shown, kept⟩ := Xfer.told_failed (p := p) (x := (y.got r.2).advanced p) first
  have place : ((y.got r.2).advanced p).h.path p = (r.1.path p).advance := (Hub.path_modPath _ _ _).trans (congrArg _ bank)
  have sent : ((y.got r.2).advanced p).data = [BitVec.ofNat 16 r.2] := congrArg (· ++ [BitVec.ofNat 16 r.2]) data
  rw [windowRead_path, reads, shown, kept, place, sent]

variable {w : Nat} (may : h.mayWrite p 0x14 w = true)
include may

/-- A write of CP_WDATA writes the word that the bank names, the address advances and the frame completes (R112, R646). -/
theorem soleWrite_window (q : EvQueue) (w0 : Word) : soleWrite h q p 0x14 w w0 =
    let y := ({ h := h.judged p, q := q } : Xfer).put p (h.path p).wspace.toNat (h.path p).waddr.toNat w
    let x := ({ y with h := y.h.modPath p CpPath.advance }.complete p).told p
    (x.h.leaseKept h.owner p, x.q) := by
  have calm : (h.judged p).cp.stalls = [] := (h.modPath_stalls p _).trans quiet
  obtain ⟨sp, o⟩ := h.judged_place p
  rw [soleWrite, if_pos may]
  dsimp only
  rw [if_pos rfl, ← Hub.judged, Xfer.write_window (x := { h := h.judged p, q := q }) calm, sp, o,
    Xfer.spaceWrite_quiet (x := { h := h.judged p, q := q }) calm space]

/-- A word that acts at the end of its frame is written after the address has advanced. -/
theorem soleWrite_window_late {r : Hub × Bool} (later : actsNow (h.path p).wspace.toNat (h.path p).waddr.toNat = false)
    (write : ((h.judged p).modPath p CpPath.advance).busWrite (h.path p).wspace.toNat (h.path p).waddr.toNat w = r)
    (clear : r.1.cp.fail = none) (q : EvQueue) (w0 : Word) : soleWrite h q p 0x14 w w0 = (r.1.leaseKept h.owner p, q) := by
  obtain ⟨cci, bad, acts⟩ := Xfer.apply_space (x := { h := (h.judged p).modPath p CpPath.advance, q := q, idx := 1 }) (p := p)
    space (by rw [write]; exact clear) 0
  rw [soleWrite_window quiet space may, Xfer.put_late later]
  dsimp only
  rw [Xfer.complete_one rfl]
  dsimp only
  rw [acts, write, Xfer.told_none rfl]

theorem soleWrite_window_now {r : Hub × Bool} (now : actsNow (h.path p).wspace.toNat (h.path p).waddr.toNat = true)
    (write : (h.judged p).busWrite (h.path p).wspace.toNat (h.path p).waddr.toNat w = r)
    (clear : r.1.cp.fail = none) (q : EvQueue) (w0 : Word) :
    soleWrite h q p 0x14 w w0 = ((r.1.modPath p CpPath.advance).leaseKept h.owner p, q) := by
  obtain ⟨cci, bad, acts⟩ := Xfer.apply_space (x := { h := h.judged p, q := q, idx := 1 }) (p := p)
    space (by rw [write]; exact clear) 0
  rw [soleWrite_window quiet space may, Xfer.put_now now]
  dsimp only
  rw [acts, write, Xfer.complete_none rfl, Xfer.told_none rfl]

end window

/-! ### A register write of the owner (R108, R646) -/

/-- A write of a space by the owner that does not fail, whether it acts at once or at the end of its frame. -/
theorem ownerAccess_space {h : Hub} {sp o w : Nat} (quiet : h.cp.stalls = []) (space : sp ≠ 0)
    (clear : (h.busWrite sp o w).1.cp.fail = none) (q : EvQueue) :
    (ownerAccess h q sp o w).h = (h.busWrite sp o w).1.leaseKept h.owner h.owner ∧ (ownerAccess h q sp o w).q = q := by
  obtain ⟨cci, bad, acts⟩ := Xfer.apply_space (x := { h := h, q := q, idx := 1 }) (p := h.owner) space clear 0
  have done : ((({ h := h, q := q } : Xfer).spaceWrite h.owner sp o w).complete h.owner).told h.owner =
      { h := (h.busWrite sp o w).1, q := q, idx := 1, cci := cci, bad := bad } := by
    rw [Xfer.spaceWrite_quiet (x := { h := h, q := q }) quiet space]
    cases now : actsNow sp o
    · rw [Xfer.put_late now, Xfer.complete_one rfl]
      dsimp only
      rw [acts, Xfer.told_none rfl]
    · rw [Xfer.put_now now]
      dsimp only
      rw [acts, Xfer.complete_none rfl, Xfer.told_none rfl]
  rw [ownerAccess]
  dsimp only
  rw [if_neg space, done]
  exact ⟨rfl, rfl⟩

end Sys2Proof.Machine
end

section
/-! PROOF. The tunnel, write ownership, the window and a stall of the fabric (O54). -/

namespace Sys2Proof.Machine

/-! ### What the tunnel sends (R103 to R107) -/

/-- Storing a field of several words changes registers only. -/
@[simp] theorem Hub.setRegN_cp (h : Hub) (k m n : Nat) : (h.setRegN k m n).cp = h.cp := by
  induction m generalizing h k n with
  | zero => rfl
  | succ m ih => rw [Hub.setRegN, ih]; rfl

/-- An event leaves the tunnel as it is. -/
@[simp] theorem Hub.noteRefusal_tun (h : Hub) (src code : Nat) : (h.noteRefusal src code).cp.tun = h.cp.tun := by
  unfold Hub.noteRefusal
  split <;> rfl

@[simp] theorem Hub.issue_tun (h : Hub) (src code d0 d1 d2 : Nat) : (h.issue src code d0 d1 d2).cp.tun = h.cp.tun := by
  unfold Hub.issue
  dsimp only
  split <;> exact h.noteRefusal_tun src code

@[simp] theorem Hub.issueLimited_tun (h : Hub) (sub src code d0 d1 d2 : Nat) :
    (h.issueLimited sub src code d0 d1 d2).cp.tun = h.cp.tun := by
  unfold Hub.issueLimited
  dsimp only
  split
  · exact h.noteRefusal_tun src code
  · split
    · rw [Hub.addSat, Hub.setRegN_cp]; exact h.noteRefusal_tun src code
    · exact h.issue_tun src code d0 d1 d2

/-- A queue takes or drops a frame, and the tunnel stays as it is (R369). -/
theorem Hub.offer_tun (h : Hub) (q cells : Nat) : (h.offer q cells).1.cp.tun = h.cp.tun := by
  unfold Hub.offer
  split
  · rw [Hub.queueDrop, Hub.issueLimited_tun, Hub.setFlag, Hub.setReg_cp, Hub.addSat, Hub.setRegN_cp]
  · rw [Hub.addWrap, Hub.setRegN_cp]

theorem Hub.sendFrame_tun (h : Hub) (q : Nat) (b : List Byte) : (h.sendFrame q b).cp.tun = h.cp.tun := by
  unfold Hub.sendFrame Hub.sendFrom
  dsimp only
  split
  · rfl
  · have offered := h.offer_tun q (cellsFor ((b ++ List.replicate (60 - b.length) 0).length + 4))
    split
    · next g taken => rwa [taken] at offered
    · next g taken => rw [taken] at offered; exact offered

theorem Hub.tunSend_sent (h : Hub) (f : TunFrom) (ws : List Word) :
    (h.tunSend f ws).cp.tun = { h.cp.tun with sentTo := some f, sent := ws } := Hub.sendFrame_tun _ _ _

/-! ### Datagrams that reach the tunnel (R103, R105, R106) -/

theorem Hub.tunFrame_other {h : Hub} (port : Nat) {b : List Byte}
    (other : bit (h.reg 0x0C) 15 = false ∨ bit (h.reg (kCls 0x114)) 2 = false ∨ h.isTunnel (h.parse b) = false) :
    h.tunFrame port b = h := by
  have off : bit (h.reg 0x0C) 15 = false → h.tunArrive port b (h.parse b) = h := fun off => if_neg (by simp [off])
  unfold Hub.tunFrame
  dsimp only
  rcases other with en | icpt | dest
  · rw [off en, ite_self]
  · exact if_neg (by simp [icpt])
  · exact if_neg (by simp [dest])

theorem Hub.tunFrame_taken {h : Hub} (port : Nat) {b : List Byte} (en : bit (h.reg 0x0C) 15 = true) (good : (h.parse b).bad = none)
    (icpt : bit (h.reg (kCls 0x114)) 2 = true) (dest : h.isTunnel (h.parse b) = true) (whole : (h.parse b).declared.getD 0 ≤ b.length + 4) :
    h.tunFrame port b = h.tunDatagram (tunFrom port b (h.parse b)) ((b.drop (h.parse b).pay).take (h.parse b).payLen) :=
  (if_pos (by simp [good, icpt, dest, whole])).trans (if_pos en)

section datagram
variable {h : Hub} {f : TunFrom} {b : List Byte}

theorem Hub.tunDatagram_malformed (bad : tunWellFormed b = false) :
    h.tunDatagram f b = h.frameError 1 11 (if 10 ≤ b.length then tunWord b 4 else 0) := if_pos (by simp [bad])

variable (good : tunWellFormed b = true)
include good

theorem Hub.tunDatagram_ninth (full : 8 ≤ h.cp.tun.queue.length) :
    h.tunDatagram f b = h.frameError 1 12 (if 10 ≤ b.length then tunWord b 4 else 0) :=
  (if_neg (by simp [good])).trans (if_pos full)

theorem Hub.tunDatagram_repeated (room : h.cp.tun.queue.length < 8) (again : h.cp.tun.repeats f = true) :
    h.tunDatagram f b = h.tunSend f h.cp.tun.lastAnswer :=
  (if_neg (by simp [good])).trans ((if_neg (Nat.not_le.2 room)).trans (if_pos again))

theorem Hub.tunDatagram_waits (room : h.cp.tun.queue.length < 8) (fresh : h.cp.tun.repeats f = false) :
    h.tunDatagram f b = h.modTun fun t => { t with queue := t.queue ++
      [{ from_ := f, words := (List.range (b.length / 2 - 4)).map fun i => tunWord b (4 + i) }] } :=
  (if_neg (by simp [good])).trans ((if_neg (Nat.not_le.2 room)).trans (if_neg (by simp [fresh])))

end datagram

theorem Hub.tunNotice_sends {h : Hub} {q : EvQueue} {f : TunFrom} (last : h.cp.tun.last = some f) (en : bit (h.reg 0x0C) 14 = true)
    (attention : h.attention q = true) : h.tunNotice q = h.tunSend f (tunPayload 2 0 (h.respond q 1 0 0 false [])) := by
  rw [Hub.tunNotice, last]
  exact if_pos (by simp [en, attention])

/-! ### A stall of the fabric (R53, R647) -/

theorem Hub.fabricStall_counted {h : Hub} {link : Nat} (kind : 1 ≤ link / 4096 ∧ link / 4096 ≤ 8 ∨ link / 4096 = 15) (requester : Nat) :
    h.fabricStall link requester =
      let g := ((h.addSat (spc 0x3F 0x122) 2 1).setReg (spc 0x3F 0x124) link).setFlag (spc 0x3F 0x121)
      (g.issueLimited link 242 1 link requester (g.fld (spc 0x3F 0x120) 7 0)).stallEffect (link / 4096) (link % 4096) requester :=
  if_neg (by omega)

/-! ### Completion of the commands -/

section runs
variable {s : State} (live : s.live = true)
include live

theorem exec_tunnelDatagram (p : Fin 2) (b : List Byte) : exec (.tunnelDatagram p b) s = .next (s.withHub (s.hub.tunFrame p b)) :=
  State.onHub_next live fun h => h.tunFrame p b
theorem exec_tunnelAttentionNotice : exec .tunnelAttentionNotice s = .next (s.withHub (s.hub.tunNotice s.q)) :=
  State.onHub_next live fun h => h.tunNotice s.q
theorem exec_ownerHandover (w0 w : Word) : exec (.ownerHandover w0 w) s = .next { s with
    hub := (soleWrite s.hub s.q s.hub.owner 9 w.toNat w0).1, q := (soleWrite s.hub s.q s.hub.owner 9 w.toNat w0).2 } :=
  State.onQ_next live _
theorem exec_ownerClaim (w0 w : Word) : exec (.ownerClaim w0 w) s = .next { s with
    hub := (soleWrite s.hub s.q (1 - s.hub.owner) 9 w.toNat w0).1, q := (soleWrite s.hub s.q (1 - s.hub.owner) 9 w.toNat w0).2 } :=
  State.onQ_next live _
theorem exec_leaseExpired : exec .leaseExpired s = .next (s.withHub s.hub.leaseExpires) := State.onHub_next live _
theorem exec_windowRead (p : Fin 2) (ecc : Ecc) : exec (.windowRead p ecc) s = .next (s.withHub (windowRead s.hub s.q p ecc)) :=
  State.onHub_next live fun h => windowRead h s.q p ecc
theorem exec_windowWrite (p : Fin 2) (w0 w : Word) : exec (.windowWrite p w0 w) s = .next { s with
    hub := (soleWrite s.hub s.q p 0x14 w.toNat w0).1, q := (soleWrite s.hub s.q p 0x14 w.toNat w0).2 } :=
  State.onQ_next live _
theorem exec_registerWrite (sp : Byte) (o : BitVec 32) (w : Word) : exec (.registerWrite sp o w) s = .next { s with
    hub := (ownerAccess s.hub s.q sp.toNat o.toNat w.toNat).h, q := (ownerAccess s.hub s.q sp.toNat o.toNat w.toNat).q } :=
  State.onQ_next live _
theorem exec_fabricStall (link requester : Word) :
    exec (.fabricStall link requester) s = .next (s.withHub (s.hub.fabricStall link.toNat requester.toNat)) :=
  State.onHub_next live fun h => h.fabricStall link.toNat requester.toNat

end runs

/-- Settles O54, command by command from what each does in the state that its clause names. -/
theorem tunnelAndOwnershipAnswer : Obligations.TunnelAndOwnershipAnswer := by
  refine ⟨fun s p b live en => ?datagram, fun s p b live other => ?passed, fun h f ws => ?sent, fun s f live last en attention => ?notice,
    fun s w0 w live free path quiet => ?owner, fun s live lease stands => ?expiry, fun s p ecc live => ?read, fun s p w0 w live => ?write,
    fun s p w0 w live no => ?refused, fun s sp o w live => ?register, fun s link requester live => ?stall⟩
  case datagram =>
    intro f d good icpt dest whole w0 from_ waiting
    rw [exec_tunnelDatagram live, Hub.tunFrame_taken p en good icpt dest whole]
    refine ⟨fun bad => ?_, fun ok full => ?_, fun ok room again => ?_, fun ok room fresh => ?_⟩
    · rw [Hub.tunDatagram_malformed bad]
    · rw [Hub.tunDatagram_ninth ok full]
    · rw [Hub.tunDatagram_repeated ok room again]
    · rw [Hub.tunDatagram_waits ok room fresh]
  case passed => rw [exec_tunnelDatagram live, Hub.tunFrame_other p other]
  case sent => rw [Hub.tunSend_sent]; exact ⟨rfl, rfl⟩
  case notice => rw [exec_tunnelAttentionNotice live, Hub.tunNotice_sends last en attention]
  case owner =>
    have hands := soleWrite_owner (p := s.hub.owner) (by omega) (Hub.mayWrite_of_owner free 9 w.toNat) (quiet _) s.q w0
    rw [exec_ownerHandover live, exec_ownerClaim live, hands, Hub.leaseKept_owner]
    refine ⟨fun other => ?_, fun same => ?_, fun expired own => ?_, fun stands => ?_⟩
    · rw [Hub.ownerWrite_handover other]; rfl
    · rw [Hub.ownerWrite_stays same]; rfl
    · rw [soleWrite_owner (by omega) (Hub.mayWrite_claim free expired own) (quiet _), Hub.leaseKept_other _ (by omega),
        Hub.ownerWrite_claim (by omega)]
      rfl
    · rw [soleWrite_refused (Hub.mayWrite_early free (by omega) stands), Hub.leaseKept_other _ (by omega)]
  case expiry => rw [exec_leaseExpired live, Hub.leaseExpires_shows lease stands]
  case read =>
    intro h r quiet space
    have place : (s.hub.path p).wspace.toNat ≠ 0 := fun zero => space (BitVec.eq_of_toNat_eq zero)
    refine ⟨fun clear => ?_, fun c off failed wstat => ⟨_, exec_windowRead live p ecc, ?_⟩⟩
    · rw [exec_windowRead live, windowRead_clear quiet place rfl clear]; rfl
    · rw [windowRead_failed (r := r) quiet place rfl failed, CpPath.fails_clear ((CpPath.advance_wstat _).trans wstat)]
      exact ⟨rfl, rfl, rfl, rfl⟩
  case write =>
    intro h sp o quiet space may
    rw [exec_windowWrite live]
    refine ⟨fun later => ?_, fun now => ?_⟩ <;> intro r clear
    · rw [soleWrite_window_late quiet space may later rfl clear]; rfl
    · rw [soleWrite_window_now quiet space may now rfl clear]; rfl
  case refused => rw [exec_windowWrite live, soleWrite_refused no]
  case register =>
    intro quiet space r clear
    obtain ⟨hub, queue⟩ := ownerAccess_space quiet (fun zero => space (BitVec.eq_of_toNat_eq zero)) clear s.q
    rw [exec_registerWrite live, hub, queue]
  case stall =>
    intro kind valid
    rw [exec_fabricStall live, Hub.fabricStall_counted valid]

end Sys2Proof.Machine
end

section
/-! PROOF. The clock: what its operations leave of cores, domains and flags (R59 to R87). -/

namespace Sys2Proof.Machine

/-! ### Cores, domains and flags under the updates of the hub -/

theorem Hub.core_congr {h g : Hub} (e : g.clk = h.clk) (c : Nat) : g.core c = h.core c := by rw [Hub.core, e, Hub.core]
theorem Hub.dom_congr {h g : Hub} (e : g.clk = h.clk) (d : Nat) : g.dom d = h.dom d := by rw [Hub.dom, e, Hub.dom]
theorem Hub.flag_congr {h g : Hub} (e : g.regs = h.regs) (k : Nat) : g.flag k = h.flag k := by rw [Hub.flag, Hub.reg_congr e, Hub.flag]

@[simp] theorem Hub.core_setFld (h : Hub) (k hi lo v c : Nat) : (h.setFld k hi lo v).core c = h.core c := rfl
@[simp] theorem Hub.core_setFlag (h : Hub) (k c : Nat) : (h.setFlag k).core c = h.core c := rfl
@[simp] theorem Hub.core_issue (h : Hub) (src code d0 d1 d2 c : Nat) : (h.issue src code d0 d1 d2).core c = h.core c :=
  Hub.core_congr (h.issue_clk src code d0 d1 d2) c
@[simp] theorem Hub.core_modCore_same (h : Hub) (c : Fin 2) (f : ClkCore → ClkCore) : (h.modCore c f).core c = f (h.core c) := by
  rw [Hub.core_modCore h c.isLt, if_pos rfl]

@[simp] theorem Hub.dom_setFlag (h : Hub) (k d : Nat) : (h.setFlag k).dom d = h.dom d := rfl
@[simp] theorem Hub.dom_issue (h : Hub) (src code d0 d1 d2 d : Nat) : (h.issue src code d0 d1 d2).dom d = h.dom d :=
  Hub.dom_congr (h.issue_clk src code d0 d1 d2) d
@[simp] theorem Hub.dom_modDom_same (h : Hub) (d : Fin 4) (f : Domain → Domain) : (h.modDom d f).dom d = f (h.dom d) := by
  rw [Hub.dom_modDom h d.isLt, if_pos rfl]

@[simp] theorem Hub.flag_setFlag (h : Hub) (k : Nat) : (h.setFlag k).flag k = true := (h.setFlag_spec k).1
@[simp] theorem Hub.flag_modCore (h : Hub) (c : Nat) (f : ClkCore → ClkCore) (k : Nat) : (h.modCore c f).flag k = h.flag k := rfl
@[simp] theorem Hub.flag_issue (h : Hub) (src code d0 d1 d2 k : Nat) : (h.issue src code d0 d1 d2).flag k = h.flag k :=
  Hub.flag_congr (h.issue_regs src code d0 d1 d2) k
theorem Hub.flag_setReg_other (h : Hub) {j k : Nat} (n : Nat) (apart : j ≠ k) : (h.setReg k n).flag j = h.flag j := by
  rw [Hub.flag, Hub.reg_setReg_other h n apart, Hub.flag]

/-! ### Keys of different places -/

theorem kCksFlag_ne_direct {a : Nat} (ha : a < 2 ^ 32) (i : Nat) : kCksFlag i ≠ a := by simp only [kCksFlag, spc]; omega
theorem evCfg_ne_direct {a : Nat} (ha : a < 2 ^ 32) (src : Nat) : evCfg src ≠ a := by simp only [evCfg, spc]; omega
theorem evCfg_ne_kCksFlag {src : Nat} (hs : src < 256) (i : Nat) : evCfg src ≠ kCksFlag i := by simp only [evCfg, kCksFlag, spc]; omega
theorem kCksFlag_ne_kCore (c : Fin 2) (i : Nat) {w : Nat} (hw : w < 8) : kCksFlag i ≠ kCore c w := by
  have := c.isLt; simp only [kCksFlag, kCore, spc]; omega

/-! ### Events of the clock -/

/-- The configuration word of a source outlasts a flag of the clock. -/
theorem Hub.reg_setFlag_evCfg (h : Hub) {src : Nat} (hs : src < 256) (i : Nat) :
    (h.setFlag (kCksFlag i)).reg (evCfg src) = h.reg (evCfg src) := h.reg_setReg_other _ (evCfg_ne_kCksFlag hs i)

/-- An event of a source that is not masked, issued after updates that left its configuration word and the event sources (R141). -/
theorem Hub.issue_ev_after {h g : Hub} (src code d0 d1 d2 : Nat) (sources : g.ev = h.ev)
    (cfg : g.reg (evCfg src) = h.reg (evCfg src)) (unmasked : bit (h.reg (evCfg src)) 2 = false) :
    (g.issue src code d0 d1 d2).ev = h.ev.take src (g.recordOf src code d0 d1 d2) := by
  rw [g.issue_ev code d0 d1 d2 (by rw [cfg, unmasked]), sources]

/-- What every turn keeps holds after all of them. -/
theorem iter_keeps {α : Type} {P : α → Prop} {f : Nat → α → α} (turn : ∀ i a, P a → P (f i a)) (n : Nat) {a : α} (start : P a) :
    P (iter n f a) := by
  induction n with
  | zero => exact start
  | succ n ih => rw [iter_succ]; exact turn n _ ih

end Sys2Proof.Machine
end

section
/-! PROOF. The synthesizer cores: stops, locks, losses of lock and base ticks (O1, O2, O3, O5). -/

namespace Sys2Proof.Machine

section runs
variable {s : State} (live : s.live = true) (c : Fin 2)
include live

theorem exec_searchFallback : exec (.searchFallback c) s = .next (s.withHub (s.hub.searchStart c)) :=
  State.onHub_next live fun h => h.searchStart c
theorem exec_fineCodeUpdate (tj : Word) : exec (.fineCodeUpdate tj) s = .next (s.withHub (s.hub.fineUpdate (s16 tj.toNat))) :=
  State.onHub_next live fun h => h.fineUpdate (s16 tj.toNat)
theorem exec_unlock : exec (.unlock c) s = .next (s.withHub (s.hub.coreUnlock c).clkSync) :=
  State.onHub_next live fun h => (h.coreUnlock c).clkSync
theorem exec_coreStopRequest : exec (.coreStopRequest c) s = .next (s.withHub (s.hub.stopRequest c)) :=
  State.onHub_next live fun h => h.stopRequest c
theorem exec_coreStopWithdraw : exec (.coreStopWithdraw c) s = .next (s.withHub (s.hub.stopWithdraw c)) :=
  State.onHub_next live fun h => h.stopWithdraw c
theorem exec_coreRestart : exec (.coreRestart c) s = .next (s.withHub (s.hub.coreRestart c)) :=
  State.onHub_next live fun h => h.coreRestart c
theorem exec_coreLocked (coarse : BitVec 12) (fine : BitVec 10) (skips : List Nat) (m : ClkMeas) :
    exec (.coreLocked c coarse fine skips m) s = .next (s.withHub (s.hub.coreLock c coarse.toNat fine.toNat skips m).clkSync) :=
  State.onHub_next live fun h => (h.coreLock c coarse.toNat fine.toNat skips m).clkSync
theorem exec_hopDone (coarse : BitVec 12) (fine : BitVec 10) (us : Nat) (skips : List Nat) (m : ClkMeas) :
    exec (.hopDone c coarse fine us skips m) s = .next (s.withHub (s.hub.hopDone c coarse.toNat fine.toNat us skips m).clkSync) :=
  State.onHub_next live fun h => (h.hopDone c coarse.toNat fine.toNat us skips m).clkSync
theorem exec_coreBaseTick : exec (.coreBaseTick c) s = .next (s.withHub (s.hub.coreBaseTick c).clkSync) :=
  State.onHub_next live fun h => (h.coreBaseTick c).clkSync

end runs

/-! ### The judgement of a stop (R64) -/

theorem Hub.enabledOn_congr {h g : Hub} (e : g.clk = h.clk) (c : Nat) : g.enabledOn c = h.enabledOn c := by
  simp only [Hub.enabledOn, Hub.boundTo, Hub.dom_congr e]

/-- The judgement of a stop rests on the clock alone. -/
theorem Hub.stopCause_congr {h g : Hub} (e : g.clk = h.clk) (c : Nat) : g.stopCause c = h.stopCause c := by
  unfold Hub.stopCause
  rw [Hub.enabledOn_congr e, Hub.core_congr e]

/-- The domain that refuses a stop is enabled and bound to the core. -/
theorem Hub.enabledOn_some {h : Hub} {c d : Nat} (found : h.enabledOn c = some d) : d < 4 ∧ (h.dom d).core = c ∧ (h.dom d).en = true := by
  have listed : d ∈ h.boundTo c := List.mem_of_find?_eq_some found
  have enabled : (h.dom d).en = true := List.find?_some (p := fun d => (h.dom d).en) found
  simp only [Hub.boundTo, List.mem_filter, List.mem_range, beq_iff_eq] at listed
  obtain ⟨range, bound⟩ := listed
  exact ⟨range, bound, enabled⟩

/-- A stop that passes: no enabled domain is bound, and no hop, relock or restart is in progress or held. -/
theorem Hub.stopCause_none {h : Hub} {c : Nat} (free : h.enabledOn c = none) (quiet : (h.core c).busy = false) : h.stopCause c = none := by
  simp [Hub.stopCause, free, quiet]

/-- A stop that is refused: cause 1 with an enabled domain of the core, cause 2 where there is none. -/
theorem Hub.stopCause_some {h : Hub} {c : Nat} (bad : h.enabledOn c ≠ none ∨ (h.core c).busy = true) :
    (∃ d : Fin 4, h.stopCause c = some (1, d.val) ∧ (h.dom d).core = c ∧ (h.dom d).en = true) ∨
      h.stopCause c = some (2, 0xFFFF) ∧ h.enabledOn c = none := by
  cases free : h.enabledOn c with
  | some d =>
    obtain ⟨range, bound, enabled⟩ := Hub.enabledOn_some free
    exact .inl ⟨⟨d, range⟩, by simp [Hub.stopCause, free], bound, enabled⟩
  | none =>
    have busy : (h.core c).busy = true := bad.resolve_left (absurd free)
    exact .inr ⟨by simp [Hub.stopCause, free, busy], rfl⟩

section request
variable {h : Hub} {c : Nat} (runs : (h.core c).st ≠ .off) (first : (h.core c).stopReq = false)
include runs first

theorem Hub.stopRequest_waits (passes : h.stopCause c = none) : h.stopRequest c = h.modCore c fun k => { k with stopReq := true } := by
  rw [Hub.stopRequest, if_neg (by simp [runs, first]), passes]

theorem Hub.stopRequest_refused {why : Nat × Nat} (refused : h.stopCause c = some why) : h.stopRequest c = h.refuseStop c why := by
  rw [Hub.stopRequest, if_neg (by simp [runs, first]), refused]

end request

@[simp] theorem Hub.core_refuseStop (h : Hub) (c : Fin 2) (why : Nat × Nat) :
    (h.refuseStop c why).core c = { h.core c with stopReq := false } := by
  simp [Hub.refuseStop]

@[simp] theorem Hub.flag_refuseStop (h : Hub) (c : Nat) (why : Nat × Nat) : (h.refuseStop c why).flag (kCksFlag 4) = true := by
  simp [Hub.refuseStop]

/-- STOP_REFUSED names cause and domain. -/
theorem Hub.ev_refuseStop {h : Hub} {c : Fin 2} (unmasked : bit (h.reg (evCfg (96 + c))) 2 = false) (why : Nat × Nat) :
    ∃ r, (h.refuseStop c why).ev = h.ev.take (96 + c) r ∧ r.code = 10 ∧ r.data0 = BitVec.ofNat 16 why.1 ∧
      r.data1 = BitVec.ofNat 16 why.2 := by
  have cfg := h.reg_setFlag_evCfg (src := 96 + c) (by omega) 4
  exact ⟨_, Hub.issue_ev_after (96 + c) 10 why.1 why.2 0 rfl cfg unmasked, rfl, rfl, rfl⟩

/-! ### What a base tick keeps after a refused stop -/

/-- A stop of core `c` was refused: REFUSE is set, and the core goes on with no stop requested (R64). -/
structure Hub.StopRefused (h : Hub) (c : Nat) : Prop where
  refuse : h.flag (kCksFlag 4) = true
  goes : (h.core c).st ≠ .off
  withdrawn : (h.core c).stopReq = false

namespace Hub.StopRefused
variable {h : Hub} {c : Nat} (r : h.StopRefused c)
include r

theorem modDom (d : Nat) (f : Domain → Domain) : (h.modDom d f).StopRefused c := ⟨r.refuse, r.goes, r.withdrawn⟩

theorem modClko (m : Nat) (f : ClkOut → ClkOut) : (h.modClko m f).StopRefused c := ⟨r.refuse, r.goes, r.withdrawn⟩

theorem tookFree : h.tookFree.StopRefused c := ⟨r.refuse, r.goes, r.withdrawn⟩

theorem issue (src code d0 d1 d2 : Nat) : (h.issue src code d0 d1 d2).StopRefused c :=
  ⟨by simp [r.refuse], by simp [r.goes], by simp [r.withdrawn]⟩

/-- A refused binding sets REFUSE again. -/
theorem refuseRate (d field : Nat) (why : Nat × Nat) : (h.refuseRate d field why).StopRefused c := by
  refine issue ⟨?_, by simp [r.goes], by simp [r.withdrawn]⟩ _ _ _ _ _
  rw [Hub.setFld, Hub.flag_setReg_other _ _ (kCksFlag_ne_direct (by decide) 4), Hub.flag_setFlag]

theorem stopOutputs (j : Nat) : (h.stopOutputs j).StopRefused c := by
  refine iter_keeps (P := (Hub.StopRefused · c)) (fun m g kept => ?_) 8 r
  split
  · exact (kept.modClko m _).tookFree
  · exact kept

theorem clkoBaseTick (j m : Nat) : (h.clkoBaseTick j m).StopRefused c := by
  unfold Hub.clkoBaseTick
  dsimp only
  split
  · exact r
  · split
    · exact r.modClko m _
    · split
      · exact r
      · exact r.modClko m _

theorem domBaseTick (j d : Nat) : (h.domBaseTick j d).StopRefused c := by
  unfold Hub.domBaseTick
  extract_lets m g
  have begun : g.StopRefused c := by
    unfold g
    split
    · exact (r.modDom d _).issue _ _ _ _ _
    · split
      · exact r.modDom d _
      · exact r
  clear_value g
  split
  · exact r
  · split
    · exact begun
    · split
      · exact (begun.modDom d _).refuseRate d _ _
      · exact begun.modDom d _

end Hub.StopRefused

/-- A core that begins its hop loads the codes of the entry. -/
theorem Hub.StopRefused.hops {h : Hub} {c : Fin 2} (r : h.StopRefused c) (n : Nat) :
    (((h.loadFamily c n).modCore c fun k => { k with st := .hop, hopping := true, ref := none }).loadCodes c n).StopRefused c := by
  refine ⟨?_, by simp [Hub.loadCodes, Hub.loadFamily], by simp [Hub.loadCodes, Hub.loadFamily, r.withdrawn]⟩
  simp [Hub.loadCodes, Hub.loadFamily, Hub.flag_setReg_other, kCksFlag_ne_kCore, r.refuse]

/-! ### A base tick (R64, R76, R78 to R80, R320) -/

/-- Driving the local PTP clock leaves the synthesizer. -/
@[simp] theorem Hub.ptpBaseTick_clk (h : Hub) (c : Nat) : (h.ptpBaseTick c).clk = h.clk := by
  unfold Hub.ptpBaseTick
  split <;> rfl

@[simp] theorem Hub.core_ptpBaseTick (h : Hub) (c j : Nat) : (h.ptpBaseTick c).core j = h.core j := Hub.core_congr (h.ptpBaseTick_clk c) j

/-- What a base tick takes where no stop is due: an accepted hop, or else enables, bindings and output changes. -/
def Hub.baseTickGoes (h : Hub) (c : Nat) : Hub :=
  match (h.core c).hopTo with
  | some n =>
    let h := iter 4 (fun d h => h.domBaseTick c d) (h.stopOutputs c)
    let h := iter 4 (fun d h => if (h.dom d).core = c ∧ (h.dom d).run ∧ ¬ (h.dom d).rebound then
      h.modDom d fun m => { m with lastTick := true, paused := true } else h) h
    ((h.loadFamily c n).modCore c fun k => { k with st := .hop, hopping := true, ref := none }).loadCodes c n
  | none => iter 8 (fun m h => h.clkoBaseTick c m) (iter 4 (fun d h => h.domBaseTick c d) h)

section baseTick
variable {h : Hub} {c : Nat} (locked : (h.core c).st.locked = true)
include locked

/-- A requested stop that passes its judgement is taken. -/
theorem Hub.coreBaseTick_stops (asked : (h.core c).stopReq = true) (passes : h.stopCause c = none) :
    h.coreBaseTick c = (((h.ptpBaseTick c).stopOutputs c).modCore c fun k =>
      { k with st := .off, stopReq := false, ref := none }).issue (96 + c) 9 1 (h.core c).entry 0 := by
  have again := (Hub.stopCause_congr (h.ptpBaseTick_clk c) c).trans passes
  rw [Hub.coreBaseTick, if_neg (by simp [locked])]
  simp [asked, again]

theorem Hub.coreBaseTick_goes (asked : (h.core c).stopReq = false) : h.coreBaseTick c = (h.ptpBaseTick c).baseTickGoes c := by
  rw [Hub.coreBaseTick, if_neg (by simp [locked])]
  cases hop : (h.core c).hopTo <;> simp [asked, hop, Hub.baseTickGoes]

end baseTick

theorem Hub.coreBaseTick_refuses {h : Hub} {c : Fin 2} {why : Nat × Nat} (locked : (h.core c).st.locked = true)
    (asked : (h.core c).stopReq = true) (refused : h.stopCause c = some why) :
    h.coreBaseTick c = ((h.ptpBaseTick c).refuseStop c why).baseTickGoes c := by
  have again := (Hub.stopCause_congr (h.ptpBaseTick_clk c) c).trans refused
  rw [Hub.coreBaseTick, if_neg (by simp [locked])]
  cases hop : (h.core c).hopTo <;> simp [asked, again, hop, Hub.baseTickGoes]

/-- A base tick that goes on after a refused stop stops nothing. -/
theorem Hub.StopRefused.baseTickGoes {h : Hub} {c : Fin 2} (r : h.StopRefused c) : (h.baseTickGoes c).StopRefused c := by
  have domains : ∀ {g : Hub}, g.StopRefused c → (iter 4 (fun d h => h.domBaseTick c d) g).StopRefused c :=
    iter_keeps (P := (Hub.StopRefused · c)) (fun d g kept => kept.domBaseTick c d) 4
  unfold Hub.baseTickGoes
  split
  · refine (iter_keeps (P := (Hub.StopRefused · c)) (fun d g kept => ?_) 4 (domains (r.stopOutputs c))).hops _
    split
    · exact kept.modDom d _
    · exact kept
  · exact iter_keeps (P := (Hub.StopRefused · c)) (fun m g kept => kept.clkoBaseTick c m) 8 (domains r)

/-! ### The obligations -/

/-- Settles O2: both judgements refuse a stop for the cause that `Hub.stopCause_some` names. -/
theorem stopRefusedWhileDomainEnabled : Obligations.StopRefusedWhileDomainEnabled := by
  refine ⟨fun s c live runs first bad => ?request, fun s c locked asked bad => ?baseTick⟩
  case request =>
    have next : ∀ why, s.hub.stopCause c = some why → exec (.coreStopRequest c) s = .next (s.withHub (s.hub.refuseStop c why)) :=
      fun why refused => by rw [exec_coreStopRequest live, Hub.stopRequest_refused runs first refused]
    have kept : ∀ why, (s.hub.refuseStop c why).core c = s.hub.core c := fun why => by rw [Hub.core_refuseStop, ← first]
    obtain ⟨d, refused, bound, enabled⟩ | ⟨refused, free⟩ := Hub.stopCause_some bad
    · exact ⟨_, 1, BitVec.ofNat 16 d, next _ refused, kept _, Hub.flag_refuseStop _ _ _, fun unmasked => Hub.ev_refuseStop unmasked _,
        .inl ⟨rfl, d, rfl, bound, enabled⟩⟩
    · exact ⟨_, 2, 0xFFFF, next _ refused, kept _, Hub.flag_refuseStop _ _ _, fun unmasked => Hub.ev_refuseStop unmasked _,
        .inr ⟨rfl, rfl, free⟩⟩
  case baseTick =>
    obtain ⟨why, refused⟩ : ∃ why, s.hub.stopCause c = some why := by
      obtain ⟨d, refused, -⟩ | ⟨refused, -⟩ := Hub.stopCause_some bad <;> exact ⟨_, refused⟩
    have on : (s.hub.core c).st ≠ .off := fun off => by simp [off, CoreSt.locked] at locked
    have judged : ((s.hub.ptpBaseTick c).refuseStop c why).StopRefused c := ⟨by simp, by simpa using on, by simp⟩
    rw [Hub.coreBaseTick_refuses locked asked refused]
    obtain ⟨refuse, goes, withdrawn⟩ := judged.baseTickGoes
    exact ⟨refuse, goes, withdrawn⟩

/-- Settles O1, command by command. -/
theorem clockCoresAnswer : Obligations.ClockCoresAnswer := by
  refine ⟨fun s c live hop => ?search, fun s tj live => exec_fineCodeUpdate live tj, fun s c live locked => ?unlock,
    fun s c live on first free quiet => ?stop, fun s c live => exec_coreStopWithdraw live c, fun s c live off => ?restart⟩
  case search =>
    rw [exec_searchFallback live, Hub.searchStart, if_neg (by simp [hop])]
    simp [Hub.addWrap, Hub.setRegN, Hub.regN]
  case unlock => rw [exec_unlock live, Hub.coreUnlock, if_neg (by simp [locked])]
  case stop => rw [exec_coreStopRequest live, Hub.stopRequest_waits on first (Hub.stopCause_none free quiet)]
  case restart => rw [exec_coreRestart live, Hub.coreRestart, if_neg (by simp [off])]

/-- A core that searches, or loads valid codes, can lock (R61). -/
theorem ClkCore.locks_of {k : ClkCore} (can : k.st = .search ∨ k.st = .hop ∧ k.valid = true) : k.locks = true := by
  rcases can with search | ⟨hop, valid⟩
  · simp [ClkCore.locks, search]
  · simp [ClkCore.locks, hop, valid]

/-- Settles O3: both commands end the lock of a core that can lock, CORE_LOCKED where no hop is in progress and HOP_DONE where one
is. -/
theorem coreLockAnswers : Obligations.CoreLockAnswers := by
  refine ⟨fun s c coarse fine skips m live can calm free => ?locked, fun s c coarse fine us skips m live can hopping => ?hop⟩
  case locked => rw [exec_coreLocked live, Hub.coreLock, if_neg (by simp [ClkCore.locks_of can, calm]), free]
  case hop => rw [exec_hopDone live, Hub.hopDone, if_neg (by simp [ClkCore.locks_of can, hopping])]

/-- Settles O5: a stop that passes is taken, and without one the hop that waits, or else what waits in domains and outputs. -/
theorem baseTickAnswers : Obligations.BaseTickAnswers := by
  refine ⟨fun s c live locked asked free quiet => ?stop, fun s c n live locked none hop => ?hop, fun s c live locked none stays => ?works⟩
  case stop => rw [exec_coreBaseTick live, Hub.coreBaseTick_stops locked asked (Hub.stopCause_none free quiet)]
  case hop => rw [exec_coreBaseTick live, Hub.coreBaseTick_goes locked none, Hub.baseTickGoes, Hub.core_ptpBaseTick, hop]
  case works => rw [exec_coreBaseTick live, Hub.coreBaseTick_goes locked none, Hub.baseTickGoes, Hub.core_ptpBaseTick, stays]

end Sys2Proof.Machine
end

section
/-! PROOF. References: how a core acts on its candidate (O7), and what the commands of references change (O6). -/

namespace Sys2Proof.Machine

/-! ### A switch and holdover (R68, R69) -/

theorem Hub.core_commitSwitch (h : Hub) (c : Fin 2) (r : Nat) (e : Int) :
    (h.commitSwitch c r e).core c = { h.core c with st := .slew, ref := some r } := by
  simp [Hub.commitSwitch]

theorem Hub.core_enterHold (h : Hub) (c : Fin 2) (held : Int) :
    (h.enterHold c held).core c = { h.core c with st := .hold, ref := none } := by
  simp [Hub.enterHold]

theorem Hub.flag_enterHold (h : Hub) (c : Nat) (held : Int) : (h.enterHold c held).flag (kCksFlag 0) = true := by
  simp [Hub.enterHold]

/-! ### The evaluation of candidates, state by state (R68) -/

section evaluates
variable {h : Hub} {c : Nat} {r : Nat}

/-- Nothing is evaluated during a slew. -/
theorem Hub.evalRefs_slew (slew : (h.core c).st = .slew) (e held : Int) : h.evalRefs c e held = h := by
  rw [Hub.evalRefs, slew]

section unreferenced
variable (waits : (h.core c).st = .free ∨ (h.core c).st = .hold)
include waits

/-- A core without a reference switches to its candidate. -/
theorem Hub.evalRefs_acquires (cand : h.candidate c = some r) (e held : Int) : h.evalRefs c e held = h.commitSwitch c r e := by
  rcases waits with free | hold
  · rw [Hub.evalRefs, free, cand]
  · rw [Hub.evalRefs, hold, cand]

theorem Hub.evalRefs_waits (noCand : h.candidate c = none) (e held : Int) : h.evalRefs c e held = h := by
  rcases waits with free | hold
  · rw [Hub.evalRefs, free, noCand]
  · rw [Hub.evalRefs, hold, noCand]

end unreferenced

section tracks
variable (track : (h.core c).st = .track) (used : (h.core c).ref = some r)
include track used

/-- A core that tracks switches where its reference is lost, or where the candidate stands higher and REVERT is 1. -/
theorem Hub.evalRefs_switches {r' : Nat} (cand : h.candidate c = some r')
    (go : h.refUsable c r = false ∨ h.higher c r' r = true ∧ bit (h.reg 0x34) 15 = true) (e held : Int) :
    h.evalRefs c e held = h.commitSwitch c r' e := by
  rw [Hub.evalRefs, track, cand, used]
  dsimp only [Option.getD]
  cases usable : h.refUsable c r with
  | false => rw [if_pos (by simp)]
  | true => rw [if_neg (by simp), if_pos (go.resolve_left (by simp [usable]))]

theorem Hub.evalRefs_stays {r' : Nat} (cand : h.candidate c = some r') (usable : h.refUsable c r = true)
    (stay : h.higher c r' r = false ∨ bit (h.reg 0x34) 15 = false) (e held : Int) : h.evalRefs c e held = h := by
  have lower : ¬ (h.higher c r' r = true ∧ bit (h.reg 0x34) 15 = true) := by
    rintro ⟨higher, revert⟩
    rcases stay with low | off
    · exact absurd higher (by simp [low])
    · exact absurd revert (by simp [off])
  rw [Hub.evalRefs, track, cand, used]
  dsimp only [Option.getD]
  rw [if_neg (by simp [usable]), if_neg lower]

/-- Without a candidate a core whose reference is lost enters HOLD. -/
theorem Hub.evalRefs_holds (noCand : h.candidate c = none) (lost : h.refUsable c r = false) (e held : Int) :
    h.evalRefs c e held = h.enterHold c held := by
  rw [Hub.evalRefs, track, noCand, used]
  dsimp only [Option.getD]
  rw [if_neg (by simp [lost])]

end tracks
end evaluates

/-- Settles O7, state by state of the core that evaluates. -/
theorem coreSelectsItsCandidate : Obligations.CoreSelectsItsCandidate := by
  refine ⟨fun h c => rfl, fun h c e held r waits cand => ?acquires, fun h c e held waits none => Hub.evalRefs_waits waits none e held,
    fun h c e held r r' track used cand go => ?switches, fun h c e held r track used lost none => ?holds,
    fun h c e held r r' track used usable cand stay => Hub.evalRefs_stays track used cand usable stay e held,
    fun h c e held slew => Hub.evalRefs_slew slew e held⟩
  case acquires =>
    rw [Hub.evalRefs_acquires waits cand, Hub.core_commitSwitch]
    exact ⟨rfl, rfl⟩
  case switches =>
    rw [Hub.evalRefs_switches track used cand go, Hub.core_commitSwitch]
    exact ⟨rfl, rfl⟩
  case holds =>
    rw [Hub.evalRefs_holds track used none lost, Hub.core_enterHold]
    exact ⟨rfl, rfl, Hub.flag_enterHold h c held⟩

/-! ### The commands of references (R65, R66, R69 to R71) -/

section runs
variable {s : State} (live : s.live = true)
include live

theorem exec_refSignalValid (r : Fin 3) (off drift : Word) (m : ClkMeas) :
    exec (.refSignalValid r off drift m) s = .next (s.withHub (s.hub.refValid r off drift m)) :=
  State.onHub_next live fun h => h.refValid r off drift m
theorem exec_refQualified (r : Fin 3) (off drift : Word) (m : ClkMeas) :
    exec (.refQualified r off drift m) s = .next (s.withHub (s.hub.refQualify r off drift m)) :=
  State.onHub_next live fun h => h.refQualify r off drift m
theorem exec_refLost (r : Fin 3) (cause : Fin 5) (off drift : Word) (m : ClkMeas) :
    exec (.refLost r cause off drift m) s = .next (s.withHub (s.hub.refLose r cause off drift m)) :=
  State.onHub_next live fun h => h.refLose r cause off drift m
theorem exec_slewDone (c : Fin 2) (m : ClkMeas) : exec (.slewDone c m) s = .next (s.withHub (s.hub.slewEnd c m)) :=
  State.onHub_next live fun h => h.slewEnd c m

end runs

/-- A signal on an absent reference starts its qualification, in the class that the reference has. -/
theorem Hub.refValid_starts {h : Hub} {r : Nat} (absent : h.refState r = 0) (present : h.refPresent r = true) (off drift : Word) (m : ClkMeas) :
    h.refValid r off drift m = (((((h.refClass r).1.setReg (kRef r 0) (4 * (h.refClass r).2 + 1)).setReg (kRef r 1) off.toNat).setReg
      (kRef r 2) drift.toNat).setReg (kRef r 3) ((h.refClass r).1.fld 0x35 7 0)).evalBoth m := by
  rw [Hub.refValid, if_neg (by simp [absent, present])]

theorem Hub.refValid_ignored {h : Hub} {r : Nat} (missing : h.refPresent r = false) (off drift : Word) (m : ClkMeas) :
    h.refValid r off drift m = h := if_pos (.inr missing)

/-- The measured offset of a reference is no word of a core, whatever the number of the reference. -/
theorem kRef_ne_kCore (r c : Nat) : kRef r 1 ≠ kCore c 3 := by simp only [kRef, kCore, spc]; omega

/-- Settles O6, command by command; REF1 and REF2 have the class of their AES3 input, REF0 a free one. -/
theorem referencesAnswer : Obligations.ReferencesAnswer := by
  refine ⟨fun s i off drift m live absent en lock => ?aes, fun s off drift m live absent slave => ?ptp,
    fun s r off drift m live missing => ?missing, fun s r off drift m live qualifying => ?qualified,
    fun s r cause off drift m live there broken => ?lost, fun s c m live slew free => ?slew⟩
  case aes =>
    have present : s.hub.refPresent (i + 1) = true := Bool.and_eq_true_iff.2 ⟨en, lock⟩
    rw [exec_refSignalValid live, Fin.val_succ, Hub.refValid_starts absent present]
    rfl
  case ptp => exact ⟨s.hub.freeVal % 3, (exec_refSignalValid live ..).trans (by rw [Fin.val_zero, Hub.refValid_starts absent slave]; rfl),
    Nat.mod_lt _ (by decide)⟩
  case missing => rw [exec_refSignalValid live, Hub.refValid_ignored missing]
  case qualified => rw [exec_refQualified live, Hub.refQualify, if_neg (by simp [qualifying])]
  case lost =>
    have counts : ¬ (s.hub.refState r = 0 ∨ cause.val = 0) := not_or.2 ⟨there, fun zero => broken (Fin.ext zero)⟩
    rw [exec_refLost live, Hub.refLose, if_neg counts]
    simp [Hub.core, Two.get]
  case slew =>
    intro r h
    have offset : h.reg (kRef r 1) = s.hub.reg (kRef r 1) := Hub.reg_setReg_other _ 0 (kRef_ne_kCore r c)
    rw [exec_slewDone live, Hub.slewEnd, if_neg (by simp [slew]), free, offset]
    rfl

end Sys2Proof.Machine
end

section
/-! PROOF. Hop requests: refused with their cause, held or accepted (O8). -/

namespace Sys2Proof.Machine

theorem exec_hopRequest {s : State} (live : s.live = true) (c : Fin 2) (n : Fin 8) (go : Bool) :
    exec (.hopRequest c n go) s = .next (s.withHub (s.hub.hopRequest c n go)) := State.onHub_next live fun h => h.hopRequest c n go

/-! ### The causes of R77 -/

/-- An enabled domain of core `c` whose rate is not of family `fam`. -/
def Hub.OtherFamily (h : Hub) (c : Nat) (fam : Bool) : Prop :=
  ∃ d : Fin 4, (h.dom d).core = c ∧ (h.dom d).en = true ∧ rateFam (h.dom d).rate ≠ some fam

theorem Hub.any_boundTo_iff (h : Hub) (c : Nat) (fam : Bool) :
    ((h.boundTo c).any fun d => (h.dom d).en && rateFam (h.dom d).rate != some fam) = true ↔ h.OtherFamily c fam := by
  simp only [Hub.boundTo, List.any_eq_true, List.mem_filter, List.mem_range, beq_iff_eq, Bool.and_eq_true, bne_iff_ne]
  constructor
  · rintro ⟨d, ⟨range, bound⟩, enabled, other⟩
    exact ⟨⟨d, range⟩, bound, enabled, other⟩
  · rintro ⟨d, bound, enabled, other⟩
    exact ⟨d, ⟨d.isLt, bound⟩, enabled, other⟩

/-- MULT of a hop entry is more than 1/2,000 off the nominal one. -/
def Hub.MultOff (h : Hub) (c n : Nat) : Prop :=
  let mult := h.effN (kHop c n 0) 2
  let nom := multNominal (h.hopFam c n)
  2000 * (mult - nom) > nom ∨ 2000 * (nom - mult) > nom

section causes
variable {h : Hub} {c n : Nat}

theorem Hub.hopCause_invalid (bad : h.hopValid c n = false) : h.hopCause c n false = some 1 := if_pos (by simp [bad])

variable (valid : ¬ h.hopValid c n = false)
include valid

theorem Hub.hopCause_family (bad : h.OtherFamily c (h.hopFam c n)) : h.hopCause c n false = some 2 :=
  (if_neg (by simpa using valid)).trans (if_pos ((h.any_boundTo_iff c _).2 bad))

variable (family : ¬ h.OtherFamily c (h.hopFam c n))
include family

theorem Hub.hopCause_mult (bad : h.MultOff c n) : h.hopCause c n false = some 3 :=
  (if_neg (by simpa using valid)).trans <| (if_neg (mt (h.any_boundTo_iff c _).1 family)).trans (if_pos bad)

variable (mult : ¬ h.MultOff c n)
include mult

/-- Past the first three causes a busy core is cause 4, a stopped one cause 5. -/
theorem Hub.hopCause_state : h.hopCause c n false =
    if (h.core c).busy then some 4 else if (h.core c).st = .off then some 5 else none := by
  refine (if_neg (by simpa using valid)).trans <| (if_neg (mt (h.any_boundTo_iff c _).1 family)).trans <| (if_neg mult).trans ?_
  simp

end causes

/-! ### The judgement of a request (R77) -/

section judges
variable {h : Hub} {c n : Nat}

theorem Hub.hopRequest_judged {go : Bool} (asks : n ≠ (h.core c).entryRead ∨ go = true) : h.hopRequest c n go = h.judgeHop c n false :=
  if_pos asks

theorem Hub.hopRequest_repeats (same : n = (h.core c).entryRead) : h.hopRequest c n false = h := if_neg (by simp [same])

theorem Hub.judgeHop_accepts (ok : h.hopCause c n false = none) (still : (h.core c).st ≠ .slew) :
    h.judgeHop c n false = h.modCore c fun k => { k with hopTo := some n, hopHeld := none } := by
  rw [Hub.judgeHop, ok]
  exact if_neg still

theorem Hub.judgeHop_holds (ok : h.hopCause c n false = none) (slew : (h.core c).st = .slew) :
    h.judgeHop c n false = h.modCore c fun k => { k with hopHeld := some n } := by
  rw [Hub.judgeHop, ok]
  exact if_pos slew

end judges

/-- A refused request leaves the core, sets REFUSE and issues HOP_REFUSED with entry and cause. -/
theorem Hub.judgeHop_refuses {h : Hub} {c : Fin 2} {n cause : Nat} (refused : h.hopCause c n false = some cause) :
    (h.judgeHop c n false).core c = h.core c ∧ (h.judgeHop c n false).flag (kCksFlag 4) = true ∧
      (bit (h.reg (evCfg (96 + c))) 2 = false →
        ∃ r, (h.judgeHop c n false).ev = h.ev.take (96 + c) r ∧ r.code = 8 ∧ r.data0 = BitVec.ofNat 16 n ∧
          r.data1 = BitVec.ofNat 16 cause) := by
  rw [Hub.judgeHop, refused]
  dsimp only
  refine ⟨by simp, by simp, fun unmasked => ?_⟩
  have cfg := h.reg_setFlag_evCfg (src := 96 + c) (by omega) 4
  exact ⟨_, Hub.issue_ev_after (96 + c) 8 n cause 0 rfl cfg unmasked, rfl, rfl, rfl⟩

/-- Settles O8: what a request does by its judgement, and the judgement by the causes in the order of their numbers. -/
theorem hopRequestsAreJudged : Obligations.HopRequestsAreJudged := by
  refine ⟨fun s c n live same => ?repeats, fun s c n go live asks ok still => ?accepts, fun s c n go live asks ok slew => ?holds,
    fun s c n go cause live asks refused => ?refuses, fun h c n => ?causes⟩
  case repeats => rw [exec_hopRequest live, Hub.hopRequest_repeats same]
  case accepts => rw [exec_hopRequest live, Hub.hopRequest_judged asks, Hub.judgeHop_accepts ok still]
  case holds => rw [exec_hopRequest live, Hub.hopRequest_judged asks, Hub.judgeHop_holds ok slew]
  case refuses =>
    have next := exec_hopRequest live c n go
    rw [Hub.hopRequest_judged asks] at next
    exact ⟨_, next, Hub.judgeHop_refuses refused⟩
  case causes =>
    refine ⟨Hub.hopCause_invalid, Hub.hopCause_family, Hub.hopCause_mult, fun valid family mult busy => ?_,
      fun valid family mult idle off => ?_, fun valid family mult idle on => ?_⟩ <;>
      rw [Hub.hopCause_state valid family mult]
    · rw [if_pos busy]
    · rw [if_neg idle, if_pos off]
    · rw [if_neg idle, if_neg on]

end Sys2Proof.Machine
end

section
/-! PROOF. Domains: bindings, enables and disables (O9, O10), and the ticks that a domain skipped (O4). -/

namespace Sys2Proof.Machine

section runs
variable {s : State} (live : s.live = true) (d : Fin 4)
include live

theorem exec_domainRebind (f : BitVec 4) : exec (.domainRebind d f) s = .next (s.withHub (s.hub.domRebind d f.toNat)) :=
  State.onHub_next live fun h => h.domRebind d f.toNat
theorem exec_domainEnable : exec (.domainEnable d) s = .next (s.withHub (s.hub.domEnable d)) :=
  State.onHub_next live fun h => h.domEnable d
theorem exec_domainDisable : exec (.domainDisable d) s = .next (s.withHub (s.hub.domDisable d)) :=
  State.onHub_next live fun h => h.domDisable d

end runs

/-! ### Bindings, enables and disables (R79, R80) -/

section binds
variable {h : Hub} {d field : Nat} (changes : field ≠ (h.dom d).field)
include changes

theorem Hub.domRebind_binds (ok : h.bindCause d field = none) : h.domRebind d field =
    let g := h.setFld 0x31 (4 * d + 3) (4 * d) field
    if (h.dom d).en then g.modDom d fun m => { m with rebind := some field }
    else g.modDom d fun m => { m with core := field / 8 % 2, rate := field % 8 } := by
  rw [Hub.domRebind, if_neg changes, ok]
  rfl

theorem Hub.domRebind_refused {why : Nat × Nat} (refused : h.bindCause d field = some why) :
    h.domRebind d field = h.refuseRate d field why := by
  rw [Hub.domRebind, if_neg changes, refused]

end binds

theorem Hub.domEnable_cancels {h : Hub} {d : Nat} (ends : (h.dom d).disabling = true) :
    h.domEnable d = (h.modDom d fun m => { m with disabling := false }).setFld 0x32 d d 1 := if_pos ends

/-- A stopped domain whose core runs in its family waits for the base tick. -/
theorem Hub.domEnable_waits {h : Hub} {d : Nat} (stands : (h.dom d).disabling = false) (stopped : (h.dom d).en = false)
    (on : (h.core (h.dom d).core).st ≠ .off) (family : rateFam (h.dom d).rate = some (h.core (h.dom d).core).fam) :
    h.domEnable d = (h.modDom d fun m => { m with en := true, starting := true }).setFld 0x32 d d 1 :=
  (if_neg (by simp [stands])).trans <| (if_neg (by simp [stopped])).trans <| (if_neg (by simp [family])).trans (if_neg on)

theorem Hub.domDisable_waits {h : Hub} {d : Nat} (other : d ≠ 0) (enabled : (h.dom d).en = true) :
    h.domDisable d = (h.modDom d fun m => { m with disabling := true }).setFld 0x32 d d 0 := (if_neg other).trans (if_pos enabled)

/-- Settles O9, command by command. -/
theorem domainCommandsAnswer : Obligations.DomainCommandsAnswer := by
  refine ⟨fun s d f live changes ok => ?rebind, fun s d live stands stopped on family => ?enable, fun s d live ends => ?cancel,
    fun s d live other enabled => ?disable, fun s live => exec_domainDisable live 0⟩
  case rebind => rw [exec_domainRebind live, Hub.domRebind_binds changes ok]
  case enable => rw [exec_domainEnable live, Hub.domEnable_waits stands stopped on family]
  case cancel => rw [exec_domainEnable live, Hub.domEnable_cancels ends]
  case disable => rw [exec_domainDisable live, Hub.domDisable_waits (fun zero => other (Fin.ext zero)) enabled]

/-! ### Refused bindings (R38, R79, R87) -/

theorem Hub.flag_refuseRate (h : Hub) (d field : Nat) (why : Nat × Nat) : (h.refuseRate d field why).flag (kCksFlag 4) = true := by
  rw [Hub.refuseRate, Hub.flag_issue, Hub.setFld, Hub.flag_setReg_other _ _ (kCksFlag_ne_direct (by decide) 4), Hub.flag_setFlag]

/-- RATE_REFUSED names field and cause, and the engine of cause 3. -/
theorem Hub.ev_refuseRate {h : Hub} {d : Fin 4} (unmasked : bit (h.reg (evCfg (101 + d))) 2 = false) (field : Nat) (why : Nat × Nat) :
    ∃ r, (h.refuseRate d field why).ev = h.ev.take (101 + d) r ∧ r.code = 2 ∧ r.data0 = BitVec.ofNat 16 field ∧
      r.data1 = BitVec.ofNat 16 why.1 ∧ r.data2 = if why.1 = 3 then BitVec.ofNat 16 why.2 else 0 := by
  have cfg := (Hub.reg_setReg_other (h.setFlag (kCksFlag 4)) (putBits ((h.setFlag (kCksFlag 4)).reg 0x31) (4 * d + 3) (4 * d)
    ((h.dom d).rebind.getD (h.dom d).field)) (evCfg_ne_direct (a := 0x31) (by decide) (101 + d))).trans (h.reg_setFlag_evCfg (by omega) 4)
  exact ⟨_, Hub.issue_ev_after (101 + d) 2 field why.1 (if why.1 = 3 then why.2 else 0) rfl cfg unmasked, rfl, rfl, rfl,
    apply_ite (BitVec.ofNat 16) _ _ _⟩

/-- The core and the rate code of a field of CKS_DOMCFG. -/
theorem field_parts (c : Fin 2) (rate : Fin 8) : (8 * c.val + rate.val) / 8 % 2 = c ∧ (8 * c.val + rate.val) % 8 = rate := by omega

/-- The causes of a refused binding, of the target core and the rate code. -/
theorem Hub.bindCause_parts (h : Hub) (d : Nat) (c : Fin 2) (rate : Fin 8) {fam : Bool} (named : rateFam rate = some fam) :
    h.bindCause d (8 * c.val + rate.val) = if (h.core c).fam ≠ fam then some (2, 0) else
      ((h.plenBlocks d rate).map fun n => (3, n)).or (if (h.core c).st = .off then some (4, 0) else none) := by
  obtain ⟨core, code⟩ := field_parts c rate
  rw [Hub.bindCause, core, code, named]
  cases blocks : h.plenBlocks d rate <;> simp

theorem Hub.bindCause_noRate (h : Hub) (d : Nat) (c : Fin 2) {rate : Fin 8} (noRate : rate = 7) :
    h.bindCause d (8 * c.val + rate.val) = some (1, 0) := by
  obtain ⟨-, code⟩ := field_parts c rate
  rw [Hub.bindCause, code, noRate]
  rfl

/-- Settles O10: what a refused binding leaves and issues, and the causes in their order. -/
theorem rateRefusals : Obligations.RateRefusals := by
  refine ⟨fun s d f cause n live changes refused => ?refused, fun h d c rate => ⟨h.bindCause_noRate d c, fun fam named other => ?family,
    fun n named blocks => ?engine, fun named free off => ?stopped, fun named free on => ?accepted⟩⟩
  case refused =>
    have next := exec_domainRebind live d f
    rw [Hub.domRebind_refused changes refused] at next
    rw [BitVec.zeroExtend, ← BitVec.ofNat_toNat]
    exact ⟨_, next, Hub.dom_refuseRate _ _ _ _ _, Hub.flag_refuseRate _ _ _ _, fun unmasked => Hub.ev_refuseRate unmasked _ _⟩
  case family => rw [h.bindCause_parts d c rate named, if_pos other]
  case engine => rw [h.bindCause_parts d c rate named, if_neg (by simp), blocks]; rfl
  case stopped => rw [h.bindCause_parts d c rate named, if_neg (by simp), free, if_pos off]; rfl
  case accepted => rw [h.bindCause_parts d c rate named, if_neg (by simp), free, if_neg on]; rfl

/-! ### Fields of several words (R9) -/

/-- A field of `m` words reads the words that it spans. -/
theorem Hub.regN_congr {h g : Hub} {k m : Nat} (same : ∀ j, k ≤ j → j < k + m → g.reg j = h.reg j) : g.regN k m = h.regN k m := by
  induction m generalizing k with
  | zero => rfl
  | succ m ih => rw [Hub.regN, Hub.regN, same k (by omega) (by omega), ih fun j low high => same j (by omega) (by omega)]

theorem Hub.regN_setReg_apart (h : Hub) {j k m : Nat} (n : Nat) (apart : j < k ∨ k + m ≤ j) : (h.setReg j n).regN k m = h.regN k m :=
  Hub.regN_congr fun i low high => Hub.reg_setReg_other h n (by omega)

theorem Hub.regN_issue (h : Hub) (src code d0 d1 d2 k m : Nat) : (h.issue src code d0 d1 d2).regN k m = h.regN k m :=
  Hub.regN_congr fun j _ _ => h.reg_issue src code d0 d1 d2 j

/-- A field reads the low words of the number stored. -/
theorem Hub.regN_setRegN (h : Hub) (k m n : Nat) : (h.setRegN k m n).regN k m = n % 65536 ^ m := by
  induction m generalizing h k n with
  | zero => simp [Hub.regN, Nat.mod_one]
  | succ m ih =>
    rw [Hub.setRegN, Hub.regN, ih, Hub.reg_setRegN_apart _ _ _ (.inl (by omega)), Hub.reg_setReg_same, Nat.mod_mod, pow_succ',
      Nat.mod_mul]

theorem Hub.regN_addSat (h : Hub) (k m n : Nat) : (h.addSat k m n).regN k m = min (65536 ^ m - 1) (h.regN k m + n) := by
  have most : 0 < 65536 ^ m := by positivity
  rw [Hub.addSat, Hub.regN_setRegN, satN, Nat.mod_eq_of_lt (by omega)]

/-! ### The ticks that a domain skipped (R82) -/

/-- A number of 80 bits in counter and epoch. -/
theorem counter_ofNat {x : Nat} (fits : x < 2 ^ 80) : (BitVec.ofNat 32 x).toNat + 2 ^ 32 * (BitVec.ofNat 48 (x / 2 ^ 32)).toNat = x := by
  rw [BitVec.toNat_ofNat, BitVec.toNat_ofNat]
  omega

/-- A tick counts one more, while the number fits. -/
theorem Hub.domCount_adds {h : Hub} {d : Fin 4} (counts : (h.dom d).fresh = false)
    (fits : (h.dom d).tick.toNat + 2 ^ 32 * (h.dom d).epoch.toNat + 1 < 2 ^ 80) :
    ((h.domCount d).dom d).tick.toNat + 2 ^ 32 * ((h.domCount d).dom d).epoch.toNat =
      (h.dom d).tick.toNat + 2 ^ 32 * (h.dom d).epoch.toNat + 1 := by
  obtain ⟨tick, epoch⟩ := h.domCount_counter d.isLt
  rw [tick, epoch, if_neg (by simp [counts]), if_neg (by simp [counts]), ← ofNat_counter_tick _ (h.dom d).epoch, ← ofNat_counter_epoch,
    counter_ofNat fits]

/-- Storing a field of several words, or counting in one, changes registers only. -/
theorem Hub.setRegN_frame (h : Hub) (k m n : Nat) : ∃ regs, h.setRegN k m n = { h with regs := regs } := by
  induction m generalizing h k n with
  | zero => exact ⟨h.regs, rfl⟩
  | succ m ih =>
    obtain ⟨regs, stored⟩ := ih (h.setReg k (n % 65536)) (k + 1) (n / 65536)
    exact ⟨regs, stored⟩

@[simp] theorem Hub.addSat_clk (h : Hub) (k m n : Nat) : (h.addSat k m n).clk = h.clk := by
  obtain ⟨regs, stored⟩ := h.setRegN_frame k m (satN (65536 ^ m - 1) (h.regN k m + n)); rw [Hub.addSat, stored]
@[simp] theorem Hub.addSat_ev (h : Hub) (k m n : Nat) : (h.addSat k m n).ev = h.ev := by
  obtain ⟨regs, stored⟩ := h.setRegN_frame k m (satN (65536 ^ m - 1) (h.regN k m + n)); rw [Hub.addSat, stored]

/-- The domain that resumes runs, its counter advanced. -/
theorem Hub.dom_resumeDom (h : Hub) (c : Nat) (d : Fin 4) (skipped : Nat) :
    let x := (h.dom d).tick.toNat + 2 ^ 32 * (h.dom d).epoch.toNat + skipped
    (h.resumeDom c d skipped).dom d = { h.dom d with
      paused := false, run := true, lastTick := false, tick := BitVec.ofNat 32 x, epoch := BitVec.ofNat 48 (x / 2 ^ 32) } := by
  rw [Hub.resumeDom, Hub.dom_issue, Hub.dom_setFlag, Hub.dom_congr (Hub.addSat_clk _ _ _ _), Hub.dom_modDom_same]

/-- GAPCNT counts the ticks skipped up to its largest value. -/
theorem Hub.regN_resumeDom (h : Hub) (c : Nat) (d : Fin 4) (skipped : Nat) :
    (h.resumeDom c d skipped).regN (kGapCnt d) 2 = min (2 ^ 32 - 1) (h.regN (kGapCnt d) 2 + skipped) := by
  have above : kGapCnt d + 2 ≤ kCksFlag 3 := by simp only [kGapCnt, kCksFlag, spc]; omega
  rw [Hub.resumeDom, Hub.regN_issue, Hub.setFlag, Hub.regN_setReg_apart _ _ (.inr above), Hub.regN_addSat]
  rfl

theorem Hub.flag_resumeDom (h : Hub) (c d skipped : Nat) : (h.resumeDom c d skipped).flag (kCksFlag 3) = true := by
  simp [Hub.resumeDom]

/-- GAP carries the ticks skipped, low word first, and the core. -/
theorem Hub.ev_resumeDom {h : Hub} {d : Fin 4} (unmasked : bit (h.reg (evCfg (101 + d))) 2 = false) (c skipped : Nat) :
    ∃ e, (h.resumeDom c d skipped).ev = h.ev.take (101 + d) e ∧ e.code = 3 ∧ e.data0 = BitVec.ofNat 16 (skipped % 65536) ∧
      e.data1 = BitVec.ofNat 16 (skipped / 65536) ∧ e.data2 = BitVec.ofNat 16 c := by
  unfold Hub.resumeDom
  dsimp only
  generalize resumed : h.modDom d _ = g
  have sources : g.ev = h.ev := by rw [← resumed]; rfl
  have words : g.reg (evCfg (101 + d)) = h.reg (evCfg (101 + d)) := by rw [← resumed]; rfl
  have apart : evCfg (101 + d) < kGapCnt d := by simp only [evCfg, kGapCnt, spc]; omega
  have cfg : ((g.addSat (kGapCnt d) 2 skipped).setFlag (kCksFlag 3)).reg (evCfg (101 + d)) = h.reg (evCfg (101 + d)) := by
    rw [Hub.reg_setFlag_evCfg _ (by omega), Hub.addSat, Hub.reg_setRegN_apart _ _ _ (.inl apart), words]
  exact ⟨_, Hub.issue_ev_after (101 + d) 3 (skipped % 65536) (skipped / 65536) c ((Hub.addSat_ev ..).trans sources) cfg unmasked,
    rfl, rfl, rfl, rfl⟩

/-- Settles O4: counter and epoch as one number, GAPCNT, the flag and the event of a domain that resumes. -/
theorem domainResumesBySkippedTicks : Obligations.DomainResumesBySkippedTicks := by
  intro h c d skipped bounded x r
  have resumed : r.dom d = _ := h.dom_resumeDom c d skipped
  refine ⟨fun fits counts => ?counter, h.regN_resumeDom c d skipped, h.flag_resumeDom c d skipped, by rw [resumed], fun unmasked => ?event⟩
  case counter =>
    have advanced : (r.dom d).tick.toNat + 2 ^ 32 * (r.dom d).epoch.toNat = x + skipped := by
      rw [resumed]; exact counter_ofNat (Nat.lt_of_succ_lt fits)
    rw [Hub.domCount_adds (by rw [resumed]; exact counts) (by rw [advanced]; exact fits), advanced]
  case event =>
    obtain ⟨e, issued, code, low, high, core⟩ := Hub.ev_resumeDom unmasked c skipped
    refine ⟨e, issued, code, ?_, core⟩
    rw [low, high, BitVec.toNat_ofNat, BitVec.toNat_ofNat]
    omega

end Sys2Proof.Machine
end

section
/-! PROOF. Clock outputs (O11). -/

namespace Sys2Proof.Machine

/-- A write of an output that no caption port holds acts, and what follows a change of the outputs follows (R511). -/
theorem State.onHub_clkoWrite {s : State} (live : s.live = true) {m : Fin 8} (free : m = 7 → s.hub.capHolds = false) (f : Hub → Hub) :
    (s.onHub fun h => h.clkoWrite m f) = .next (s.withHub (f s.hub).clkSync) := by
  have acts : ¬ (m.val = 7 ∧ s.hub.capHolds = true) := by
    rintro ⟨last, holds⟩
    exact absurd holds (by simp [free (Fin.ext last)])
  rw [State.onHub_next live, Hub.clkoWrite, if_neg acts]

section runs
variable {s : State} (live : s.live = true) {m : Fin 8}
include live

theorem exec_clkoStopComplete : exec (.clkoStopComplete m) s = .next (s.withHub (s.hub.clkoStopped m)) :=
  State.onHub_next live fun h => h.clkoStopped m

variable (free : m = 7 → s.hub.capHolds = false)
include free

theorem exec_clkoEnable : exec (.clkoEnable m) s = .next (s.withHub (s.hub.clkoEnable m).clkSync) :=
  State.onHub_clkoWrite live free fun h => h.clkoEnable m
theorem exec_clkoDisable (high : Bool) : exec (.clkoDisable m high) s = .next (s.withHub (s.hub.clkoDisable m high).clkSync) :=
  State.onHub_clkoWrite live free fun h => h.clkoDisable m high
theorem exec_clkoDividerChange (n : Word) (half : Bool) :
    exec (.clkoDividerChange m n half) s = .next (s.withHub (s.hub.clkoDivider m n.toNat half).clkSync) :=
  State.onHub_clkoWrite live free fun h => h.clkoDivider m n.toNat half
theorem exec_clkoDelayChange (delay : BitVec 10) :
    exec (.clkoDelayChange m delay) s = .next (s.withHub (s.hub.clkoDelay m delay.toNat).clkSync) :=
  State.onHub_clkoWrite live free fun h => h.clkoDelay m delay.toNat
theorem exec_clkoDomChange (dom : Fin 4) : exec (.clkoDomChange m dom) s = .next (s.withHub (s.hub.clkoDom m dom).clkSync) :=
  State.onHub_clkoWrite live free fun h => h.clkoDom m dom

end runs

/-- A delay of ten bits is stored whole. -/
theorem Hub.clkoDelay_whole (h : Hub) (m : Nat) (delay : BitVec 10) : h.clkoDelay m delay.toNat =
    let g := h.setReg (kClko m 2) delay.toNat
    if (h.clko m).en then g else g.modClko m fun o => { o with delay := delay.toNat } := by
  rw [Hub.clkoDelay, Nat.mod_eq_of_lt delay.isLt]
  rfl

/-- Settles O11, command by command. -/
theorem clockOutputCommandsAnswer : Obligations.ClockOutputCommandsAnswer := by
  intro s m live free
  refine ⟨exec_clkoEnable live free, exec_clkoDisable live free, exec_clkoStopComplete live, fun n half => ?divider, fun delay => ?delay,
    fun dom off => ?dom⟩
  case divider =>
    intro n' h
    have stored : (if n.toNat = 0 then s.hub.reg (kClko m 0) else n.toNat) = n' := if_congr (BitVec.toNat_inj (y := 0)) rfl rfl
    rw [exec_clkoDividerChange live free, Hub.clkoDivider, stored]
    rfl
  case delay => rw [exec_clkoDelayChange live free, Hub.clkoDelay_whole]
  case dom => rw [exec_clkoDomChange live free, Hub.clkoDom, if_neg (by simp [off])]

end Sys2Proof.Machine
end

section
/-! PROOF. Frames of the control port: judged, executed and answered on the serial port and over the tunnel (O53). -/

namespace Sys2Proof.Machine

/-! ### What the check of a request says of its words (R94, R99) -/

theorem reqOp_reqWords {op : Nat} (small : op < 16) (tag : BitVec 4) (addr : Byte) (w1 crc : Word) (data : List Word) :
    reqOp (reqWords op tag addr w1 data crc) = op := by
  have word : lget 0 (reqWords op tag addr w1 data crc) 0 = BitVec.ofNat 16 (4096 * op + 256 * tag.toNat + addr.toNat) := rfl
  have htag := tag.isLt
  have haddr := addr.isLt
  rw [reqOp, word, BitVec.toNat_ofNat, bits]
  omega

theorem reqOp_le_of_badCount {ws : List Word} (bad : badCount ws = true) : reqOp ws ≤ 4 := by
  simp only [badCount, Bool.and_eq_true, decide_eq_true_eq] at bad
  exact bad.1.2

/-- A request that passes the checks has a valid OP, a valid COUNT and the length that they imply. -/
theorem Hub.reqCheck_passes {h : Hub} {p : Nat} {ws : List Word} (passes : h.reqCheck p ws = 0) :
    reqOp ws ≤ 5 ∧ badCount ws = false ∧ ws.length = reqLen ws := by
  unfold Hub.reqCheck at passes
  split at passes
  · cases passes
  split at passes
  · cases passes
  next op =>
    split at passes
    · cases passes
    next form =>
      rw [not_or] at form
      exact ⟨Nat.le_of_not_lt op, Bool.eq_false_of_not_eq_true form.1, Decidable.not_not.1 form.2⟩

/-! ### A request judged (R99, R100) -/

section judged
variable {h : Hub} {p : Nat} {ws : List Word}

theorem frameJudge_executes (passes : h.reqCheck p ws = 0) (q : EvQueue) :
    let r := frameExec h q p ws
    let kept := if reqOp ws = 0 ∨ reqOp ws = 5 then r.h.leaseKept h.owner p else r.h
    frameJudge h q p ws = (0, { r with h := kept }) := if_pos passes

theorem frameJudge_refuses (fails : h.reqCheck p ws ≠ 0) (q : EvQueue) :
    let c := h.reqCheck p ws
    let g := h.frameError p c (lget 0 ws 0)
    let g := if c = 1 then g else g.leaseKept g.owner p
    frameJudge h q p ws = (c, ⟨g, q, g.respond q p (reqTag ws) c false []⟩) := if_neg fails

/-- Reads and writes that pass the checks run, and their response carries what they read (R95, R97, R100). -/
theorem frameExec_accesses (least : 1 ≤ reqOp ws) (most : reqOp ws ≤ 4) (q : EvQueue) :
    let x := frameRun h q p (reqOp ws) (reqAddr ws) (reqCount ws) (reqData ws)
    (frameExec h q p ws).q = x.q ∧
    (frameExec h q p ws).words = (frameExec h q p ws).h.respond x.q p (reqTag ws) x.status x.cci x.data := by
  rw [frameExec, if_neg (by omega), if_neg (by omega)]
  exact ⟨rfl, rfl⟩

end judged

/-! ### The serial port (R97, R99, R101) -/

section serial
variable {h : Hub} {q : EvQueue} {short : Nat} {ws : List Word}

theorem serialFrame_badOp (begun : ws ≠ []) (bad : 5 < reqOp ws) : serialFrame h q short ws = (h.noResponse 2 ws, q) :=
  if_pos ⟨by simpa using begun, bad⟩

theorem serialFrame_badCount (two : 2 ≤ ws.length) (bad : badCount ws = true) : serialFrame h q short ws = (h.noResponse 3 ws, q) := by
  have op := reqOp_le_of_badCount bad
  rw [serialFrame, if_neg (by omega), if_pos ⟨two, bad⟩]

theorem serialFrame_short (op : ws = [] ∨ reqOp ws ≤ 5) (count : badCount ws = false) (less : ws.length < 2 ∨ ws.length < reqLen ws) :
    serialFrame h q short ws = (h.noResponse short ws, q) := by
  have first : ¬ (ws.length ≠ 0 ∧ 5 < reqOp ws) := fun ⟨begun, bad⟩ =>
    op.elim (fun empty => begun (by simp [empty])) (fun good => absurd bad (Nat.not_lt.2 good))
  rw [serialFrame, if_neg first, if_neg (by simp [count]), if_pos less]

/-- A request with all its words is judged, and its response is sent. -/
theorem serialFrame_whole (op : reqOp ws ≤ 5) (count : badCount ws = false) (whole : ws.length = reqLen ws) :
    serialFrame h q short ws = let r := (frameJudge h q 0 ws).2; (r.h.cpSent 0 r.words, r.q) := by
  have three : 3 ≤ reqLen ws := by unfold reqLen; split <;> omega
  rw [serialFrame, if_neg (by omega), if_neg (by simp [count]), if_neg (by omega), ← whole, List.take_length]

end serial

/-! ### The tunnel (R105, R106) -/

/-- The oldest waiting request, if it passes the checks and repeats none, executes and its answer is sent and kept. -/
theorem tunnelFrame_executes {h : Hub} {f : TunFrom} {ws : List Word} {rest : List TunReq}
    (oldest : h.cp.tun.queue = { from_ := f, words := ws } :: rest) (fresh : h.cp.tun.repeats f = false)
    (passes : (h.modTun fun t => { t with queue := rest }).reqCheck 1 ws = 0) (q : EvQueue) :
    let g := h.modTun fun t => { t with queue := rest }
    let r := frameExec g q 1 ws
    let kept := if reqOp ws = 0 ∨ reqOp ws = 5 then r.h.leaseKept h.owner 1 else r.h
    let out := tunPayload 1 f.seq r.words
    tunnelFrame h q ws = ((((kept.cpSent 1 r.words).tunSend f out).modTun fun t => { t with last := some f, lastAnswer := out }), r.q) := by
  intro g r kept out
  have new : ¬ g.cp.tun.repeats f = true := Bool.eq_false_iff.1 fresh
  rw [tunnelFrame, oldest]
  dsimp only
  rw [if_neg (fun other => other rfl), if_neg new, frameJudge_executes passes]
  rfl

/-! ### The obligation -/

/-- Settles O53: each row hands its words to the serial port or the tunnel, which judges them. -/
theorem controlPortFramesAnswer : Obligations.ControlPortFramesAnswer := by
  refine ⟨fun s path tag addr w1 crc data live => ?rows, fun s ws live => ?silent, fun h q p ws least most => ?accesses⟩
  case rows =>
    intro kept runs
    have row : ∀ (i : Instr) (op : Nat) (d : List Word), op < 6 →
        exec i s = s.onQ (fun h q => frameRow h q path (reqWords op tag addr w1 d crc)) → runs i op d := by
      intro i op d small hands
      have code : reqOp (reqWords op tag addr w1 d crc) = op := reqOp_reqWords (by omega) ..
      rw [State.onQ_next live] at hands
      refine ⟨?_, ?_, ?_⟩
      · intro serial passes r
        subst serial
        obtain ⟨opOk, count, whole⟩ := Hub.reqCheck_passes passes
        rw [hands, frameRow, if_pos rfl, serialFrame_whole opOk count whole, frameJudge_executes passes, code]
        rfl
      · intro serial refused count whole c h g
        subst serial
        rw [hands, frameRow, if_pos rfl, serialFrame_whole (by omega) count whole, frameJudge_refuses (by omega)]
      · intro f rest tunnel oldest fresh g passes r out
        subst tunnel
        rw [hands, frameRow, if_neg (by decide), tunnelFrame_executes oldest fresh passes, code]
        rfl
    exact ⟨row _ 0 [] (by decide) rfl, row _ 1 [] (by decide) rfl, row _ 2 [] (by decide) rfl, row _ 3 data (by decide) rfl,
      row _ 4 data (by decide) rfl, row _ 5 [] (by decide) rfl⟩
  case silent =>
    intro silent
    have invalid : exec (.cpInvalidOp 0 ws) s = .next { s with
        hub := (serialFrame s.hub s.q 10 ws).1, q := (serialFrame s.hub s.q 10 ws).2 } := State.onQ_next live _
    have timeout : exec (.frameTimeout ws) s = .next { s with
        hub := (serialFrame s.hub s.q 9 ws).1, q := (serialFrame s.hub s.q 9 ws).2 } := State.onQ_next live _
    have short : exec (.frameShort ws) s = .next { s with
        hub := (serialFrame s.hub s.q 10 ws).1, q := (serialFrame s.hub s.q 10 ws).2 } := State.onQ_next live _
    refine ⟨fun begun bad => ?_, fun two bad => ?_, fun op count less => ⟨?_, ?_⟩⟩
    · rw [invalid, serialFrame_badOp begun bad]; rfl
    · rw [invalid, serialFrame_badCount two bad]; rfl
    · rw [timeout, serialFrame_short op count less]; rfl
    · rw [short, serialFrame_short op count less]; rfl
  case accesses => exact frameExec_accesses least most q

end Sys2Proof.Machine
end

section
/-! PROOF. Conditional clears: the register of a flag after a write, and the header of the frame that made it (O55). -/

namespace Sys2Proof.Machine

/-! ### Where the flags of a space stand -/

theorem findRow_some {rs : List RegRow} {o : Nat} {r : RegRow} (found : findRow rs o = some r) : r ∈ rs ∧ r.holds o = true := by
  induction rs with
  | nil => cases found
  | cons x xs ih =>
    rw [findRow] at found
    split at found
    · next holds => cases found; exact ⟨List.mem_cons_self, holds⟩
    · exact ⟨List.mem_cons_of_mem _ (ih found).1, (ih found).2⟩

theorem RegRow.base_le_of_holds {r : RegRow} {o : Nat} (holds : r.holds o = true) : r.base ≤ o := by
  simp only [RegRow.holds, Bool.or_eq_true, Bool.and_eq_true, decide_eq_true_eq] at holds
  omega

/-- The flags of the route matrix stand behind the words of its sinks (R482). -/
theorem routeFlag_after_sinks {o : Nat} {r : RegRow} (found : findRow (regRows 0x20) o = some r) (flag : r.acc = .cc) : 0xB000 ≤ o := by
  obtain ⟨mem, holds⟩ := findRow_some found
  have bases : ∀ r ∈ regRows 0x20, r.acc = .cc → 0xB000 ≤ r.base := by decide
  exact (bases r mem flag).trans (RegRow.base_le_of_holds holds)

/-- A write of a CC register acts when it is made (R119). -/
theorem actsNow_flag {sp o : Nat} {r : RegRow} (found : findRow (regRows sp) o = some r) (flag : r.acc = .cc) : actsNow sp o = true := by
  simp [actsNow, found, flag]

/-! ### A write of a word (R114, R119) -/

theorem Hub.writeFlag_clears {h : Hub} {k w : Nat} (set : bit w 15 = true ∧ bit (h.reg k) 15 = true ∧ w % 16 = h.reg k % 16) :
    h.writeFlag k w = (h.setReg k (h.reg k % 16), false) := if_pos (by simp [Hub.clears, Hub.flag, set])

theorem Hub.writeFlag_ignored {h : Hub} {k w : Nat} (other : ¬ (bit w 15 = true ∧ bit (h.reg k) 15 = true ∧ w % 16 = h.reg k % 16)) :
    h.writeFlag k w = (h, bit w 15) := if_neg (by simpa [Hub.clears, Hub.flag, and_assoc] using other)

theorem Hub.busWrite_flag {h : Hub} {sp o : Nat} {r : RegRow} (found : findRow (regRows sp) o = some r) (flag : r.acc = .cc)
    (known : sp = 0 ∨ spaceKnown sp = true) (noDram : ¬ (sp = 0x0C ∧ o < 0x40000000))
    (word : 16 ≤ sp → sp < 32 → 0x40000 ≤ o ∧ h.reserved (sp - 16) = false) (w : Nat) :
    h.busWrite sp o w = h.writeFlag (spc sp o) w := by
  have noMem : ¬ (16 ≤ sp ∧ sp < 32 ∧ o < 0x40000) := fun ⟨l, u, low⟩ => absurd (word l u).1 (Nat.not_le.2 low)
  have free : ¬ (16 ≤ sp ∧ sp < 32 ∧ h.reserved (sp - 16) = true) := fun ⟨l, u, bad⟩ => by simp [(word l u).2] at bad
  have noSink : ¬ (sp = 0x20 ∧ 0x9000 ≤ o ∧ o < 0xB000 ∧ (!h.isSink ((o - 0x9000) / 16)) = true) := by
    rintro ⟨rfl, -, below, -⟩
    exact absurd (routeFlag_after_sinks found flag) (Nat.not_le.2 below)
  rw [Hub.busWrite, if_neg (by simpa [or_iff_not_imp_left] using known), if_neg noDram, if_neg noMem, if_neg free, found]
  dsimp only
  rw [if_neg noSink, flag]

/-- Only a write of a CC register sets CCI. -/
theorem Hub.flag_of_busWrite_cci {h : Hub} {sp o w : Nat} (cci : (h.busWrite sp o w).2 = true) :
    (¬ (sp = 0x0C ∧ o < 0x40000000)) ∧ ∃ r, findRow (regRows sp) o = some r ∧ r.acc = .cc := by
  unfold Hub.busWrite at cci
  split at cci
  · cases cci
  split at cci
  · cases cci
  next noDram =>
    refine ⟨noDram, ?_⟩
    split at cci
    · cases cci
    split at cci
    · cases cci
    split at cci
    · cases cci
    next r found =>
      split at cci
      · cases cci
      split at cci
      case h_2 flag => exact ⟨r, found, flag⟩
      all_goals cases cci

theorem Hub.busWrite_cci_late {h : Hub} {sp o w : Nat} (later : actsNow sp o = false) : (h.busWrite sp o w).2 = false := by
  rw [Bool.eq_false_iff]
  intro cci
  obtain ⟨-, r, found, flag⟩ := Hub.flag_of_busWrite_cci cci
  simp [actsNow_flag found flag] at later

theorem Hub.busWrite_cci_dram {h : Hub} {sp o w : Nat} (dram : sp = 0x0C ∧ o < 0x40000000) : (h.busWrite sp o w).2 = false := by
  rw [Bool.eq_false_iff]
  exact fun cci => (Hub.flag_of_busWrite_cci cci).1 dram

/-! ### CCI of a frame (R100, R119) -/

section frame
variable (x : Xfer)

/-- Taking up the failure of an access leaves registers, queue and CCI as they are. -/
theorem Xfer.settle_frame (i : Nat) : ∃ cp failed bad first,
    x.settle i = { x with h := { x.h with cp := cp }, failed := failed, bad := bad, first := first } := by
  unfold Xfer.settle
  split
  · exact ⟨_, _, _, _, rfl⟩
  · exact ⟨_, _, _, _, rfl⟩

theorem Xfer.told_frame (p : Nat) : ∃ cp, x.told p = { x with h := { x.h with cp := cp } } := by
  unfold Xfer.told
  split
  · next c off _ =>
    obtain ⟨cp, e⟩ := Hub.noteFail_frame { x.h with cp := { x.h.cp with fail := some (c, off) } } p
    exact ⟨cp, by rw [e]⟩
  · exact ⟨x.h.cp, rfl⟩

/-- A write of a word that is not the control port's own or the queue's: what it does to the hub, and its CCI joined to the
frame's. -/
theorem Xfer.apply_frame {sp o : Nat} (plain : sp ≠ 0 ∨ o ≠ 0x09 ∧ o ≠ 0x1E) (p i w : Nat) : ∃ cp failed bad first,
    x.apply p i sp o w = { x with h := { (x.h.busWrite sp o w).1 with cp := cp }, cci := x.cci || (x.h.busWrite sp o w).2,
                                  failed := failed, bad := bad, first := first } := by
  rw [Xfer.apply, if_neg (by omega), if_neg (by omega)]
  dsimp only
  split
  · exact ⟨_, _, _, _, rfl⟩
  · obtain ⟨cp, failed, bad, first, e⟩ :=
      Xfer.settle_frame { x with h := (x.h.busWrite sp o w).1, cci := x.cci || (x.h.busWrite sp o w).2 } i
    exact ⟨cp, failed, bad, first, e⟩

/-- A write that acts now joins its CCI to the frame's; one that waits has none. -/
theorem Xfer.put_cci {sp o : Nat} (plain : sp ≠ 0 ∨ o ≠ 0x09 ∧ o ≠ 0x1E) (p w : Nat) :
    (x.put p sp o w).cci = (x.cci || (x.h.busWrite sp o w).2) := by
  cases now : actsNow sp o
  · rw [Xfer.put_late now, Hub.busWrite_cci_late now, Bool.or_false]
  · obtain ⟨_, _, _, _, e⟩ := Xfer.apply_frame { x with idx := x.idx + 1 } plain p x.idx w
    rw [Xfer.put_now now, e]

theorem Xfer.fails_cci (cause off : Nat) : (x.fails cause off).cci = x.cci := by
  obtain ⟨_, _, _, _, e⟩ := Xfer.settle_frame { x with h := x.h.failWin cause off } x.idx
  rw [Xfer.fails, e]

/-- A write of a space's word joins its CCI to the frame's, also where the watchdog ends it behind the DRAM window. -/
theorem Xfer.spaceWrite_cci {p sp o : Nat} (goes : x.h.linkStalls 2 sp p = false) (space : sp ≠ 0) (w : Nat) :
    (x.spaceWrite p sp o w).cci = (x.cci || (x.h.busWrite sp o w).2) := by
  have link : x.h.spaceLink p sp o = if sp = 0x0C ∧ o < 0x40000000 ∧ x.h.linkStalls 7 0 p then some (7, 0) else none :=
    if_neg (by simp [goes])
  rw [Xfer.spaceWrite, link]
  split
  · next found =>
    split at found
    · next behind =>
      rw [Hub.busWrite_cci_dram ⟨behind.1, behind.2.1⟩, Bool.or_false]
      exact x.fails_cci 4 o
    · cases found
  · rw [if_neg space]
    exact x.put_cci (.inl space) p w

variable {x}

theorem Xfer.write_direct_cci {p a : Nat} (goes : x.h.linkStalls 3 a p = false) (owner : a ≠ 0x09) (head : a ≠ 0x19) (hwm : a ≠ 0x1E)
    (bank : ¬ (0x10 ≤ a ∧ a < 0x18)) (w : Nat) : (x.write p a w).cci = (x.cci || (x.h.busWrite 0 a w).2) := by
  rw [Xfer.write, if_neg (by simp [goes]), if_neg (by omega), if_neg bank, if_neg head]
  exact x.put_cci (.inr ⟨owner, hwm⟩) p w

theorem Xfer.write_window_cci {p : Nat} (goes : x.h.linkStalls 3 0x14 p = false)
    (through : x.h.linkStalls 2 (x.h.path p).wspace.toNat p = false) (space : (x.h.path p).wspace ≠ 0) (w : Nat) :
    (x.write p 0x14 w).cci = (x.cci || (x.h.busWrite (x.h.path p).wspace.toNat (x.h.path p).waddr.toNat w).2) := by
  rw [Xfer.write, if_neg (by simp [goes]), if_pos rfl]
  exact x.spaceWrite_cci through (fun zero => space (BitVec.eq_of_toNat_eq zero)) w

end frame

theorem flagAt_two_add_one_lt (a b : Bool) : flagAt a 2 + flagAt b 1 < 8 := by revert a b; decide

/-- Bit 3 of a response header is CCI (R97). -/
theorem Hub.header_cci (h : Hub) (q : EvQueue) (p tag status : Nat) (cci : Bool) : bit (h.header q p tag status cci).toNat 3 = cci := by
  have low := flagAt_two_add_one_lt (h.attention q) (h.owner == p)
  rw [Hub.header, BitVec.toNat_ofNat, bit, Nat.testBit_eq_decide_div_mod_eq]
  cases cci
  case false => rw [show flagAt false 3 = 0 from rfl, decide_eq_false_iff_not]; omega
  case true => rw [show flagAt true 3 = 8 from rfl, decide_eq_true_eq]; omega

/-! ### CONDITIONAL_CLEAR (R110, R119) -/

/-- A write of a flag of a space by the owner of writes: the registers with EXP cleared, and the CCI of the write. -/
theorem ownerAccess_flag {h : Hub} {sp o : Nat} {r : RegRow} (quiet : h.cp.stalls = []) (space : sp ≠ 0)
    (found : findRow (regRows sp) o = some r) (flag : r.acc = .cc) (q : EvQueue) (w : Nat) :
    let x := ownerAccess h q sp o w
    x.h.regs = ((h.busWrite sp o w).1.setFld 0x09 1 1 0).regs ∧ x.cci = (h.busWrite sp o w).2 ∧ x.q = q := by
  obtain ⟨cp, failed, bad, first, acts⟩ := Xfer.apply_frame { h := h, q := q, idx := 1 } (.inl space) h.owner 0 w
  have write : ({ h := h, q := q } : Xfer).spaceWrite h.owner sp o w = ({ h := h, q := q, idx := 1 } : Xfer).apply h.owner 0 sp o w := by
    rw [Xfer.spaceWrite_quiet (x := { h := h, q := q }) quiet space, Xfer.put_now (actsNow_flag found flag)]
  have complete : (({ h := h, q := q } : Xfer).spaceWrite h.owner sp o w).complete h.owner =
      ({ h := h, q := q } : Xfer).spaceWrite h.owner sp o w := Xfer.complete_none (by rw [write, acts])
  obtain ⟨cp', told⟩ := Xfer.told_frame (({ h := h, q := q } : Xfer).spaceWrite h.owner sp o w) h.owner
  rw [ownerAccess]
  dsimp only
  rw [if_neg space, complete, told, write, acts, Hub.leaseKept_owner]
  exact ⟨rfl, Bool.false_or _, rfl⟩

theorem Hub.cpSent_regs (h : Hub) (p : Nat) (ws : List Word) : (h.cpSent p ws).regs = h.regs := by
  unfold Hub.cpSent Hub.modPath
  split <;> rfl

theorem exec_conditionalClear {s : State} (live : s.live = true) {sp : Byte} {o : BitVec 32} {r : RegRow}
    (found : findRow (regRows sp.toNat) o.toNat = some r) (flag : r.acc = .cc) (w : Word) :
    let x := ownerAccess s.hub s.q sp.toNat o.toNat w.toNat
    exec (.conditionalClear sp o w) s = .next { s with
      hub := x.h.cpSent s.hub.owner (x.h.respond x.q s.hub.owner 0 x.status x.cci []), q := x.q } := by
  intro x
  have clear : condClear s.hub s.q sp.toNat o.toNat w.toNat =
      (x.h.cpSent s.hub.owner (x.h.respond x.q s.hub.owner 0 x.status x.cci []), x.q) := if_pos (by simp [found, flag])
  exact (State.onQ_next live _).trans (by rw [clear])

/-- Settles O55: a flag is written by the access code of its register, and the CCI of each write joins its frame's. -/
theorem conditionalClears : Obligations.ConditionalClears := by
  refine ⟨fun h sp o w r wide found flag known noDram word => ?write, Hub.header_cci,
    fun x p a w _ _ _ goes owner head hwm bank => Xfer.write_direct_cci goes owner head hwm bank w,
    fun x p w goes through space => Xfer.write_window_cci goes through space w, fun s sp o w r live found flag quiet space => ?command⟩
  case write =>
    intro clears
    rw [Hub.busWrite_flag found flag known noDram word]
    refine ⟨fun set => ?_, Hub.writeFlag_ignored⟩
    have low : h.reg (spc sp o) % 16 % 65536 = h.reg (spc sp o) % 16 := by omega
    rw [Hub.writeFlag_clears set, Hub.reg_setReg_same, low, Nat.mod_mod]
    exact ⟨rfl, Nat.testBit_lt_two_pow (by omega), rfl⟩
  case command =>
    intro x
    obtain ⟨regs, cci, queue⟩ := ownerAccess_flag quiet (fun zero => space (BitVec.eq_of_toNat_eq zero)) found flag s.q w.toNat
    refine ⟨_, by rw [exec_conditionalClear live found flag, queue], (Hub.cpSent_regs _ _ _).trans regs, ?_⟩
    rw [Hub.cpSent, Hub.path_modPath, cci]
    exact ⟨_, _, rfl, Hub.header_cci ..⟩

end Sys2Proof.Machine
end

section
/-! PROOF. The event queue: what entries, releases and resets of the high-water mark make of it, through every access and command
that reaches it (O59, O60). -/

namespace Sys2Proof.Machine

/-! ### From queue to queue (R136, R138, R139) -/

/-- Where queue `q` is sound, so is `t`, and records that enter at the tail and releases from the head lead from `q` to `t`. -/
structure EvQueue.Advances (q t : EvQueue) : Prop where
  of_sound : q.Sound → t.Sound ∧ ∃ l n, q.Leads t l n

section
variable {q t u : EvQueue}

/-- Where the waiting records and both counts stand as they were, none entered and none was released. -/
theorem EvQueue.Leads.of_same (entries : t.entries = q.entries) (tail : t.tail = q.tail) (head : t.head = q.head) : q.Leads t [] 0 :=
  ⟨Nat.zero_le _, by simp [entries], by simp [tail], by simp [head]⟩

theorem EvQueue.Leads.trans {l m : List Waiting} {n k : Nat} (first : q.Leads t l n) (second : t.Leads u m k) :
    q.Leads u (l ++ m) (n + k) := by
  obtain ⟨within, entries, tail, head⟩ := first
  obtain ⟨within', entries', tail', head'⟩ := second
  have joined : t.entries ++ m = (q.entries ++ (l ++ m)).drop n := by
    rw [entries, ← List.append_assoc, List.drop_append_of_le_length within]
  rw [joined] at within' entries'
  refine ⟨?_, by rw [entries', List.drop_drop], ?_, ?_⟩
  · rw [List.length_drop] at within'
    rw [List.length_append] at within
    rw [List.length_append, List.length_append] at within' ⊢
    omega
  · rw [tail', tail, List.length_append, BitVec.ofNat_add, BitVec.add_assoc]
  · rw [head', head, BitVec.ofNat_add, BitVec.add_assoc]

theorem EvQueue.Advances.refl (q : EvQueue) : q.Advances q := ⟨fun sound => ⟨sound, [], 0, .of_same rfl rfl rfl⟩⟩

theorem EvQueue.Advances.of_eq (same : t = q) : q.Advances t := same ▸ .refl q

theorem EvQueue.Advances.trans (first : q.Advances t) (second : t.Advances u) : q.Advances u := ⟨fun sound =>
  have ⟨soundT, _, _, leads⟩ := first.of_sound sound
  have ⟨soundU, _, _, leads'⟩ := second.of_sound soundT
  ⟨soundU, _, _, leads.trans leads'⟩⟩

end

/-! ### What happens to the queue (R139, R143, R144, R147) -/

section
variable {q : EvQueue}

theorem EvQueue.push_advances (room : q.fill < 1024) (w : Waiting) : q.Advances (q.push w) := by
  refine ⟨fun ⟨_, counted, marked, full⟩ => ?_⟩
  have few : q.entries.length < 1024 := room
  have length : (q.push w).entries.length = q.entries.length + 1 := List.length_append
  have mark : (q.push w).hwm = max q.hwm (q.entries.length + 1) := rfl
  refine ⟨⟨by omega, ?_, by omega, fun opened => absurd (full opened) (by omega)⟩, [w], 0,
    Nat.zero_le _, rfl, rfl, (BitVec.add_zero _).symm⟩
  rw [length, BitVec.ofNat_add, ← counted]
  exact BitVec.sub_add_comm.symm

/-- A drop changes the episode only: the one that stands open afterwards counts it and names its source (R143, R145). -/
theorem EvQueue.lose_frame (q : EvQueue) (src now : Nat) : ∃ e, q.lose src now = { q with episode := some e } ∧
    src ∈ e.sources ∧ e.dropped = q.episode.elim 0 Episode.dropped + 1 := by
  unfold EvQueue.lose
  split
  · next first => exact ⟨_, rfl, List.mem_singleton_self src, by rw [first]; rfl⟩
  · next e opened =>
    refine ⟨_, rfl, ?_, by rw [opened]; rfl⟩
    split
    · next named => exact List.contains_iff_mem.1 named
    · exact List.mem_append_right _ (List.mem_singleton_self src)

theorem EvQueue.lose_advances (full : 1024 ≤ q.fill) (src now : Nat) : q.Advances (q.lose src now) := by
  refine ⟨fun sound => ?_⟩
  obtain ⟨e, lost, -⟩ := q.lose_frame src now
  rw [lost]
  exact ⟨⟨sound.bounded, sound.counted, sound.marked, fun _ => Nat.le_antisymm sound.bounded full⟩, [], 0, .of_same rfl rfl rfl⟩

/-- A record enters, or is dropped where 1,024 wait (R143). -/
theorem enterRecord_advances (h : Hub) (q : EvQueue) (r : EvRecord) : q.Advances (enterRecord h q r).2 := by
  unfold enterRecord
  split
  · next full => exact EvQueue.lose_advances full ..
  · next room => exact EvQueue.push_advances (Nat.lt_of_not_le room) _

theorem evEntry_advances (h : Hub) (q : EvQueue) (src : Nat) : q.Advances (evEntry h q src).2 := by
  unfold evEntry
  split
  · exact .refl q
  · exact enterRecord_advances ..

/-- The queue after a release of the first (w − head) mod 65,536 records, its episode closed (R139, R144). -/
def EvQueue.released (q : EvQueue) (w : Word) : EvQueue :=
  { q with entries := q.entries.drop (w - q.head).toNat, head := w, episode := none }

theorem EvQueue.released_advances {w : Word} (within : (w - q.head).toNat ≤ q.fill) : q.Advances (q.released w) := by
  refine ⟨fun ⟨bounded, counted, marked, _⟩ => ?_⟩
  have within : (w - q.head).toNat ≤ q.entries.length := within
  have length : (q.released w).entries.length = q.entries.length - (w - q.head).toNat := List.length_drop
  have mark : (q.released w).hwm = q.hwm := rfl
  refine ⟨⟨by omega, ?counted, by omega, fun opened => absurd rfl opened⟩, [], (w - q.head).toNat,
    by simpa using within, by simp [EvQueue.released], by simp [EvQueue.released], ?released⟩
  case counted =>
    rw [length]
    show q.tail - w = _
    bv_omega
  case released =>
    rw [BitVec.ofNat_toNat, BitVec.setWidth_eq]
    exact (add_sub_cancel q.head w).symm

/-- Closing an episode lets at most QUEUE_OVERFLOW_END enter the queue without it (R144). -/
theorem closeEpisode_advances (h : Hub) (q : EvQueue) : EvQueue.Advances { q with episode := none } (closeEpisode h q).2 := by
  unfold closeEpisode
  split
  · next closed => exact .of_eq (by rw [← closed])
  · dsimp only
    split
    · exact .refl _
    · split
      · exact .refl _
      · exact enterRecord_advances ..

theorem evRelease_advances (h : Hub) (q : EvQueue) (w : Nat) : q.Advances (evRelease h q w).2 := by
  unfold evRelease
  dsimp only
  split
  · next within =>
    split
    · next zero =>
      have present : BitVec.ofNat 16 w = q.head := by bv_omega
      exact .of_eq (by rw [zero, present]; rfl)
    · exact (EvQueue.released_advances within).trans (closeEpisode_advances h { q with entries := _, head := _ })
  · exact .refl q

theorem EvQueue.hwmReset_advances (q : EvQueue) : q.Advances q.hwmReset := ⟨fun sound =>
  ⟨⟨sound.bounded, sound.counted, ⟨Nat.le_refl _, sound.bounded⟩, sound.full⟩, [], 0, .of_same rfl rfl rfl⟩⟩

end

/-! ### The accesses of a frame (R95, R100, R112, R646) -/

section
variable (x : Xfer)

@[simp] theorem Xfer.settle_q (i : Nat) : (x.settle i).q = x.q := by
  obtain ⟨_, _, _, _, e⟩ := x.settle_frame i; rw [e]

@[simp] theorem Xfer.told_q (p : Nat) : (x.told p).q = x.q := by
  obtain ⟨_, e⟩ := x.told_frame p; rw [e]

@[simp] theorem Xfer.fails_q (cause off : Nat) : (x.fails cause off).q = x.q := Xfer.settle_q _ _

/-- A read has no side effect on the queue (R138). -/
theorem Xfer.spaceRead_q (p sp o : Nat) (c : Ecc) : (x.spaceRead p sp o c).q = x.q := by
  unfold Xfer.spaceRead
  split
  · exact x.fails_q 4 o
  · split
    · exact x.fails_q 1 o
    · exact Xfer.settle_q _ _

theorem Xfer.read_q (p a : Nat) (c : Ecc) : (x.read p a c).q = x.q := by
  unfold Xfer.read
  dsimp only
  split
  · rfl
  · split
    · exact x.spaceRead_q ..
    · rfl

theorem Xfer.apply_advances (p i sp o w : Nat) : x.q.Advances (x.apply p i sp o w).q := by
  by_cases owner : sp = 0 ∧ o = 0x09
  · rw [Xfer.apply, if_pos owner]
    exact .refl _
  by_cases mark : sp = 0 ∧ o = 0x1E
  · rw [Xfer.apply, if_neg owner, if_pos mark]
    exact x.q.hwmReset_advances
  · obtain ⟨_, _, _, _, e⟩ := x.apply_frame (sp := sp) (o := o) (by omega) p i w
    exact .of_eq (by rw [e])

theorem Xfer.put_advances (p sp o w : Nat) : x.q.Advances (x.put p sp o w).q := by
  cases now : actsNow sp o
  · rw [Xfer.put_late now]
    exact .refl _
  · rw [Xfer.put_now now]
    exact Xfer.apply_advances { x with idx := x.idx + 1 } p x.idx sp o w

/-- Accesses that each advance the queue advance it together. -/
theorem Xfer.foldl_advances {α : Type} {f : Xfer → α → Xfer} (turn : ∀ (x : Xfer) a, x.q.Advances (f x a).q) (l : List α) :
    x.q.Advances (l.foldl f x).q := by
  induction l generalizing x with
  | nil => exact .refl _
  | cons a l ih => exact (turn x a).trans (ih _)

theorem Xfer.complete_advances (p : Nat) : x.q.Advances (x.complete p).q :=
  have run := fun (x : Xfer) (w : Late) => x.apply_advances p w.idx w.sp w.off w.val
  (Xfer.foldl_advances { x with late := [] } run _).trans (Xfer.foldl_advances _ run _)

theorem Xfer.spaceWrite_advances (p sp o w : Nat) : x.q.Advances (x.spaceWrite p sp o w).q := by
  unfold Xfer.spaceWrite
  split
  · exact .of_eq (x.fails_q 4 o)
  · split
    · exact .of_eq (x.fails_q 1 o)
    · exact x.put_advances ..

theorem Xfer.write_advances (p a w : Nat) : x.q.Advances (x.write p a w).q := by
  unfold Xfer.write
  split
  · exact .refl _
  · split
    · exact x.spaceWrite_advances ..
    · split
      · exact .refl _
      · split
        · exact evRelease_advances ..
        · exact x.put_advances ..

theorem Xfer.skip_q (p a : Nat) : (x.skip p a).q = x.q := by
  unfold Xfer.skip
  dsimp only
  split
  · rfl
  · split
    · split
      · exact x.fails_q ..
      · rfl
    · rfl

theorem Xfer.writesAt_advances (p a : Nat) (ws : List Word) : x.q.Advances (x.writesAt p a ws).q := by
  unfold Xfer.writesAt
  split
  · have skipped := x.foldl_advances (f := fun x (_ : Word) => x.skip p a) (fun x _ => .of_eq (x.skip_q p a)) ws.dropLast
    dsimp only
    split
    · exact skipped.trans (Xfer.write_advances ..)
    · exact skipped
  · exact x.foldl_advances (fun x (w : Word) => x.write_advances p a w.toNat) ws

/-- A run of reads leaves the queue as it is. -/
theorem Xfer.reads_q (n : Nat) (p : Nat) (a : Nat → Nat) (c : Ecc) : (iter n (fun i (x : Xfer) => x.read p (a i) c) x).q = x.q :=
  iter_keeps (P := fun y : Xfer => y.q = x.q) (fun _ y same => (y.read_q ..).trans same) n rfl

end

/-! ### Frames, single accesses and records of the boot image (R95, R105, R598) -/

theorem frameRun_advances (h : Hub) (q : EvQueue) (p op a n : Nat) (ws : List Word) : q.Advances (frameRun h q p op a n ws).q := by
  unfold frameRun
  dsimp only
  rw [Xfer.told_q]
  refine .trans ?_ (Xfer.complete_advances _ p)
  generalize start : ({ h := _, q := q } : Xfer) = x
  have same : x.q = q := by rw [← start]
  rw [← same]
  split
  · exact .of_eq (x.reads_q n p (a + ·) .ok)
  · exact .of_eq (x.reads_q n p (fun _ => a) .ok)
  · exact x.foldl_advances (fun x (w : Word × Nat) => x.write_advances p (a + w.2) w.1.toNat) _
  · exact x.writesAt_advances p a ws

theorem replay_q (h : Hub) (q : EvQueue) (p tag : Nat) (w0 : Word) : (replay h q p tag w0).q = q := by
  unfold replay
  split
  · split <;> rfl
  · rfl

theorem frameExec_advances (h : Hub) (q : EvQueue) (p : Nat) (ws : List Word) : q.Advances (frameExec h q p ws).q := by
  unfold frameExec
  dsimp only
  split
  · exact .refl q
  · split
    · exact .of_eq (replay_q ..)
    · exact frameRun_advances ..

theorem frameJudge_advances (h : Hub) (q : EvQueue) (p : Nat) (ws : List Word) : q.Advances (frameJudge h q p ws).2.q := by
  by_cases passes : h.reqCheck p ws = 0
  · rw [frameJudge_executes passes]
    exact frameExec_advances h q p ws
  · rw [frameJudge_refuses passes]
    exact .refl q

theorem serialFrame_advances (h : Hub) (q : EvQueue) (short : Nat) (ws : List Word) : q.Advances (serialFrame h q short ws).2 := by
  unfold serialFrame
  split
  · exact .refl q
  · split
    · exact .refl q
    · split
      · exact .refl q
      · exact frameJudge_advances ..

theorem tunnelFrame_advances (h : Hub) (q : EvQueue) (ws : List Word) : q.Advances (tunnelFrame h q ws).2 := by
  unfold tunnelFrame
  split
  · exact .refl q
  · split
    · exact .refl q
    · dsimp only
      split
      · exact .refl q
      · exact frameJudge_advances ..

theorem frameRow_advances (h : Hub) (q : EvQueue) (path : Fin 2) (ws : List Word) : q.Advances (frameRow h q path ws).2 := by
  unfold frameRow
  split
  · exact serialFrame_advances ..
  · exact tunnelFrame_advances ..

theorem soleWrite_advances (h : Hub) (q : EvQueue) (p a w : Nat) (w0 : Word) : q.Advances (soleWrite h q p a w w0).2 := by
  unfold soleWrite
  dsimp only
  split
  · dsimp only
    rw [Xfer.told_q]
    exact (Xfer.write_advances { h := _, q := q } p a w).trans (Xfer.complete_advances _ p)
  · exact .refl q

theorem ownerAccess_advances (h : Hub) (q : EvQueue) (sp o w : Nat) : q.Advances (ownerAccess h q sp o w).q := by
  unfold ownerAccess
  dsimp only
  rw [Xfer.told_q]
  refine .trans ?_ (Xfer.complete_advances _ h.owner)
  split
  · split
    · exact Xfer.write_advances { h := h, q := q } ..
    · exact .refl q
  · exact Xfer.spaceWrite_advances { h := h, q := q } ..

theorem condClear_advances (h : Hub) (q : EvQueue) (sp o w : Nat) : q.Advances (condClear h q sp o w).2 := by
  unfold condClear
  split
  · exact ownerAccess_advances ..
  · exact .refl q

theorem bootComplete_advances (x : Xfer) (bank : Bool) : x.q.Advances (bootComplete x bank).q := by
  cases bank
  · exact x.complete_advances 2
  · exact (x.complete_advances 2).trans (.of_eq (Xfer.told_q _ 2))

theorem bootDirect_advances (h : Hub) (q : EvQueue) : q.Advances (bootDirect h q).2 := by
  unfold bootDirect
  split
  · exact .refl q
  · dsimp only
    split
    · exact .refl q
    · exact (Xfer.foldl_advances { h := _, q := q } (fun x (w : Nat × Nat) => x.write_advances _ _ _) _).trans
        (bootComplete_advances _ true)

theorem bootWindow_advances (h : Hub) (q : EvQueue) : q.Advances (bootWindow h q).2 := by
  unfold bootWindow
  split
  · exact .refl q
  · dsimp only
    split
    · exact .refl q
    · exact (Xfer.foldl_advances { h := _, q := q } (fun x (w : Nat × Nat) => x.spaceWrite_advances _ _ _ _) _).trans
        (bootComplete_advances _ false)

/-! ### Step 7 of the start-up (R591, R593) -/

/-- Each setting of the chime path is an access of the boot image that completes by itself. -/
theorem chimeSetup_advances (h : Hub) (q : EvQueue) : q.Advances (chimeSetup h q).2 := by
  unfold chimeSetup
  generalize chimeWrites _ = l
  refine Xfer.foldl_advances { h := h, q := q } (fun x w => ?_) _
  split
  · exact (x.write_advances _ _ _).trans (bootComplete_advances _ true)
  · exact (x.spaceWrite_advances _ _ _ _).trans (bootComplete_advances _ false)

theorem stepSeven_advances (h : Hub) (q : EvQueue) : q.Advances (stepSeven h q).2 := by
  unfold stepSeven
  split
  · exact .refl q
  · dsimp only
    exact chimeSetup_advances (h.toPhase 5) q

theorem nandMount_advances (h : Hub) (q : EvQueue) (a b : NandIn) : q.Advances (nandMount h q a b).2 := by
  unfold nandMount
  split
  · exact .refl q
  · exact stepSeven_advances ..

theorem mountFailed_advances (h : Hub) (q : EvQueue) (cause : Nat) : q.Advances (mountFailed h q cause).2 := by
  unfold mountFailed
  split
  · exact .refl q
  · exact stepSeven_advances ..

theorem amplifierLevel_advances (h : Hub) (q : EvQueue) : q.Advances (amplifierLevel h q).2 := by
  unfold amplifierLevel
  split
  · exact stepSeven_advances ..
  · exact .refl q

/-! ### Every command -/

/-- A command that may move records works on hub and queue while the fabric runs, and the queue advances. -/
theorem exec_of_movesQueue {c : Instr} (moves : movesQueue c = true) (s : State) :
    ∃ f : Hub → EvQueue → Hub × EvQueue, exec c s = s.onQ f ∧ ∀ h (q : EvQueue), q.Advances (f h q).2 := by
  cases c with
  | cpNop | cpRd | cpRdf | cpWr | cpWrf | cpRpl | cpInvalidOp => exact ⟨_, rfl, fun h q => frameRow_advances h q _ _⟩
  | frameTimeout | frameShort => exact ⟨_, rfl, fun h q => serialFrame_advances h q _ _⟩
  | ownerHandover | ownerClaim | windowWrite => exact ⟨_, rfl, fun h q => soleWrite_advances h q _ _ _ _⟩
  | conditionalClear => exact ⟨_, rfl, fun h q => condClear_advances h q _ _ _⟩
  | registerWrite => exact ⟨_, rfl, fun h q => ownerAccess_advances h q _ _ _⟩
  | eventEntry => exact ⟨_, rfl, fun h q => evEntry_advances h q _⟩
  | eventRelease => exact ⟨_, rfl, fun h q => evRelease_advances h q _⟩
  | hwmReset => exact ⟨_, rfl, fun _ q => q.hwmReset_advances⟩
  | nandMount => exact ⟨_, rfl, fun h q => nandMount_advances h q _ _⟩
  | mountFailed => exact ⟨_, rfl, fun h q => mountFailed_advances h q _⟩
  | amplifierLevel => exact ⟨_, rfl, amplifierLevel_advances⟩
  | bootDirect => exact ⟨_, rfl, bootDirect_advances⟩
  | bootWindow => exact ⟨_, rfl, bootWindow_advances⟩
  | _ => exact absurd moves Bool.false_ne_true

theorem powerOn_queue (h : Hub) (q : EvQueue) (ms : Nat) (xl : Option (Byte × Byte)) :
    (powerOn h q ms xl).2 = q ∨ ∃ now, (powerOn h q ms xl).2 = .start now := by
  unfold powerOn
  split
  · exact .inr ⟨_, fabricStart_queue ..⟩
  · exact .inl rfl

theorem systemReset_queue (h : Hub) (q : EvQueue) (xl : Option (Byte × Byte)) :
    (systemReset h q xl).2 = q ∨ ∃ now, (systemReset h q xl).2 = .start now := by
  unfold systemReset
  split
  · exact .inl rfl
  · exact .inr ⟨_, fabricStart_queue ..⟩

theorem logicStop_queue (h : Hub) (q : EvQueue) (cut : RoastBad) :
    (logicStop h q cut).2 = q ∨ ∃ now, (logicStop h q cut).2 = .start now := by
  unfold logicStop
  split
  · exact .inr ⟨_, rfl⟩
  · exact .inl rfl

section
variable {c : Instr} {s t : State} (next : exec c s = .next t)
include next

/-- A command that neither moves records nor restarts the queue leaves it as it is. -/
theorem exec_keepsQueue (moves : movesQueue c = false) (restarts : restartsQueue c = false) : t.q = s.q := by
  obtain ⟨h, e⟩ | ⟨either, -⟩ | ⟨-, ⟨h, e⟩ | ⟨restart, -⟩⟩ := exec_forms c s
  · cases e.symm.trans next; rfl
  · simp [moves, restarts] at either
  · cases e.symm.trans next; rfl
  · simp [restarts] at restart

theorem exec_advances (restarts : restartsQueue c = false) : s.q.Advances t.q := by
  cases moves : movesQueue c
  · exact .of_eq (exec_keepsQueue next moves restarts)
  obtain ⟨f, e, advances⟩ := exec_of_movesQueue moves s
  cases live : s.live
  · cases (e.trans (State.onQ_dead live f)).symm.trans next
    exact .refl _
  · cases (e.trans (State.onQ_next live f)).symm.trans next
    exact advances s.hub s.q

/-- A command that starts the queue afresh or ends it does so, or leaves the queue as it is (R132, R603). -/
theorem exec_restarts (restarts : restartsQueue c = true) : t.q = s.q ∨ ∃ now, t.q = .start now := by
  cases c with
  | fabricStart =>
    cases next
    exact powerOn_queue ..
  | systemReset =>
    cases live : s.live
    · cases (State.onQ_dead live fun h q => systemReset h q _).symm.trans next
      exact .inl rfl
    · cases (exec_systemReset live _).symm.trans next
      exact systemReset_queue ..
  | logicStop =>
    cases next
    exact logicStop_queue ..
  | _ => exact absurd restarts Bool.false_ne_true

theorem exec_keeps_sound (sound : s.Sound) : t.Sound := by
  cases restarts : restartsQueue c
  · exact ((exec_advances next restarts).of_sound sound).1
  · show t.q.Sound
    obtain same | ⟨now, start⟩ := exec_restarts next restarts
    · rw [same]; exact sound
    · rw [start]; exact EvQueue.start_sound now

end

/-- Settles O59: a step is its front command, which advances a sound queue or starts it. -/
theorem everyStepKeepsTheQueueSound : Obligations.EveryStepKeepsTheQueueSound := fun s t sound next => by
  unfold step at next
  split at next
  · cases next; exact sound
  · exact exec_keeps_sound next sound

/-- Settles O60: from a sound queue every command but the restarts advances. -/
theorem theEventQueueIsFirstInFirstOut : Obligations.TheEventQueueIsFirstInFirstOut := fun _ _ _ sound restarts next =>
  ⟨((exec_advances next restarts).of_sound sound).2, fun moves => exec_keepsQueue next moves restarts⟩

end Sys2Proof.Machine
end

section
/-! PROOF. Events: records that are issued, enter the queue and are released, and the windows of rate limits (O56). -/

namespace Sys2Proof.Machine

/-! ### Entry (R135, R136, R143) -/

/-- A record lost is pending for its source; of the event sources nothing else changes. -/
theorem Hub.evLost_ev (h : Hub) (src : Nat) : (h.evLost src).ev =
    { h.ev with pendLoss := tput (fun _ => 0) h.ev.pendLoss src (tget (fun _ => 0) h.ev.pendLoss src + 1) } := by
  simp only [Hub.evLost, Hub.addSat_ev]

/-- The oldest issued record of a source is the one that enters. -/
theorem evEntry_next {h : Hub} {src : Nat} {r : EvRecord} {rest : List EvRecord}
    (oldest : takeFirst src h.ev.inflight = some (r, rest)) (q : EvQueue) :
    evEntry h q src = enterRecord { h with ev := { h.ev with inflight := rest } } q r := by
  rw [evEntry, Hub.nextRecord, oldest]
  rfl

section
variable {q : EvQueue}

theorem enterRecord_room (room : q.fill < 1024) (h : Hub) (r : EvRecord) : enterRecord h q r =
    ({ h with ev := { h.ev with pendLoss := tput (fun _ => 0) h.ev.pendLoss r.src.toNat 0 } }, q.push (h.stamped r)) :=
  if_neg (Nat.not_le_of_lt room)

theorem enterRecord_full (full : 1024 ≤ q.fill) (h : Hub) (r : EvRecord) :
    enterRecord h q r = ((h.evLost r.src.toNat).setFlag 0x1F, q.lose r.src.toNat h.refMs) := if_pos full

/-! ### Release (R139, R144) -/

theorem closeEpisode_none (closed : q.episode = none) (h : Hub) : closeEpisode h q = (h, q) := by rw [closeEpisode, closed]

/-- An episode closes with QUEUE_OVERFLOW_END, issued by source 240, which enters before any other record (R144). -/
theorem closeEpisode_some {h : Hub} (opened : q.episode ≠ none) (unmasked : bit (h.reg (evCfg 240)) 2 = false) :
    ∃ (g : Hub) (r : EvRecord), closeEpisode h q = enterRecord g { q with episode := none } r ∧ r.src = 240 ∧ r.code = 1 := by
  obtain ⟨e, opened⟩ := Option.ne_none_iff_exists'.1 opened
  have issued := h.issue_ev 1 (min 0xFFFF e.dropped) e.sources.length (min 0xFFFF (h.refMs - e.start)) unmasked
  rw [closeEpisode, opened]
  dsimp only
  rw [issued, EvSources.take, if_neg (by simp), List.getLast?_concat]
  exact ⟨_, _, rfl, rfl, rfl⟩

section
variable {w : Word}

/-- A write of the present head releases nothing. -/
theorem evRelease_present (zero : (w - q.head).toNat = 0) (h : Hub) : evRelease h q w.toNat = (h, { q with head := w }) := by
  rw [evRelease, BitVec.ofNat_toNat, BitVec.setWidth_eq, zero]
  rfl

theorem evRelease_releases (least : 1 ≤ (w - q.head).toNat) (within : (w - q.head).toNat ≤ q.entries.length) (h : Hub) :
    evRelease h q w.toNat = closeEpisode h { q with entries := q.entries.drop (w - q.head).toNat, head := w } := by
  rw [evRelease, BitVec.ofNat_toNat, BitVec.setWidth_eq]
  exact (if_pos within).trans (if_neg (by omega))

theorem evRelease_beyond (beyond : q.entries.length < (w - q.head).toNat) (h : Hub) :
    evRelease h q w.toNat = (h.setFlag (spc 0x02 0x2600), q) := by
  rw [evRelease, BitVec.ofNat_toNat, BitVec.setWidth_eq]
  exact if_neg (Nat.not_le_of_lt beyond)

/-- A release from a queue with an open episode: QUEUE_OVERFLOW_END enters behind the records that stay. -/
theorem evRelease_ends {h : Hub} (least : 1 ≤ (w - q.head).toNat) (within : (w - q.head).toNat ≤ q.entries.length)
    (bounded : q.entries.length ≤ 1024) (opened : q.episode ≠ none) (unmasked : bit (h.reg (evCfg 240)) 2 = false) :
    ∃ (g : Hub) (x : Waiting), evRelease h q w.toNat = (g, { q with
      entries := q.entries.drop (w - q.head).toNat ++ [x], head := w, tail := q.tail + 1, episode := none,
      hwm := max q.hwm (q.entries.length - (w - q.head).toNat + 1) }) ∧ x.record.src = 240 ∧ x.record.code = 1 := by
  obtain ⟨g, r, ends, src, code⟩ :=
    closeEpisode_some (q := { q with entries := q.entries.drop (w - q.head).toNat, head := w }) opened unmasked
  have left : (q.released w).fill = q.entries.length - (w - q.head).toNat := List.length_drop
  have enters := enterRecord_room (q := q.released w) (by omega) g r
  rw [evRelease_releases least within, ← left]
  exact ⟨_, _, ends.trans enters, src, code⟩

end
end

/-! ### Rate limits (R142) -/

theorem Hub.openWindow_is (h : Hub) (sub src code : Nat) : (h.openWindow sub src code).is sub src code = true := by
  unfold Hub.openWindow
  split <;> simp [RateWindow.is]

section
variable {h : Hub} {src : Nat} (unmasked : bit (h.reg (evCfg src)) 2 = false)
include unmasked

/-- While its window is open an event is not issued. -/
theorem Hub.issueLimited_suppressed {sub code : Nat} (opened : h.windowOpen sub src code = true) (d0 d1 d2 : Nat) :
    (h.issueLimited sub src code d0 d1 d2).ev = h.ev := by
  obtain ⟨cp, e⟩ := h.noteRefusal_frame src code
  rw [Hub.issueLimited, if_neg (by simp [unmasked]), if_pos opened, Hub.addSat_ev, e]

/-- Otherwise it is issued, and opens a window. -/
theorem Hub.issueLimited_issued {sub code : Nat} (closed : h.windowOpen sub src code = false) (d0 d1 d2 : Nat) :
    ∃ w : RateWindow, w.is sub src code = true ∧ (h.issueLimited sub src code d0 d1 d2).ev =
      { h.ev.take src (h.recordOf src code d0 d1 d2) with windows := h.ev.windows ++ [w] } := by
  refine ⟨_, (h.issue src code d0 d1 d2).openWindow_is sub src code, ?_⟩
  rw [Hub.issueLimited, if_neg (by simp [unmasked]), if_neg (by simp [closed])]
  dsimp only
  rw [h.issue_ev code d0 d1 d2 unmasked]
  rfl

end

/-- A window of a domain ends with 1,000 ticks, of which a millisecond of reference time counts 48, or 50 for FABRIC_STALL. -/
theorem Hub.windowOver_ticks (h : Hub) {w : RateWindow} {d : Nat} (dom : w.dom = some d) :
    h.windowOver w = true ↔ 1000 ≤ w.ticks + (if w.src = 242 then 50 else 48) * w.ms := by
  rw [Hub.windowOver, dom]
  exact decide_eq_true_iff

/-! ### The obligation -/

section
variable {s : State} (live : s.live = true)
include live

theorem exec_eventEntry (src : Byte) : exec (.eventEntry src) s =
    .next { s with hub := (evEntry s.hub s.q src.toNat).1, q := (evEntry s.hub s.q src.toNat).2 } := State.onQ_next live _

theorem exec_eventRelease (w : Word) : exec (.eventRelease w) s =
    .next { s with hub := (evRelease s.hub s.q w.toNat).1, q := (evRelease s.hub s.q w.toNat).2 } := State.onQ_next live _

theorem exec_attentionEvaluation : exec .attentionEvaluation s = .next (s.withHub
    ({ s.hub with refMs := s.hub.refMs + 1, ev := s.hub.ev.countMs fun d => (s.hub.dom d).run } : Hub).ptpMs.sentAll) :=
  State.onHub_next live fun h => ({ h with refMs := h.refMs + 1, ev := h.ev.countMs fun d => (h.dom d).run } : Hub).ptpMs.sentAll

theorem exec_hwmReset : exec .hwmReset s = .next { s with q := s.q.hwmReset } := State.onQ_next live _

theorem exec_rateLimitWindowEnd (src : Byte) (code : Word) (sub : Nat) :
    exec (.rateLimitWindowEnd src code sub) s = .next (s.withHub (s.hub.endWindow sub src.toNat code.toNat)) :=
  State.onHub_next live fun h => h.endWindow sub src.toNat code.toNat

end

/-- Settles O56, from what issue, entry, release and the end of a window do. -/
theorem eventCommandsAnswer : Obligations.EventCommandsAnswer := by
  refine ⟨fun h src code d0 d1 d2 _ => ⟨h.issue_masked code d0 d1 d2, fun unmasked => ?issue⟩,
    fun s src r rest live oldest named => ⟨fun room => ?enters, fun full => ?dropped⟩,
    fun s w live => ⟨fun zero => ?present, fun least within closed => ?releases, fun least within bounded opened unmasked => ?ends,
      fun beyond => ?refused⟩,
    fun s live => ⟨exec_attentionEvaluation live, exec_hwmReset live⟩,
    fun s src code sub live => exec_rateLimitWindowEnd live src code sub,
    fun h sub src code w _ unmasked => ⟨fun closed => ?opens, fun opened => Hub.issueLimited_suppressed unmasked opened w 0 0⟩,
    fun h w => ⟨fun d dom other => ?ticks, fun d dom stall => ?stall⟩⟩
  case issue =>
    rw [h.issue_ev code d0 d1 d2 unmasked]
    exact ⟨tget_tput_same .., _, rfl, rfl, rfl, rfl, rfl, rfl, rfl, rfl⟩
  case enters =>
    rw [exec_eventEntry live, evEntry_next oldest, enterRecord_room room, Hub.stamped, named]
    rfl
  case dropped =>
    rw [exec_eventEntry live, evEntry_next oldest, enterRecord_full full, named]
    obtain ⟨e, lost, source, count⟩ := s.q.lose_frame src.toNat s.hub.refMs
    have sources := Hub.evLost_ev { s.hub with ev := { s.hub.ev with inflight := rest } } src.toNat
    refine ⟨_, _, rfl, ?_, ?_, Hub.flag_setFlag _ _, ?_⟩
    · rw [Hub.setFlag, Hub.setReg_ev, sources]
    · rw [Hub.setFlag, Hub.setReg_ev, sources, tget_tput_same]
    · dsimp only
      rw [lost]
      refine ⟨rfl, rfl, rfl, e, rfl, source, ?_⟩
      rw [count]
      cases s.q.episode <;> rfl
  case present => rw [exec_eventRelease live, evRelease_present zero]
  case releases =>
    rw [exec_eventRelease live, evRelease_releases least within, closeEpisode_none (q := { s.q with entries := _, head := w }) closed]
  case ends =>
    obtain ⟨g, x, released, src, code⟩ := evRelease_ends least within bounded opened unmasked
    exact ⟨g, x, by rw [exec_eventRelease live, released], src, code⟩
  case refused => rw [exec_eventRelease live, evRelease_beyond beyond]
  case opens =>
    obtain ⟨x, own, sources⟩ := Hub.issueLimited_issued unmasked closed w 0 0
    rw [Hub.windowOpen, sources]
    simp [EvSources.take, own]
  case ticks => rw [h.windowOver_ticks dom, if_neg other]
  case stall => rw [h.windowOver_ticks dom, if_pos stall]

end Sys2Proof.Machine
end

section
/-! PROOF. Memories: a word stored is the word read, and every memory keeps its canonical form (O38). -/

namespace Sys2Proof.Machine

/-! ### A word of X or Y memory stored (R150, R167) -/

@[simp] theorem Engine.poke_prog (e : Engine) (mem a w : Nat) : (e.poke mem a w).prog = e.prog := by unfold Engine.poke; split <;> rfl
@[simp] theorem Engine.poke_shadow (e : Engine) (mem a w : Nat) : (e.poke mem a w).shadow = e.shadow := by unfold Engine.poke; split <;> rfl
@[simp] theorem Engine.poke_fore (e : Engine) (mem a w : Nat) : (e.poke mem a w).fore = e.fore := by unfold Engine.poke; split <;> rfl
@[simp] theorem Engine.poke_park (e : Engine) (mem a w : Nat) : (e.poke mem a w).park = e.park := by unfold Engine.poke; split <;> rfl
@[simp] theorem Engine.poke_inRun (e : Engine) (mem a w : Nat) : (e.poke mem a w).inRun = e.inRun := by unfold Engine.poke; split <;> rfl
@[simp] theorem Engine.poke_outWin (e : Engine) (mem a w : Nat) : (e.poke mem a w).outWin = e.outWin := by unfold Engine.poke; split <;> rfl

theorem Engine.poke_ue (e : Engine) (mem a w : Nat) : (e.poke mem a w).ue = e.ue.filter fun p => p != (mem + 1, a) := by
  unfold Engine.poke; split <;> rfl

@[simp] theorem Engine.parkedStore_poke (e : Engine) (mem a w mem' b : Nat) : (e.poke mem a w).parkedStore mem' b = e.parkedStore mem' b := by
  rw [Engine.parkedStore, Engine.poke_park, ← Engine.parkedStore]

/-- The table of X (0) or Y (1) memory. -/
def Engine.mem (e : Engine) (mem : Nat) : Tbl Word := if mem = 0 then e.x else e.y

/-- What a load finds in a word of a memory for which no store is parked (R150, R167, R291). -/
def Engine.cell (e : Engine) (mem a : Nat) : RVal :=
  if e.ue.contains (mem + 1, a) then voidZero
  else if mem = 0 ∧ e.xVoid.contains a then voidZero
  else rv (tget (fun _ => (0 : Word)) (e.mem mem) a).toNat

theorem Engine.load_inMem (e : Engine) {mem a : Nat} (within : inMem mem a = true) (two : mem < 2) (plain : e.parkedStore mem a = none) :
    e.load mem a = e.cell mem a := by
  have x : ¬ (mem = 0 ∧ 0x8000 ≤ a) := by rintro ⟨rfl, high⟩; simp [inMem] at within; omega
  have y : ¬ (mem = 1 ∧ 0x4000 ≤ a) := by rintro ⟨rfl, high⟩; simp [inMem] at within; omega
  rw [Engine.load, if_neg x, if_neg y, plain]
  rfl

/-- A word after a store: the word stored where it is that word, which is then neither in error nor void. -/
theorem Engine.cell_poke (e : Engine) {mem mem' : Nat} (two : mem < 2) (two' : mem' < 2) (a w b : Nat) :
    (e.poke mem a w).cell mem' b = if (mem', b) = (mem, a) then rv (w % 65536) else e.cell mem' b := by
  rw [Engine.cell, Engine.poke_ue]
  by_cases same : (mem', b) = (mem, a)
  · obtain ⟨rfl, rfl⟩ := Prod.mk.inj same
    interval_cases mem' <;> simp [Engine.poke, Engine.mem]
  · rw [if_neg same, Engine.cell]
    interval_cases mem <;> interval_cases mem' <;> simp at same <;> simp [Engine.poke, Engine.mem, tget_tput_other, same]

/-- A load from outside the memories reads a window, which no store to a memory changes. -/
theorem Engine.load_poke_window (e : Engine) {mem' b : Nat} (beyond : inMem mem' b = false) (two : mem' < 2) (mem a w : Nat) :
    (e.poke mem a w).load mem' b = e.load mem' b := by
  interval_cases mem'
  · have high : 0x8000 ≤ b := by simpa [inMem] using beyond
    simp [Engine.load, high]
  · have high : 0x4000 ≤ b := by simpa [inMem] using beyond
    simp [Engine.load, high]

/-- Of two loads of a word for which a store is parked, both find the data of that store. -/
theorem Engine.load_parked {e : Engine} {mem a : Nat} {p : ParkEntry} (within : inMem mem a = true) (two : mem < 2)
    (parked : e.parkedStore mem a = some p) : e.load mem a = if p.val.void then voidZero else p.val := by
  interval_cases mem
  · have low : ¬ 0x8000 ≤ a := by simpa [inMem] using within
    simp [Engine.load, low, parked]
  · have low : ¬ 0x4000 ≤ a := by simpa [inMem] using within
    simp [Engine.load, low, parked]

/-- A store changes no load of another word. -/
theorem Engine.load_poke_other (e : Engine) {mem mem' a b : Nat} (two : mem < 2) (two' : mem' < 2) (other : (mem', b) ≠ (mem, a)) (w : Nat) :
    (e.poke mem a w).load mem' b = e.load mem' b := by
  cases within : inMem mem' b with
  | false => exact e.load_poke_window within two' mem a w
  | true =>
    cases parked : e.parkedStore mem' b with
    | none => rw [Engine.load_inMem _ within two' (by simp [parked]), Engine.load_inMem _ within two' parked, Engine.cell_poke e two two', if_neg other]
    | some p => rw [Engine.load_parked within two' parked, Engine.load_parked within two' (by rw [Engine.parkedStore_poke, parked])]

/-- A word stored is what a load finds, unless a store to it is parked. -/
theorem Engine.load_poke_same (e : Engine) {mem a : Nat} (two : mem < 2) (within : inMem mem a = true) (plain : e.parkedStore mem a = none)
    (w : Nat) : (e.poke mem a w).load mem a = rv (w % 65536) := by
  rw [Engine.load_inMem _ within two (by simp [plain]), Engine.cell_poke e two two, if_pos rfl]

/-! ### DRAM (R296, R297) -/

theorem Hub.dramWord_putDram (h : Hub) (a w b : Nat) : (h.putDram a w).dramWord b = if b = a then w % 65536 else h.dramWord b := by
  rw [Hub.dramWord, Hub.putDram, tget_tput]
  split
  · exact BitVec.toNat_ofNat ..
  · rfl

/-! ### The canonical form -/

/-- What each turn of a loop keeps, the loop keeps. -/
theorem foldl_keeps {α β : Type} {P : β → Prop} {f : β → α → β} (turn : ∀ b a, P b → P (f b a)) (l : List α) {b : β} (hb : P b) :
    P (l.foldl f b) := List.foldlRecOn l f hb fun b hb a _ => turn b a hb

/-- The words of DRAM stand in canonical form. -/
def Hub.DramForm (h : Hub) : Prop := twf (fun _ => (0 : Word)) h.dram

theorem Hub.DramForm.putDram {h : Hub} (form : h.DramForm) (a w : Nat) : (h.putDram a w).DramForm := twf_tput _ _ _ _ form

theorem Hub.DramForm.writeDram {h : Hub} (form : h.DramForm) (a : Nat) (ws : List Word) : (h.writeDram a ws).DramForm := by
  unfold Hub.writeDram
  refine foldl_keeps (fun h p hp => hp.putDram _ _) _ ?_
  exact foldl_keeps (P := Hub.DramForm) (fun h u hu => foldl_keeps (fun h j hj => hj.putDram _ _) _ hu) _ form

theorem Engine.poke_form {e : Engine} (x : twf (fun _ => 0) e.x) (y : twf (fun _ => 0) e.y) (mem a w : Nat) :
    twf (fun _ => 0) (e.poke mem a w).x ∧ twf (fun _ => 0) (e.poke mem a w).y := by
  unfold Engine.poke
  split
  · exact ⟨twf_tput _ _ _ _ x, y⟩
  · exact ⟨x, twf_tput _ _ _ _ y⟩

theorem twf_nil {α : Type} (d : Nat → α) : twf d [] := ⟨List.Pairwise.nil, fun _ mem => absurd mem List.not_mem_nil⟩

/-- Settles O38: what a load finds after a store, and the form that every write keeps. -/
theorem memoryKeepsItsForm : Obligations.MemoryKeepsItsForm :=
  ⟨fun e _ _ w two within plain => e.load_poke_same two within plain w,
    fun e _ _ w _ _ two two' _ other => e.load_poke_other two two' other w,
    fun e mem a w => ⟨e.poke_prog mem a w, e.poke_shadow mem a w, e.poke_fore mem a w, e.poke_park mem a w⟩,
    Hub.dramWord_putDram,
    ⟨twf_nil _, twf_nil _, twf_nil _, twf_nil _, twf_nil _⟩,
    fun _ _ _ form => twf_tput _ _ _ _ form,
    fun _ a ws form => Hub.DramForm.writeDram form a ws,
    fun _ mem a w x y => Engine.poke_form x y mem a w,
    fun _ _ _ form => twf_tput _ _ _ _ form⟩

end Sys2Proof.Machine
end

section
/-! PROOF. What reports and stopped calibration leave of the engines: everything. -/

namespace Sys2Proof.Machine

/-- `g` is `h` but for registers, event sources, the counts of the control port and calibration. -/
def Hub.Reported (h g : Hub) : Prop := ∃ regs ev cp cal, g = { h with regs := regs, ev := ev, cp := cp, cal := cal }

namespace Hub.Reported
variable {h g k : Hub}

theorem refl (h : Hub) : h.Reported h := ⟨h.regs, h.ev, h.cp, h.cal, rfl⟩

theorem trans (first : h.Reported g) (second : g.Reported k) : h.Reported k := by
  obtain ⟨_, _, _, _, rfl⟩ := first
  obtain ⟨regs, ev, cp, cal, rfl⟩ := second
  exact ⟨regs, ev, cp, cal, rfl⟩

theorem engs (r : h.Reported g) : g.engs = h.engs := by obtain ⟨_, _, _, _, rfl⟩ := r; rfl
theorem sub (r : h.Reported g) : g.sub = h.sub := by obtain ⟨_, _, _, _, rfl⟩ := r; rfl
theorem engine (r : h.Reported g) (n : Nat) : g.engine n = h.engine n := by obtain ⟨_, _, _, _, rfl⟩ := r; rfl

theorem setReg (r : h.Reported g) (j n : Nat) : h.Reported (g.setReg j n) := r.trans ⟨_, g.ev, g.cp, g.cal, rfl⟩

theorem addSat (r : h.Reported g) (j m n : Nat) : h.Reported (g.addSat j m n) := by
  obtain ⟨regs, e⟩ := g.setRegN_frame j m (satN (65536 ^ m - 1) (g.regN j m + n))
  exact r.trans ⟨regs, g.ev, g.cp, g.cal, e⟩

theorem addWrap (r : h.Reported g) (j m n : Nat) : h.Reported (g.addWrap j m n) := by
  obtain ⟨regs, e⟩ := g.setRegN_frame j m ((g.regN j m + n) % 65536 ^ m)
  exact r.trans ⟨regs, g.ev, g.cp, g.cal, e⟩

theorem setFlag (r : h.Reported g) (j : Nat) : h.Reported (g.setFlag j) := r.setReg _ _

theorem modCal (r : h.Reported g) (f : Cal → Cal) : h.Reported (g.modCal f) := r.trans ⟨g.regs, g.ev, g.cp, _, rfl⟩

theorem noteRefusal (r : h.Reported g) (src code : Nat) : h.Reported (g.noteRefusal src code) := by
  obtain ⟨cp, e⟩ := g.noteRefusal_frame src code
  exact r.trans ⟨g.regs, g.ev, cp, g.cal, e⟩

theorem issue (r : h.Reported g) (src code d0 d1 d2 : Nat) : h.Reported (g.issue src code d0 d1 d2) := by
  obtain ⟨ev, cp, e⟩ := g.issue_frame src code d0 d1 d2
  exact r.trans ⟨g.regs, ev, cp, g.cal, e⟩

theorem issueLimited (r : h.Reported g) (sub src code d0 d1 d2 : Nat) : h.Reported (g.issueLimited sub src code d0 d1 d2) := by
  unfold Hub.issueLimited
  split
  · exact r.noteRefusal src code
  · split
    · exact (r.noteRefusal src code).addSat _ _ _
    · exact (r.issue src code d0 d1 d2).trans ⟨_, _, _, _, rfl⟩

theorem noteFail (r : h.Reported g) (path : Nat) : h.Reported (g.noteFail path) := by
  obtain ⟨cp, e⟩ := g.noteFail_frame path
  exact r.trans ⟨g.regs, g.ev, cp, g.cal, e⟩

theorem pilotStop (r : h.Reported g) (cause ms : Nat) : h.Reported (g.pilotStop cause ms) := by
  unfold Hub.pilotStop
  split
  · split
    · exact r
    · exact r.modCal _
  · exact r

theorem forceDone (r : h.Reported g) (reason : Nat) : h.Reported (g.forceDone reason) := by
  unfold Hub.forceDone
  split
  · exact (r.modCal _).issue _ _ _ _ _
  · exact r

theorem calFail (r : h.Reported g) (w : CalWin) (reason : Nat) : h.Reported (g.calFail w reason) := by
  have told := (((r.setReg (kReason w) reason).addSat (kCal (0x780 + 2 * reason)) 2 1).setFlag (kCal 0x800)).issueLimited
  unfold Hub.calFail
  dsimp only
  split
  · exact (told ..).forceDone _
  · exact told ..

/-- What each turn of a loop only reports, the loop only reports. -/
theorem foldl {α : Type} {f : Hub → α → Hub} (r : h.Reported g) (turn : ∀ (k : Hub) a, k.Reported (f k a)) (l : List α) : h.Reported (l.foldl f g) :=
  List.foldlRecOn l f r fun k hk a _ => hk.trans (turn k a)

theorem calStop (r : h.Reported g) (cause : Nat) : h.Reported (g.calStop cause) := by
  unfold Hub.calStop
  split
  · exact r
  · have failed := ((r.modCal fun c => { c with wins := [], work := [] }).pilotStop 3 20).foldl (fun (k : Hub) w => (refl k).calFail w 9)
      (g.cal.wins ++ g.cal.work)
    exact ((((failed.forceDone 9).modCal _).setReg _ _).setFlag _).issue _ _ _ _ _

theorem calLost (r : h.Reported g) (n : Nat) : h.Reported (g.calLost n) := by
  unfold Hub.calLost
  split
  · exact r
  · have stopped := (r.modCal fun c =>
      { c with wins := c.wins.map fun w => { w with reason := w.reason.orElse fun _ => some 9 },
               work := c.work.map fun w => { w with reason := w.reason.orElse fun _ => some 9 } }).pilotStop 3 20
    dsimp only
    split
    · split
      · exact stopped
      · exact stopped.forceDone 9
    · exact stopped

end Hub.Reported

end Sys2Proof.Machine
end

section
/-! PROOF. SE_CTL, SE_BGCMD, SE_FAILREQ and SE_EVSET, the events of undefined code (O15), ENABLE_REFUSED (O16) and the declaration
of a failing engine (O19). -/

namespace Sys2Proof.Machine

/-! ### Words of SE_CTL (R157) -/

theorem bits_single (n i : Nat) : bits n i i = b2n (bit n i) := by
  simp only [bits, bit, b2n, Nat.testBit_eq_decide_div_mod_eq, Nat.sub_self, Nat.zero_add, pow_one, decide_eq_true_eq]
  split <;> omega

theorem b2n_injective : Function.Injective b2n := by decide

theorem flagAt_bit (n i : Nat) : flagAt (bit n i) i = 2 ^ i * bits n i i := by
  rw [bits_single]; cases bit n i <;> simp [flagAt, b2n]

/-- SE_CTL with only its defined fields. -/
def ctlWord (spen bgen dom ecc : Nat) : Nat := 32768 * spen + 16384 * bgen + 256 * dom + ecc

theorem bit_ctlWord_bgen (spen w d e : Nat) : bit (ctlWord spen (bits w 14 14) (bits d 9 8) (bits e 0 0)) 14 = bit w 14 := by
  have dom := bits_lt d 9 8
  have ecc := bits_lt e 0 0
  have one := bits_lt w 14 14
  apply b2n_injective
  rw [← bits_single, ← bits_single]
  generalize bits w 14 14 = b at *
  generalize bits d 9 8 = x at *
  generalize bits e 0 0 = y at *
  simp only [ctlWord, bits]
  omega

/-- SE_CTL takes a word: the restore image follows, and with BGEN 0 a hold and a wait of background code end (R164, R257). -/
def Hub.ctlTakes (h : Hub) (n word : Nat) : Hub :=
  (((h.setReg (kSe n 0x100) word).imageReg n 0x40100).modEng n fun e =>
    if bit word 14 then { e with bgen := true } else { e.dropHold true with bgen := false, fore := { (e.dropHold true).fore with wait := 0 } }).kickBg n

/-- Where a write of SE_CTL finds SPEN and DOM: in the word written, or in the old one where the change is refused. -/
def Hub.ctlJudged (h : Hub) (n w : Nat) : Hub × Nat :=
  if (bits w 15 15, bits w 9 8) = (bits (h.reg (kSe n 0x100)) 15 15, bits (h.reg (kSe n 0x100)) 9 8) then (h, h.reg (kSe n 0x100))
  else match h.enableCause n (bits w 15 15) (bits w 9 8) with
    | none => (h, w)
    | some (c, i) => (h.issue n 0x202 c i w, h.reg (kSe n 0x100))

theorem Hub.reserved_congr {h g : Hub} (e : g.regs = h.regs) (n : Nat) : g.reserved n = h.reserved n := by
  simp only [Hub.reserved, Hub.fld, Hub.reg_congr e]

theorem Hub.ctlJudged_regs (h : Hub) (n w : Nat) : (h.ctlJudged n w).1.regs = h.regs := by
  unfold Hub.ctlJudged
  split
  · rfl
  · split
    · rfl
    · exact h.issue_regs ..

theorem Hub.ctlWrite_judged {h : Hub} {n : Nat} (free : h.reserved n = false) (w : Nat) : h.ctlWrite n w =
    (h.ctlJudged n w).1.ctlTakes n
      (ctlWord (bits (h.ctlJudged n w).2 15 15) (bits w 14 14) (bits (h.ctlJudged n w).2 9 8) (bits w 0 0)) := by
  have kept : ¬ (h.ctlJudged n w).1.reserved n = true := by rw [Hub.reserved_congr (h.ctlJudged_regs n w), free]; decide
  refine (if_neg kept).trans ?_
  dsimp only
  rw [flagAt_bit, flagAt_bit, Hub.ctlTakes, bit_ctlWord_bgen]
  rfl

/-- A write that leaves SPEN and DOM, or whose change is accepted, takes every field. -/
theorem Hub.ctlWrite_takes {h : Hub} {n w : Nat} (free : h.reserved n = false)
    (ok : (bits w 15 15 = bits (h.reg (kSe n 0x100)) 15 15 ∧ bits w 9 8 = bits (h.reg (kSe n 0x100)) 9 8) ∨
      h.enableCause n (bits w 15 15) (bits w 9 8) = none) :
    h.ctlWrite n w = h.ctlTakes n (ctlWord (bits w 15 15) (bits w 14 14) (bits w 9 8) (bits w 0 0)) := by
  rw [Hub.ctlWrite_judged free, Hub.ctlJudged]
  by_cases same : bits w 15 15 = bits (h.reg (kSe n 0x100)) 15 15 ∧ bits w 9 8 = bits (h.reg (kSe n 0x100)) 9 8
  · obtain ⟨spen, dom⟩ := same
    rw [if_pos (by rw [spen, dom]), spen, dom]
  · rw [if_neg (fun e => same (Prod.mk.inj e)), ok.resolve_left same]

/-- A refused write leaves SPEN and DOM and takes the other fields (R157). -/
theorem Hub.ctlWrite_refused {h : Hub} {n w c i : Nat} (free : h.reserved n = false)
    (changed : ¬ (bits w 15 15 = bits (h.reg (kSe n 0x100)) 15 15 ∧ bits w 9 8 = bits (h.reg (kSe n 0x100)) 9 8))
    (cause : h.enableCause n (bits w 15 15) (bits w 9 8) = some (c, i)) :
    h.ctlWrite n w = (h.issue n 0x202 c i w).ctlTakes n
      (ctlWord (bits (h.reg (kSe n 0x100)) 15 15) (bits w 14 14) (bits (h.reg (kSe n 0x100)) 9 8) (bits w 0 0)) := by
  have judged : h.ctlJudged n w = (h.issue n 0x202 c i w, h.reg (kSe n 0x100)) := by
    rw [Hub.ctlJudged, if_neg (fun e => changed (Prod.mk.inj e)), cause]
  rw [Hub.ctlWrite_judged free, judged]

theorem Hub.ctlHost_free {h : Hub} {n : Nat} (own : h.calHolds n = false) (w : Nat) : h.ctlHost n w = h.ctlWrite n w :=
  if_neg (by simp [own])

/-! ### Fields of the words that the commands write -/

section fields
variable (w v : Nat)

theorem bits_putSpen : bits (putBits w 15 15 v) 15 15 = v % 2 ∧ bits (putBits w 15 15 v) 14 14 = bits w 14 14 ∧
    bits (putBits w 15 15 v) 9 8 = bits w 9 8 ∧ bits (putBits w 15 15 v) 0 0 = bits w 0 0 :=
  ⟨bits_putBits (by decide) w v, bits_putBits_apart (by decide) (.inl (by decide)) (by decide) w v,
    bits_putBits_apart (by decide) (.inl (by decide)) (by decide) w v, bits_putBits_apart (by decide) (.inl (by decide)) (by decide) w v⟩

theorem bits_putDom : bits (putBits w 9 8 v) 15 15 = bits w 15 15 ∧ bits (putBits w 9 8 v) 14 14 = bits w 14 14 ∧
    bits (putBits w 9 8 v) 9 8 = v % 4 ∧ bits (putBits w 9 8 v) 0 0 = bits w 0 0 :=
  ⟨bits_putBits_apart (by decide) (.inr (by decide)) (by decide) w v, bits_putBits_apart (by decide) (.inr (by decide)) (by decide) w v,
    bits_putBits (by decide) w v, bits_putBits_apart (by decide) (.inl (by decide)) (by decide) w v⟩

theorem bits_putBgen : bits (putBits w 14 14 v) 15 15 = bits w 15 15 ∧ bits (putBits w 14 14 v) 14 14 = v % 2 ∧
    bits (putBits w 14 14 v) 9 8 = bits w 9 8 ∧ bits (putBits w 14 14 v) 0 0 = bits w 0 0 :=
  ⟨bits_putBits_apart (by decide) (.inr (by decide)) (by decide) w v, bits_putBits (by decide) w v,
    bits_putBits_apart (by decide) (.inl (by decide)) (by decide) w v, bits_putBits_apart (by decide) (.inl (by decide)) (by decide) w v⟩

end fields

/-! ### The commands -/

section runs
variable {s : State} (live : s.live = true) (n : Fin 16)
include live

theorem exec_sampleProgramEnable (w : Word) :
    exec (.sampleProgramEnable n w) s = .next (s.wrote (s.hub.ctlHost n (putBits w.toNat 15 15 1))) :=
  State.onWrite_next live fun h => h.ctlHost n (putBits w.toNat 15 15 1)
theorem exec_sampleProgramDisable :
    exec (.sampleProgramDisable n) s = .next (s.wrote (s.hub.ctlWrite n (putBits (s.hub.reg (kSe n 0x100)) 15 15 0))) :=
  State.onWrite_next live fun h => h.ctlWrite n (putBits (h.reg (kSe n 0x100)) 15 15 0)
theorem exec_engineDomainChange (d : Fin 4) :
    exec (.engineDomainChange n d) s = .next (s.wrote (s.hub.ctlWrite n (putBits (s.hub.reg (kSe n 0x100)) 9 8 d))) :=
  State.onWrite_next live fun h => h.ctlWrite n (putBits (h.reg (kSe n 0x100)) 9 8 d)
theorem exec_backgroundEnable :
    exec (.backgroundEnable n) s = .next (s.wrote (s.hub.ctlHost n (putBits (s.hub.reg (kSe n 0x100)) 14 14 1))) :=
  State.onWrite_next live fun h => h.ctlHost n (putBits (h.reg (kSe n 0x100)) 14 14 1)
theorem exec_backgroundDisable :
    exec (.backgroundDisable n) s = .next (s.wrote (s.hub.ctlWrite n (putBits (s.hub.reg (kSe n 0x100)) 14 14 0))) :=
  State.onWrite_next live fun h => h.ctlWrite n (putBits (h.reg (kSe n 0x100)) 14 14 0)
theorem exec_backgroundRestart (free : s.hub.reserved n = false) (cmd : Word) :
    exec (.backgroundRestart n cmd) s = .next (s.wrote (s.hub.bgCmd n cmd.toNat)) :=
  State.onWrite_seWrite live free fun h => h.bgCmd n cmd.toNat
theorem exec_engineFailRequest (key : Word) : exec (.engineFailRequest n key) s = .next (s.wrote (s.hub.failRequest n key.toNat)) :=
  State.onWrite_next live fun h => h.failRequest n key.toNat
theorem exec_eventLineSet (free : s.hub.reserved n = false) (set : Word) :
    exec (.eventLineSet n set) s = .next (s.wrote ((s.hub.modEng n fun e =>
      { e with shadow := { e.shadow with latch := e.shadow.latch ||| set }, fore := { e.fore with latch := e.fore.latch ||| set } }).kick n)) :=
  State.onWrite_seWrite live free _

end runs

/-! ### Undefined code (R165, R166) -/

/-- An ECC finding changes of an engine its marks only. -/
theorem Hub.engine_engEcc (h : Hub) (n mem a : Nat) (c : Ecc) (sample : Bool) :
    ∃ ue, (h.engEcc n mem a c sample).engine n = { h.engine n with ue := ue } := by
  cases c with
  | ok => exact ⟨_, rfl⟩
  | corrected s => exact ⟨_, ((((Hub.Reported.refl h).addSat (kSe n 0x114) 2 1).setFlag (kSe n 0x110)).issueLimited 0 n 0x205 mem a s.toNat).engine n⟩
  | uncorrectable =>
    let g := h.modEng n fun e => if e.ue.contains (mem, a) then e else { e with ue := e.ue ++ [(mem, a)] }
    have told := (((Hub.Reported.refl g).addSat (kSe n 0x116) 2 1).setFlag (kSe n 0x110)).issueLimited (65536 * mem + a) n 0x206 mem a (b2n sample)
    have marked : ∃ ue, g.engine n = { h.engine n with ue := ue } := by
      rw [Hub.engine_modEng_same]
      split
      · exact ⟨_, rfl⟩
      · exact ⟨_, rfl⟩
    obtain ⟨ue, e⟩ := marked
    exact ⟨ue, (told.engine n).trans e⟩

/-- Background code halts at its PC, which a finding leaves (R165, R167). -/
theorem Hub.bgHalt_engEcc (h : Hub) (n a cause : Nat) (c : Ecc) : (h.engEcc n 0 a c false).bgHalt n cause =
    (((h.engEcc n 0 a c false).modEng n fun e =>
      ({ e with halt := cause, fore := { e.fore with held := [], wait := 0, rep := none, hold := false } } : Engine).flush).seFlag n 0x111).issue
        n 0x204 cause (h.engine n).fore.pc 0 := by
  obtain ⟨ue, e⟩ := h.engine_engEcc n 0 a c false
  have pc : ((h.engEcc n 0 a c false).engine n).fore.pc = (h.engine n).fore.pc := by rw [e]
  rw [← pc]
  rfl

section halts
variable {s : State} (live : s.live = true) {n : Fin 16} (runs : s.hub.bgRuns n = true) (first : (s.hub.engine n).fore.held = [])
include live runs first

theorem exec_bgHalt_bad {fetch : Ecc} (bad : (0, (s.hub.engine n).fore.pc) ∈ (s.hub.engine n).ue ∨ fetch = .uncorrectable) :
    exec (.bgHalt n fetch) s =
      .next (s.withHub ((s.hub.engEcc n 0 (s.hub.engine n).fore.pc .uncorrectable false).bgHalt n 2)) := by
  have found : (if (s.hub.engine n).ue.contains (0, (s.hub.engine n).fore.pc) then Ecc.uncorrectable else fetch) = .uncorrectable := by
    rcases bad with marked | rfl
    · exact if_pos (by simpa using marked)
    · exact ite_self _
  change execBgHalt n fetch s = _
  rw [execBgHalt, State.onHub_next live]
  refine congrArg (fun h => Host.Outcome.next (s.withHub h)) ?_
  dsimp only
  rw [if_neg (by simp [runs, first]), found, if_pos rfl]

theorem exec_bgHalt_undefined {fetch : Ecc} (good : ¬ ((0, (s.hub.engine n).fore.pc) ∈ (s.hub.engine n).ue ∨ fetch = .uncorrectable))
    (undefined : ∀ i, decodeSlot n true ((s.hub.engine n).progWord (s.hub.engine n).fore.pc)
      ((s.hub.engine n).progWord ((s.hub.engine n).fore.pc + 1)) = some i → (s.hub.engine n).fore.undefinedOp i = true) :
    exec (.bgHalt n fetch) s = .next (s.withHub ((s.hub.engEcc n 0 (s.hub.engine n).fore.pc fetch false).bgHalt n 1)) := by
  obtain ⟨unmarked, correctable⟩ := not_or.1 good
  have found : (if (s.hub.engine n).ue.contains (0, (s.hub.engine n).fore.pc) then Ecc.uncorrectable else fetch) = fetch :=
    if_neg (by simpa using unmarked)
  change execBgHalt n fetch s = _
  rw [execBgHalt, State.onHub_next live]
  refine congrArg (fun h => Host.Outcome.next (s.withHub h)) ?_
  dsimp only
  rw [if_neg (by simp [runs, first]), found, if_neg correctable]
  cases word : decodeSlot n true ((s.hub.engine n).progWord (s.hub.engine n).fore.pc) ((s.hub.engine n).progWord ((s.hub.engine n).fore.pc + 1)) with
  | none => exact if_pos rfl
  | some i => exact if_pos (undefined i word)

end halts

theorem exec_illegalBundle {s : State} (live : s.live = true) {n : Fin 16} (issues : s.hub.issues n = true)
    (undefined : (s.hub.engine n).undefinedBundle n = true) {fetch : List Ecc}
    (good : ((s.hub.engine n).wordsFound ((s.hub.engine n).bundleWords (s.hub.engine n).shadow.pc) fetch).all (fun p => p.2 == .ok) = true) :
    exec (.illegalBundle n fetch) s = .next (s.withHub ((s.hub.modBank n false fun b => { b with bundle := [] }).illegal n
      ((s.hub.engine n).bundleWords (s.hub.engine n).shadow.pc))) := by
  refine (State.onHub_next live _).trans (congrArg (fun h => Host.Outcome.next (s.withHub h)) ?_)
  dsimp only
  rw [if_pos (by rw [issues, undefined]; rfl), Hub.fetched_good _ _ good]
  rfl

theorem Hub.failRequest_key {h : Hub} {n : Nat} (free : h.reserved n = false) : h.failRequest n 0xFA = (h.declare n 3).kickSample n true :=
  if_neg (by simp [free])

/-- Settles O15, command by command. -/
theorem engineControlAnswers : Obligations.EngineControlAnswers := by
  intro s n live free old ctl takes
  refine ⟨fun w own accepted => ?enable, fun accepted => ?disable, fun d accepted => ?domain, fun own => ?bgEnable, ?bgDisable,
    fun idle => ?restart, fun fetch runs first => ?halt, fun fetch issues undefined => ?illegal, fun normal => ?fail, fun set => ?lines⟩
  case enable =>
    obtain ⟨spen, bgen, dom, ecc⟩ := bits_putSpen w.toNat 1
    rw [exec_sampleProgramEnable live, Hub.ctlHost_free own, Hub.ctlWrite_takes free (.inr (by rw [spen, dom, accepted])), spen, bgen, dom, ecc]
    rfl
  case disable =>
    obtain ⟨spen, bgen, dom, ecc⟩ := bits_putSpen old 0
    rw [exec_sampleProgramDisable live, Hub.ctlWrite_takes free (.inr (by rw [spen, dom, accepted])), spen, bgen, dom, ecc]
    rfl
  case domain =>
    obtain ⟨spen, bgen, dom, ecc⟩ := bits_putDom old d
    rw [Nat.mod_eq_of_lt d.isLt] at dom
    rw [exec_engineDomainChange live, Hub.ctlWrite_takes free (.inr (by rw [spen, dom, accepted])), spen, bgen, dom, ecc]
    rfl
  case bgEnable =>
    obtain ⟨spen, bgen, dom, ecc⟩ := bits_putBgen old 1
    rw [exec_backgroundEnable live, Hub.ctlHost_free own, Hub.ctlWrite_takes free (.inl ⟨spen, dom⟩), spen, bgen, dom, ecc]
    rfl
  case bgDisable =>
    obtain ⟨spen, bgen, dom, ecc⟩ := bits_putBgen old 0
    rw [exec_backgroundDisable live, Hub.ctlWrite_takes free (.inl ⟨spen, dom⟩), spen, bgen, dom, ecc]
    rfl
  case restart =>
    have ready : ((1 : Word).toNat = 1 ∧ (¬ (s.hub.engine n).bgen = true ∨ (s.hub.engine n).halt ≠ 0)) := ⟨rfl, by simpa using idle⟩
    have starts : s.hub.bgCmd n (1 : Word).toNat = s.hub.bgStart n := if_pos ready
    rw [exec_backgroundRestart live n free, starts]
  case halt =>
    refine ⟨fun bad => ?_, fun good undefined => ?_⟩
    · rw [exec_bgHalt_bad live runs first bad, Hub.bgHalt_engEcc]
    · rw [exec_bgHalt_undefined live runs first good undefined, Hub.bgHalt_engEcc]
  case illegal => exact fun good => exec_illegalBundle live issues undefined good
  case fail =>
    exact (exec_engineFailRequest live n 0x00FA).trans (congrArg (fun h => Host.Outcome.next (s.wrote h)) (Hub.failRequest_key free))
  case lines => exact exec_eventLineSet live n free set

end Sys2Proof.Machine
end

section
/-! PROOF. ENABLE_REFUSED: the causes in the order of their numbers, and what a refused write takes (O16). -/

namespace Sys2Proof.Machine

/-! ### The first number that satisfies a test -/

theorem firstBelow_eq_some {n i : Nat} {p : Nat → Bool} : firstBelow n p = some i ↔ i < n ∧ p i = true ∧ ∀ j < i, p j = false := by
  rw [firstBelow, List.find?_range_eq_some, List.mem_range]
  simp only [Bool.not_eq_true']
  tauto

theorem firstBelow_eq_none {n : Nat} {p : Nat → Bool} : firstBelow n p = none ↔ ∀ i < n, p i = false := by
  rw [firstBelow, List.find?_range_eq_none]
  simp only [Bool.not_eq_true']

/-! ### The map entries (R157 causes 5 and 6) -/

/-- Does the map of engine `n` fail in domain `d` at an input, or at an output. -/
def Hub.inputBad (h : Hub) (n d : Nat) : Prop := ∃ i : Fin 32, bit (h.eff (kSe n (0x200 + i))) 15 = true ∧
  ¬ (h.slotV (bits (h.eff (kSe n (0x200 + i))) 8 0) = true ∧ h.slotDom (bits (h.eff (kSe n (0x200 + i))) 8 0) = d)
def Hub.outputBad (h : Hub) (n : Nat) : Prop := ∃ o : Fin 32, bit (h.eff (kSe n (0x220 + o))) 15 = true ∧
  h.slotIs (bits (h.eff (kSe n (0x220 + o))) 8 0) 0 (32 * n + o) = false

/-- The first entry of the map that fails (R157). -/
def Hub.badEntry (h : Hub) (n d : Nat) : Option Nat := firstBelow 64 fun i => (h.mapCause n d i (h.eff (kMap n i))).isSome

theorem Hub.mapCause_input (h : Hub) (n d w : Nat) {i : Nat} (input : i < 32) : (h.mapCause n d i w).isSome = true ↔
    bit w 15 = true ∧ ¬ (h.slotV (bits w 8 0) = true ∧ h.slotDom (bits w 8 0) = d) := by
  by_cases enabled : bit w 15 = true
  · by_cases good : h.slotV (bits w 8 0) = true ∧ h.slotDom (bits w 8 0) = d <;> simp [Hub.mapCause, enabled, input, good]
  · simp [Hub.mapCause, enabled]

theorem Hub.mapCause_output (h : Hub) (n d w : Nat) {i : Nat} (output : ¬ i < 32) : (h.mapCause n d i w).isSome = true ↔
    bit w 15 = true ∧ h.slotIs (bits w 8 0) 0 (32 * n + (i - 32)) = false := by
  by_cases enabled : bit w 15 = true
  · cases own : h.slotIs (bits w 8 0) 0 (32 * n + (i - 32)) <;> simp [Hub.mapCause, enabled, output, own]
  · simp [Hub.mapCause, enabled]

/-- The first failing entry is an input where some input fails, else an output where some output fails. -/
theorem Hub.badEntry_code (h : Hub) (n d : Nat) [Decidable (h.inputBad n d)] [Decidable (h.outputBad n)] :
    ((h.badEntry n d).map fun i => if i < 32 then 5 else 6) =
      if h.inputBad n d then some 5 else if h.outputBad n then some 6 else none := by
  have input : ∀ i : Nat, i < 32 → ((h.mapCause n d i (h.eff (kMap n i))).isSome = true) → h.inputBad n d := fun i small bad =>
    ⟨⟨i, small⟩, (h.mapCause_input n d _ small).1 bad⟩
  have output : ∀ i : Nat, 32 ≤ i → i < 64 → ((h.mapCause n d i (h.eff (kMap n i))).isSome = true) → h.outputBad n := fun i least most bad => by
    have entry : kMap n i = kSe n (0x220 + (i - 32)) := by rw [kMap]; congr 1; omega
    rw [entry, h.mapCause_output n d _ (by omega)] at bad
    exact ⟨⟨i - 32, by omega⟩, bad⟩
  cases first : h.badEntry n d with
  | some i =>
    obtain ⟨small, bad, least⟩ := firstBelow_eq_some.1 first
    by_cases low : i < 32
    · simp [low, input i low bad]
    · have inputsGood : ¬ h.inputBad n d := fun ⟨j, failing⟩ =>
        Bool.false_ne_true ((least j (by omega)).symm.trans ((h.mapCause_input n d _ j.isLt).2 failing))
      simp [low, inputsGood, output i (by omega) small bad]
  | none =>
    have good := firstBelow_eq_none.1 first
    have inputsGood : ¬ h.inputBad n d := fun ⟨j, failing⟩ =>
      Bool.false_ne_true ((good j (by omega)).symm.trans ((h.mapCause_input n d _ j.isLt).2 failing))
    have outputsGood : ¬ h.outputBad n := fun ⟨o, failing⟩ => by
      have entry : kMap n (32 + o) = kSe n (0x220 + o) := by rw [kMap]; congr 1; omega
      refine Bool.false_ne_true ((good (32 + o) (by omega)).symm.trans ((h.mapCause_output n d _ (by omega)).2 ?_))
      rw [entry, Nat.add_sub_cancel_left]
      exact failing
    simp [inputsGood, outputsGood]

/-! ### The causes (R157, R169) -/

/-- The cause of a refusal by the order of R157's cases, for an engine that is not reserved. -/
theorem Hub.enableCause_code {h : Hub} {n : Nat} (free : h.reserved n = false) (spen dom : Nat) [Decidable (h.inputBad n dom)]
    [Decidable (h.outputBad n)] : (h.enableCause n spen dom).map Prod.fst =
      if spen = 1 ∧ (h.reg (kSe n 1) = 0 ∨ tickBudget (h.dom dom).rate < h.reg (kSe n 1)) then some 1
      else if (h.engine n).st ≠ .normal ∨ h.hasPe n = false then some 2
      else if spen = 1 ∧ (h.dom dom).en = false then some 3
      else if dom ≠ h.domOf n ∧ (h.engine n).run.spen = true then some 4
      else if h.inputBad n dom then some 5 else if h.outputBad n then some 6 else none := by
  have entries : (match h.badEntry n dom with
      | some i => some (if i < 32 then 5 else 6, i)
      | none => none).map Prod.fst = (h.badEntry n dom).map fun i => if i < 32 then 5 else 6 := by
    cases h.badEntry n dom <;> rfl
  rw [← h.badEntry_code n dom, ← entries, Hub.enableCause, if_neg (by simp [free])]
  simp only [apply_ite (Option.map Prod.fst), Bool.not_eq_true]
  rfl

section runs
variable {s : State} (live : s.live = true) {n : Fin 16} (free : s.hub.reserved n = false) (own : s.hub.calHolds n = false)
include live free own

/-- A refused SAMPLE_PROGRAM_ENABLE leaves SPEN and DOM, and the other fields take effect (R157). -/
theorem exec_sampleProgramEnable_refused {w : Word} {c i : Nat}
    (changed : bit (s.hub.reg (kSe n 0x100)) 15 = false ∨ bits w.toNat 9 8 ≠ s.hub.fld (kSe n 0x100) 9 8)
    (cause : s.hub.enableCause n 1 (bits w.toNat 9 8) = some (c, i)) :
    exec (.sampleProgramEnable n w) s = .next (s.wrote ((s.hub.issue n 0x202 c i (putBits w.toNat 15 15 1)).ctlTakes n
      (ctlWord (bits (s.hub.reg (kSe n 0x100)) 15 15) (bits w.toNat 14 14) (bits (s.hub.reg (kSe n 0x100)) 9 8) (bits w.toNat 0 0)))) := by
  obtain ⟨spen, bgen, dom, ecc⟩ := bits_putSpen w.toNat 1
  have moved : ¬ (bits (putBits w.toNat 15 15 1) 15 15 = bits (s.hub.reg (kSe n 0x100)) 15 15 ∧
      bits (putBits w.toNat 15 15 1) 9 8 = bits (s.hub.reg (kSe n 0x100)) 9 8) := by
    rw [spen, dom]
    rintro ⟨on, stays⟩
    rcases changed with off | moved
    · rw [bits_single, off] at on; exact absurd on (by decide)
    · exact moved stays
  rw [exec_sampleProgramEnable live, Hub.ctlHost_free own, Hub.ctlWrite_refused free moved (by rw [spen, dom, cause]), bgen, ecc]

end runs

/-- Settles O16: a refused enable, then the causes in their order. -/
theorem engineEnableRefusals : Obligations.EngineEnableRefusals := by
  refine ⟨fun s n w c i live free own changed cause => ?refused, fun h n spen dom => ?causes⟩
  case refused =>
    rw [exec_sampleProgramEnable_refused live free own changed cause, Hub.ctlTakes, bit_ctlWord_bgen]
    rfl
  case causes =>
    intro bad1 bad2 bad3 bad4 bad5 bad6 code
    classical
    have one : spen.val = 1 ↔ spen = 1 := by rw [Fin.ext_iff]; rfl
    refine ⟨fun reserved => by simp [code, Hub.enableCause, reserved], fun free => ?_⟩
    have order : code = if bad1 then some 1 else if bad2 then some 2 else if bad3 then some 3 else if bad4 then some 4
        else if bad5 then some 5 else if bad6 then some 6 else none := by
      refine (Hub.enableCause_code free spen dom).trans ?_
      exact if_congr (and_congr_left' one) rfl (if_congr Iff.rfl rfl (if_congr (and_congr_left' one) rfl
        (if_congr Iff.rfl rfl (if_congr Iff.rfl rfl (if_congr Iff.rfl rfl rfl)))))
    refine ⟨fun b1 => ?_, fun g1 b2 => ?_, fun g1 g2 b3 => ?_, fun g1 g2 g3 b4 => ?_, fun g1 g2 g3 g4 b5 => ?_,
      fun g1 g2 g3 g4 g5 b6 => ?_, fun g1 g2 g3 g4 g5 g6 => ?_⟩
    · rw [order, if_pos b1]
    · rw [order, if_neg g1, if_pos b2]
    · rw [order, if_neg g1, if_neg g2, if_pos b3]
    · rw [order, if_neg g1, if_neg g2, if_neg g3, if_pos b4]
    · rw [order, if_neg g1, if_neg g2, if_neg g3, if_neg g4, if_pos b5]
    · rw [order, if_neg g1, if_neg g2, if_neg g3, if_neg g4, if_neg g5, if_pos b6]
    · rw [order, if_neg g1, if_neg g2, if_neg g3, if_neg g4, if_neg g5, if_neg g6]

end Sys2Proof.Machine
end

section
/-! PROOF. SE_FAILREQ declares an engine failing (O19). -/

namespace Sys2Proof.Machine

theorem Hub.engine_congr {h g : Hub} (e : g.engs = h.engs) (n : Nat) : g.engine n = h.engine n := by rw [Hub.engine, e, Hub.engine]

@[simp] theorem Hub.engine_issue (h : Hub) (src code d0 d1 d2 n : Nat) : (h.issue src code d0 d1 d2).engine n = h.engine n :=
  Hub.engine_congr (h.issue_engs src code d0 d1 d2) n

/-- Of the engines a refused commit changes its own only, which then holds no commit. -/
theorem Hub.engine_refuseCommit (h : Hub) (n cause : Nat) (w : Word) (m : Nat) : (h.refuseCommit n cause w).engine m =
    if m = n then { h.engine n with commit := none, bound := false } else h.engine m := by
  rw [Hub.refuseCommit, Hub.engine_issue, Hub.modEng, Hub.engine_setEng]

/-- The engine after its declaration (R170). -/
structure Engine.Declared (old e : Engine) (cause : Nat) : Prop where
  st : e.st = .failing
  run : e.run = { old.run with failCause := cause, discard := true }
  commit : e.commit = none
  shadow : e.shadow = old.shadow

/-- A normal engine is declared failing behind those that wait; no other engine changes (R170, R609). -/
theorem Hub.declare_normal {h : Hub} {n : Nat} (normal : (h.engine n).st = .normal) (cause : Nat) :
    (h.engine n).Declared ((h.declare n cause).engine n) cause ∧ (h.declare n cause).sub.waiting = h.sub.waiting ++ [n] ∧
      ∀ m, m ≠ n → (h.declare n cause).engine m = h.engine m := by
  have goes : ¬ (h.engine n).st ≠ .normal := not_not.2 normal
  rw [Hub.declare, if_neg goes]
  dsimp only
  generalize marked : h.modEng n (fun e => { e with st := .failing, run := { e.run with failCause := cause, discard := true } }) = g
  have own : g.engine n = { h.engine n with st := .failing, run := { (h.engine n).run with failCause := cause, discard := true } } := by
    rw [← marked, Hub.engine_modEng_same]
  have others : ∀ m, m ≠ n → g.engine m = h.engine m := fun m other => by rw [← marked, Hub.engine_modEng_other _ _ other]
  have sub : g.sub = h.sub := by rw [← marked]; rfl
  have told := (Hub.Reported.refl g).issue n 0x207 cause (g.tickLo (g.domOf n)) (b2n g.spareEntry.isSome)
  generalize g.issue n 0x207 cause (g.tickLo (g.domOf n)) (b2n g.spareEntry.isSome) = k at told
  cases commit : (h.engine n).commit with
  | none =>
    have lost := (Hub.Reported.refl { k with sub := { k.sub with waiting := k.sub.waiting ++ [n] } }).calLost n
    refine ⟨?_, ?_, fun m other => ?_⟩
    · have same := (lost.engine n).trans (told.engine n)
      rw [own] at same
      exact ⟨by rw [same], by rw [same], by rw [same, commit], by rw [same]⟩
    · rw [lost.sub, told.sub, sub]
    · exact (lost.engine m).trans ((told.engine m).trans (others m other))
  | some w =>
    dsimp only
    have refused := k.engine_refuseCommit n 5 w
    have sub' : (k.refuseCommit n 5 w).sub = k.sub := k.modEng n _ |>.issue_sub ..
    generalize k.refuseCommit n 5 w = r at *
    have lost := (Hub.Reported.refl { r with sub := { r.sub with waiting := r.sub.waiting ++ [n] } }).calLost n
    refine ⟨?_, ?_, fun m other => ?_⟩
    · have same := (lost.engine n).trans (refused n)
      rw [if_pos rfl, told.engine, own] at same
      exact ⟨by rw [same], by rw [same], by rw [same], by rw [same]⟩
    · rw [lost.sub, sub', told.sub, sub]
    · have same := (lost.engine m).trans (refused m)
      rw [if_neg other, told.engine] at same
      exact same.trans (others m other)

/-- An engine that fails already is not declared again. -/
theorem Hub.declare_failing {h : Hub} {n : Nat} (failing : (h.engine n).st ≠ .normal) (cause : Nat) : h.declare n cause = h := if_pos failing

theorem Hub.kickSample_free {h : Hub} {n : Nat} (free : (h.engine n).shadow.held = []) (forced : Bool) : h.kickSample n forced = h :=
  if_pos (by rw [free]; rfl)

theorem Hub.noteFail_clear {h : Hub} (clear : h.cp.fail = none) (path : Nat) : h.noteFail path = h := by rw [Hub.noteFail, clear]

/-- A write that changes nothing and does not fail completes with no effect. -/
theorem State.wrote_same {s : State} (clear : s.hub.cp.fail = none) : s.wrote s.hub = s := by rw [State.wrote, Hub.noteFail_clear clear]

/-- A key other than 0x00FA requests nothing (R170). -/
theorem Hub.failRequest_other {key : Word} (other : key ≠ 0x00FA) (h : Hub) (n : Nat) : h.failRequest n key.toNat = h := by
  have unequal : key.toNat ≠ 0xFA := fun e => other (BitVec.eq_of_toNat_eq e)
  change (if h.reserved n = true then h else if key.toNat = 0xFA then h.fail n 3 else h) = h
  rw [if_neg unequal, ite_self]

/-- A request for an engine that fails already, without a held bundle, changes nothing (R170). -/
theorem Hub.failRequest_failing {h : Hub} {n : Nat} (failing : (h.engine n).st ≠ .normal) (free : (h.engine n).shadow.held = []) (w : Nat) :
    h.failRequest n w = h := by
  have fails : h.fail n 3 = h := by rw [Hub.fail, Hub.declare_failing failing, Hub.kickSample_free free]
  change (if h.reserved n = true then h else if w = 0xFA then h.fail n 3 else h) = h
  rw [fails, ite_self, ite_self]

/-- Settles O19: the declaration, another key, and a second request. -/
theorem failingEngineIsDeclared : Obligations.FailingEngineIsDeclared := by
  refine ⟨fun s n live free normal unheld => ?declared, fun s n key live other clear => ?other, fun s n live failing unheld clear => ?again⟩
  case declared =>
    obtain ⟨own, waiting, others⟩ := Hub.declare_normal normal 3
    have request : s.hub.failRequest n (0x00FA : Word).toNat = s.hub.declare n 3 :=
      (Hub.failRequest_key free).trans (Hub.kickSample_free (by rw [own.shadow, unheld]) true)
    have noted := (Hub.Reported.refl (s.hub.declare n 3)).noteFail s.hub.owner
    refine ⟨_, exec_engineFailRequest live n 0x00FA, ?_⟩
    rw [request, noted.engine, noted.sub, own.st, own.run, own.commit]
    exact ⟨rfl, rfl, rfl, waiting, fun m other => (noted.engine m).trans (others m fun e => other (Fin.ext e))⟩
  case other => rw [exec_engineFailRequest live, Hub.failRequest_other other, State.wrote_same clear]
  case again => rw [exec_engineFailRequest live, Hub.failRequest_failing failing unheld, State.wrote_same clear]

end Sys2Proof.Machine
end

section
/-! PROOF. The accelerator cluster and the XL header: what an opcode is answered, and how jobs and transfers end (O33, O34). -/

namespace Sys2Proof.Machine

/-! ### The tag of a new job (R205) -/

/-- Of the numbers below `m`, fewer than `m` tags leave one free, counted on from any `t`. -/
theorem exists_free_tag (q : List Job) {m : Nat} (few : q.length < m) (t : Nat) :
    ∃ i < q.length + 1, ∀ j ∈ q, j.tag ≠ (t + i) % m := by
  by_contra taken
  push Not at taken
  have sub : (Finset.range (q.length + 1)).image (fun i => (t + i) % m) ⊆ (q.map Job.tag).toFinset := by
    intro x mem
    obtain ⟨i, small, rfl⟩ := Finset.mem_image.1 mem
    obtain ⟨j, mem, tag⟩ := taken i (Finset.mem_range.1 small)
    exact List.mem_toFinset.2 (List.mem_map.2 ⟨j, mem, tag⟩)
  have apart : ((Finset.range (q.length + 1)).image fun i => (t + i) % m).card = q.length + 1 := by
    rw [Finset.card_image_of_injOn, Finset.card_range]
    intro i hi k hk same
    have hi' := Finset.mem_range.1 hi
    have hk' := Finset.mem_range.1 hk
    have modEq : i ≡ k [MOD m] := Nat.ModEq.add_left_cancel' t same
    exact modEq.eq_of_lt_of_lt (by omega) (by omega)
  have most := (Finset.card_le_card sub).trans (List.toFinset_card_le _)
  rw [apart, List.length_map] at most
  omega

/-- The tag of a new job has 15 bits, and no job of a queue of fewer than 0x8000 holds it. -/
theorem Hub.newTag_fresh (h : Hub) {q : List Job} (few : q.length < 0x8000) : h.newTag q < 0x8000 ∧ ∀ j ∈ q, j.tag ≠ h.newTag q := by
  obtain ⟨i, small, free⟩ := exists_free_tag q few (h.freeVal % 0x8000)
  unfold Hub.newTag
  dsimp only
  cases search : ((List.range (q.length + 1)).map fun i => (h.freeVal % 0x8000 + i) % 0x8000).find? fun t => !q.any fun j => j.tag == t with
  | none =>
    have held := List.find?_eq_none.1 search _ (List.mem_map.2 ⟨i, List.mem_range.2 small, rfl⟩)
    simp only [Bool.not_eq_true, Bool.not_eq_false', List.any_eq_true, beq_iff_eq] at held
    obtain ⟨j, mem, tag⟩ := held
    exact absurd tag (free j mem)
  | some t =>
    obtain ⟨k, -, rfl⟩ := List.mem_map.1 (List.mem_of_find?_eq_some search)
    have none_holds := List.find?_some search
    simp only [Bool.not_eq_true', List.any_eq_false, beq_iff_eq] at none_holds
    exact ⟨Nat.mod_lt _ (by decide), none_holds⟩

/-! ### Opcodes (R171, R173, R205) -/

/-- A poll tells a waiting job, a job done and an unknown tag apart. -/
theorem pollTag_eq (q : List Job) (done : List Nat) (t : Nat) [Decidable (∃ j ∈ q, j.tag = t)] :
    pollTag q done t = if ∃ j ∈ q, j.tag = t then rv 0 else if t ∈ done then rv 1 else rv 0xFFFF := by
  simp [pollTag]

section opcodes
variable {h : Hub} {n : Fin 16} (goes : ∀ unit, (n.val, unit) ∉ h.clu.stalls)
include goes

theorem Hub.cluStall_none (unit : Nat) : h.cluStall n unit = none := if_neg (by simpa using goes unit)

theorem Hub.cluOp_fftSubmit (src dst inv : Nat) (x : RVal) : h.cluOp n 3 [src, dst, inv] x = h.fftSubmit n src dst inv := by
  simp [Hub.cluOp, Hub.cluStall_none goes, lget]

theorem Hub.cluOp_corSubmit (w : List Nat) (x : RVal) : h.cluOp n 5 w x = h.corSubmit n w := by
  simp [Hub.cluOp, Hub.cluStall_none goes]

theorem Hub.cluOp_fftPoll (x : RVal) : h.cluOp n 4 [] x = (h, pollTag h.clu.fftq h.clu.fftDone (x.n % 65536)) := by
  simp [Hub.cluOp, Hub.cluStall_none goes]

theorem Hub.cluOp_corPoll (x : RVal) : h.cluOp n 6 [] x = (h, pollTag h.clu.corq h.clu.corDone (x.n % 65536)) := by
  simp [Hub.cluOp, Hub.cluStall_none goes]

/-- A channel that the engine does not own answers 0xFFFF (R173). -/
theorem Hub.cluOp_foreign {c : Nat} (foreign : h.reg (kAsrc c) ≠ 0x8000 + n) (num : Fin 3) (arg : Nat) (x : RVal) :
    h.cluOp n num [c, arg] x = (h, rv 0xFFFF) := by
  have owned : h.ownsAsrc n c = false := by simpa [Hub.ownsAsrc] using foreign
  fin_cases num <;> simp [Hub.cluOp, Hub.cluStall_none goes, lget, owned]

end opcodes

/-- Settles O33, opcode by opcode. -/
theorem clusterAnswersOpcodes : Obligations.ClusterAnswersOpcodes := by
  refine fun h n goes => ⟨fun src dst inv x room => ?fft, fun src dst inv x full => ?fftFull,
    fun src src2 pairs lags first dst x p0 p1 l0 l1 room => ?cor, fun src src2 pairs lags first dst x bad => ?corBad,
    fun x => ?fftPoll, fun x => ?corPoll, fun c num arg x foreign => Hub.cluOp_foreign goes foreign num arg x⟩
  case fft =>
    obtain ⟨small, fresh⟩ := h.newTag_fresh (q := h.clu.fftq) (by omega)
    rw [Hub.cluOp_fftSubmit goes, Hub.fftSubmit, if_neg (by omega)]
    exact ⟨_, small, rfl, fresh, rfl⟩
  case fftFull => rw [Hub.cluOp_fftSubmit goes, Hub.fftSubmit, if_pos full]
  case cor =>
    obtain ⟨small, fresh⟩ := h.newTag_fresh (q := h.clu.corq) (by omega)
    have good : ¬ (pairs < 1 ∨ 4096 < pairs ∨ lags < 1 ∨ 1024 < lags ∨ 4 ≤ h.clu.corq.length) := by omega
    have submit : h.corSubmit n [src, src2, pairs, lags, first, dst] = _ := if_neg good
    rw [Hub.cluOp_corSubmit goes, submit]
    exact ⟨_, small, rfl, fresh, rfl⟩
  case corBad => rw [Hub.cluOp_corSubmit goes]; exact if_pos bad
  case fftPoll => rw [Hub.cluOp_fftPoll goes, pollTag_eq]; exact ⟨rfl, rfl⟩
  case corPoll => rw [Hub.cluOp_corPoll goes, pollTag_eq]; exact ⟨rfl, rfl⟩

/-! ### Jobs and transfers that end (R172, R173, R204) -/

section runs
variable {s : State} (live : s.live = true)
include live

theorem exec_fftJobDone : exec .fftJobDone s = .next (s.withHub s.hub.fftDone) := State.onHub_next live _
theorem exec_correlatorJobDone : exec .correlatorJobDone s = .next (s.withHub s.hub.corDone) := State.onHub_next live _
theorem exec_xlAnswer (result : Word) (void : Bool) :
    exec (.xlAnswer result void) s = .next (s.withHub (s.hub.xlAnswer { rv result.toNat with void := void })) :=
  State.onHub_next live fun h => h.xlAnswer { rv result.toNat with void := void }
theorem exec_asrcAssign (ch : Fin 32) (w : Word) : exec (.asrcAssign ch w) s = .next (s.wrote (s.hub.asrcAssign ch w.toNat)) :=
  State.onWrite_next live fun h => h.asrcAssign ch w.toNat

end runs

theorem Hub.fftDone_head {h : Hub} {j : Job} {q : List Job} (head : h.clu.fftq = j :: q) (pe : h.hasPe j.eng = true) (own : j.cal = false) :
    h.fftDone = { h with clu := { h.clu with fftq := q, fftDone := h.clu.fftDone ++ [j.tag] } }.jobWords j.eng j.dst 512 := by
  rw [Hub.fftDone, head]
  exact if_pos (by rw [pe, own]; rfl)

theorem Hub.corDone_head {h : Hub} {j : Job} {q : List Job} (head : h.clu.corq = j :: q) (pe : h.hasPe j.eng = true) (own : j.cal = false) :
    h.corDone = { h with clu := { h.clu with corq := q, corDone := h.clu.corDone ++ [j.tag] } }.jobWords j.eng j.dst (3 * j.lags) := by
  have kept : ({ h with clu := { h.clu with corq := q, corDone := h.clu.corDone ++ [j.tag] } } : Hub).hasPe j.eng = true := pe
  rw [Hub.corDone, head]
  exact if_neg (by rw [kept, own]; decide)

/-- The answer of an opcode whose bundle waits for it reaches the bank, and what waits in the engine is tried again (R204). -/
theorem Hub.xlAnswer_awaited {h : Hub} {q : XlReq} {qs : List XlReq} (head : h.clu.xl = q :: qs) (awaited : q.dst = none) (r : RVal) :
    h.xlAnswer r = ({ h with clu := { h.clu with xl := qs } }.modBank q.eng q.bg fun b => { b with answer := some r }).kick q.eng := by
  rw [Hub.xlAnswer, head]
  dsimp only
  rw [awaited]

/-- The answer of an opcode that left the park buffer goes to its destination (R636). -/
theorem Hub.xlAnswer_parked {h : Hub} {q : XlReq} {qs : List XlReq} {d : Nat} (head : h.clu.xl = q :: qs) (parked : q.dst = some d) (r : RVal) :
    h.xlAnswer r = { h with clu := { h.clu with xl := qs } }.modEng q.eng fun e => e.extResult q.bg q.born (8 + q.op) d r := by
  rw [Hub.xlAnswer, head]
  dsimp only
  rw [parked]

/-- A free channel goes to the engine that the word names. -/
theorem Hub.asrcAssign_gives {h : Hub} {c : Nat} (free : h.fld (kAsrc c) 15 14 = 0) (n : Fin 16) :
    h.asrcAssign c (BitVec.ofNat 16 (0x8000 + n)).toNat = h.setReg (kAsrc c) (0x8000 + n) := by
  have value : (BitVec.ofNat 16 (0x8000 + n)).toNat = 0x8000 + n := by rw [BitVec.toNat_ofNat]; omega
  have key : bits (0x8000 + n.val) 15 14 = 2 := by simp only [bits]; omega
  have owner : bits (0x8000 + n.val) 3 0 = n := by simp only [bits]; omega
  rw [value, Hub.asrcAssign, free, if_neg (by decide), key, owner, if_pos rfl, if_pos (.inl rfl)]

/-- A word without an owner takes a channel back that the route matrix does not hold. -/
theorem Hub.asrcAssign_takes {h : Hub} {c : Nat} (other : h.fld (kAsrc c) 15 14 ≠ 1) : h.asrcAssign c 0 = h.setReg (kAsrc c) 0 := by
  rw [Hub.asrcAssign, if_neg other, if_neg (by decide), if_pos (by decide)]

/-- Settles O34, command by command. -/
theorem clusterEventsAnswer : Obligations.ClusterEventsAnswer := by
  refine ⟨fun s j q live head pe own => ?fft, fun s j q live head pe own => ?cor, fun s q qs result void live head => ?xl,
    fun s ch n live free => ?gives, fun s ch live other => ?takes⟩
  case fft => rw [exec_fftJobDone live, Hub.fftDone_head head pe own]
  case cor => rw [exec_correlatorJobDone live, Hub.corDone_head head pe own]
  case xl =>
    rw [exec_xlAnswer live]
    exact ⟨fun awaited => by rw [Hub.xlAnswer_awaited head awaited], fun d parked => by rw [Hub.xlAnswer_parked head parked]⟩
  case gives => rw [exec_asrcAssign live, Hub.asrcAssign_gives free]
  case takes => rw [exec_asrcAssign live]; exact congrArg (fun h => Host.Outcome.next (s.wrote h)) (Hub.asrcAssign_takes other)

end Sys2Proof.Machine
end

section
/-! PROOF. An undefined bundle that runs past the end of program memory: its last word is at the wrapped address (O23). -/

namespace Sys2Proof.Machine

/-- A NOP of the sample program of engine 0, with or without its stop bit. -/
def nopSlot (stop : Bool) : Instr := .opNop 0 false { s := stop, pe := false, pn := false, pf := 0 }

/-- Engine 0 runs its sample program in a repeat level whose body ends at slot word 0 and begins at slot word 5, with two passes
left. Its PC is the last slot word, 0x7FFF; the NOP there is gathered, and the NOP with the stop bit stands at slot word 0. Two
operations of class K make no bundle (R185). -/
def wrappedBundle : State :=
  State.reset.withHub ((Hub.reset.modPwr fun p => { p with running := true }).modEng 0 fun e =>
    { e with prog := [(0, 0xE0000000), (0x7FFF, 0x60000000)],
             shadow := { e.shadow with regs := [(rPC, rv 0x7FFF), (rLS 0, rv 5), (rLC 0, rv 2)], depth := 1, bundle := [nopSlot false] },
             run := { e.run with inprog := true } })

/-- The PC of the sample program of engine 0 in a hub. -/
def Hub.pc0 (h : Hub) : Nat := (h.engine 0).shadow.pc

/-- The PC that a command leaves. -/
def pcAfter (o : Host.Outcome State Fault Refusal) : Option Nat := match o with | .next t => some t.hub.pc0 | _ => none

/-- The bundle ends at slot word 0, so the level repeats and the program continues at slot word 5 (R185, R244). -/
theorem wrappedBundle_repeats : pcAfter (exec (nopSlot true) wrappedBundle) = some 5 := by decide +kernel

/-- Refutes O23: the statement takes the last word of a bundle at 0x7FFF of two words to be at 0x8000, where fetch continues at
slot word 0 (R185). A repeat level that ends at slot word 0 is then missed (R244), and the program would continue at slot word 1. -/
theorem not_undefinedBundlesAreVoid : ¬ Obligations.UndefinedBundlesAreVoid := by
  intro holds
  have claimed := holds wrappedBundle (nopSlot true) 0 (by decide +kernel) rfl (by decide +kernel) (by decide +kernel) rfl
    (by decide +kernel) (by decide +kernel)
  have goesOn : some 5 = _ := wrappedBundle_repeats.symm.trans (congrArg pcAfter claimed)
  exact absurd goesOn (by decide +kernel)

end Sys2Proof.Machine
end

section
/-! PROOF. How a complete bundle of the sample program runs: one operation alone in its bundle, END and REP (O30), and the extension
opcodes (O32). -/

namespace Sys2Proof.Machine

/-! ### Operations as commands (R182, R201) -/

/-- Every engine operation is a slot word that the code of its engine issues. -/
theorem exec_operation {i : Instr} {n : Fin 16} {bg : Bool} (home : opHome i = some (n, bg)) (s : State) :
    exec i s = s.onHub fun h => h.slot n bg i := by
  unfold opHome at home
  split at home <;> cases home <;> rfl

/-! ### A complete bundle (R185, R186) -/

/-- A placed operation that stops a bundle completes it. -/
theorem Hub.slot_stops {h : Hub} {n : Nat} {i : Instr} (placed : (h.engine n).placed false i = true) (issues : h.issues n = true)
    (stops : opStops i = true) : h.slot n false i =
      ((h.modBank n false fun b => { b with bundle := [] }).bundle n ((h.engine n).shadow.bundle ++ [i])).kickAll := by
  simp [Hub.slot, placed, issues, stops]

/-- A defined bundle of good words runs in the state in which the next one is gathered. -/
theorem exec_bundle {s : State} (live : s.live = true) {i : Instr} {n : Fin 16} (home : opHome i = some (n, false))
    (placed : (s.hub.engine n).placed false i = true) (issues : s.hub.issues n = true) (stops : opStops i = true)
    (ok : bundleOk ((s.hub.engine n).shadow.bundle ++ [i]) = true)
    (good : ((s.hub.engine n).bundleFound ((s.hub.engine n).shadow.bundle ++ [i])).all (fun p => p.2 == .ok) = true)
    (kept : (s.hub.engine n).run.discard = false) :
    exec i s = .next (s.withHub
      (((s.hub.modBank n false fun b => { b with bundle := [] }).runSample n false ((s.hub.engine n).shadow.bundle ++ [i])).kickAll)) := by
  have emptied : (s.hub.modBank n false fun b => { b with bundle := [] }).engine n =
      { s.hub.engine n with shadow := { (s.hub.engine n).shadow with bundle := [] } } := Hub.engine_modEng_same ..
  rw [exec_operation home, State.onHub_next live, Hub.slot_stops placed issues stops, Hub.bundle_good (by rw [emptied]; exact good) ok, emptied, kept]

/-- How often the bundle at the PC of the sample program still executes, and whether under REPN (R247). -/
def Hub.repeats (h : Hub) (n : Nat) (is : List Instr) : Nat × Bool :=
  (h.engine n).shadow.rep.getD ((h.bundleView n is).bundleCount is, repn is)

section runs
variable {h : Hub} {n : Nat} {is : List Instr} (goes : (h.bundleView n is).bundleWaits (withoutRep is) = 0)
include goes

/-- With repetitions left the bundle stays (R247). -/
theorem Hub.runSample_again {k : Nat} {f : Bool} (left : h.repeats n is = (k + 2, f)) :
    h.runSample n false is = (h.once n false false (withoutRep is) (lastWord (h.engine n).shadow.pc is)).1.modBank n false fun b => b.again (k + 1) f := by
  unfold Hub.runSample
  dsimp only
  rw [if_neg Bool.false_ne_true, ← Hub.bundleView, goes, ← Hub.repeats, left]
  rfl

/-- At the last repetition control goes on, after a bundle that does not end the program (R244). -/
theorem Hub.runSample_goesOn (done : (h.repeats n is).1 ≤ 1) (open_ : ∀ m b hd x, is.getLast? ≠ some (.opEnd m b hd x)) :
    h.runSample n false is =
      ((h.once n false false (withoutRep is) (lastWord (h.engine n).shadow.pc is)).1.modEng n fun e => e.repDone false).nextBundle n
        (lastWord (h.engine n).shadow.pc is) (h.once n false false (withoutRep is) (lastWord (h.engine n).shadow.pc is)).2 := by
  unfold Hub.runSample
  dsimp only
  rw [if_neg Bool.false_ne_true, ← Hub.bundleView, goes, ← Hub.repeats]
  simp only
  split
  · next k f left => rw [left] at done; exact absurd done (by simp)
  · rfl

/-- END ends the program after its repeat test (R161, R192). -/
theorem Hub.runSample_ends (done : (h.repeats n is).1 ≤ 1) {m : Fin 16} {b : Bool} {hd : Hdr} {x : EndIn} (ends : is.getLast? = some (.opEnd m b hd x)) :
    h.runSample n false is =
      (((h.once n false false (withoutRep is) (lastWord (h.engine n).shadow.pc is)).1.modEng n fun e => e.repDone false).loopTest n false
        (lastWord (h.engine n).shadow.pc is) 5).1.programEnd n x := by
  unfold Hub.runSample
  dsimp only
  rw [if_neg Bool.false_ne_true, ← Hub.bundleView, goes, ← Hub.repeats]
  simp only [ends]
  split
  · next k f left => rw [left] at done; exact absurd done (by simp)
  · rfl

end runs

/-! ### The repeat of a bundle (R185, R247) -/

/-- No operation of a list is REP. -/
def Plain (is : List Instr) : Prop := ∀ i ∈ is, ∀ m b hd f, i ≠ .opRep m b hd f

section plain
variable {is : List Instr} (plain : Plain is)
include plain

theorem Plain.withoutRep : withoutRep is = is := by
  refine List.filter_eq_self.2 fun i mem => ?_
  split
  · exact absurd rfl (plain _ mem _ _ _ _)
  · rfl

theorem Plain.bundleCount (v : View) : v.bundleCount is = 1 := by
  unfold View.bundleCount
  split
  · next f first =>
    obtain ⟨i, mem, rep⟩ := List.exists_of_findSome?_eq_some first
    split at rep
    · exact absurd rfl (plain _ mem _ _ _ _)
    · cases rep
  · rfl

theorem Plain.repn : repn is = false := by
  refine List.any_eq_false.2 fun i mem => ?_
  split
  · exact absurd rfl (plain _ mem _ _ _ _)
  · decide

section rep
variable (n : Fin 16) (hd : Hdr) (f : KR)

theorem Plain.withoutRep_rep : Machine.withoutRep (is ++ [.opRep n false hd f]) = is := by
  rw [Machine.withoutRep, List.filter_append, ← Machine.withoutRep, plain.withoutRep]
  exact List.append_nil is

theorem Plain.bundleCount_rep (v : View) : v.bundleCount (is ++ [.opRep n false hd f]) = v.repCount f := by
  rw [View.bundleCount, List.findSome?_append, List.findSome?_eq_none_iff.2 fun i mem => ?_]
  · rfl
  · split
    · exact absurd rfl (plain _ mem _ _ _ _)
    · rfl

theorem Plain.repn_rep : Machine.repn (is ++ [.opRep n false hd f]) = f.n := by
  rw [Machine.repn, List.any_append, ← Machine.repn, plain.repn]
  simp

end rep
end plain

theorem bundleOk_legal {is : List Instr} (ok : bundleOk is = true) {i : Instr} (mem : i ∈ is) : opLegal false i = true := by
  simp only [bundleOk, Bool.and_eq_true, List.all_eq_true] at ok
  obtain ⟨⟨⟨⟨⟨⟨⟨⟨⟨⟨all, -⟩, -⟩, -⟩, -⟩, -⟩, -⟩, -⟩, -⟩, -⟩, -⟩ := ok
  exact (all i mem).1

/-- A bundle has one operation of class K at most. -/
theorem bundleOk_oneControl {is : List Instr} (ok : bundleOk is = true) : ((is.map opCls).filter fun d => d == .k).length ≤ 1 := by
  simp only [bundleOk, Bool.and_eq_true, decide_eq_true_eq] at ok
  obtain ⟨⟨⟨⟨⟨⟨-, one⟩, -⟩, -⟩, -⟩, -⟩, -⟩ := ok
  exact one

/-- REP is the only REP of its bundle. -/
theorem plain_of_bundleOk {ops : List Instr} {n : Fin 16} {hd : Hdr} {f : KR} (ok : bundleOk (ops ++ [.opRep n false hd f]) = true) : Plain ops := by
  rintro i mem m b hd' f' rfl
  have one := bundleOk_oneControl ok
  have first : Cls.k ∈ (ops.map opCls).filter fun d => d == .k := List.mem_filter.2 ⟨List.mem_map.2 ⟨_, mem, rfl⟩, rfl⟩
  have least := List.length_pos_of_mem first
  have last : ([(.opRep n false hd f : Instr)].map opCls).filter (fun d => d == .k) = [.k] := rfl
  rw [List.map_append, List.filter_append, List.length_append, last, List.length_singleton] at one
  omega

/-- REP of a sample program counts by its field (R191, R193). -/
theorem View.repCount_immediate {f : KR} {n : Fin 16} {hd : Hdr} {is : List Instr} (ok : bundleOk is = true) (mem : .opRep n false hd f ∈ is)
    (v : View) : v.repCount f = f.cm1.toNat + 1 := by
  have legal : repOk false f = true := bundleOk_legal ok mem
  cases source : f.rs with
  | false => exact if_neg (by simp [source])
  | true => simp [repOk, source] at legal

/-! ### One operation alone in its bundle -/

/-- What an operation of its bundle does, or nothing where its predicate is false (R188). A control operation with a void
predicate would do nothing either (R256). -/
theorem bundleEffs_single {v : View} {i : Instr} (sure : ((v.guard i).1.void && opCls i == .k) = false) :
    bundleEffs v [i] = [if (v.guard i).2 then (opEff v i, (v.guard i).1) else ({}, rv 0)] := by
  have slot : v.slot (0 : Nat) = v := rfl
  rw [bundleEffs, List.zipIdx_singleton, List.map_singleton]
  dsimp only
  rw [slot, sure]
  cases (v.guard i).2 <;> rfl

/-- The hub after the one operation of a bundle with effect and guard `y`: the bundle counts, and DO and DOR add a level. -/
def View.sole (v : View) (n : Nat) (y : Eff × RVal) (ctl : Ctl) : Hub :=
  let h := { v.h with free := v.h.free + 16 }.applyEff n false false 0 y
  let h := (h.modBank n false fun b => { b with pos := b.pos + 1 }).modRun n fun r => { r with count := r.count + 1 }
  match ctl with | .enter => h.modBank n false fun b => { b with depth := b.depth + 1 } | _ => h

/-- What the one operation of a bundle does, with its guard. -/
def View.soleEff (v : View) (i : Instr) : Eff × RVal := if (v.guard i).2 then (opEff v i, (v.guard i).1) else ({}, rv 0)

/-- What a bundle of `k` operations with effects `effs` does to a hub in which the values due have landed. -/
def Hub.onceWith (h : Hub) (n k : Nat) (effs : List (Eff × RVal)) : Hub × Ctl :=
  let h := effs.zipIdx.foldl (fun h x => h.applyEff n false false x.2 x.1) { h with free := h.free + 16 * k }
  let h := (h.modBank n false fun b => { b with pos := b.pos + 1 }).modRun n fun r => { r with count := r.count + 1 }
  let c := (effs.map fun x => x.1.ctl).getLastD .go
  (match c with | .enter => h.modBank n false fun b => { b with depth := b.depth + 1 } | _ => h, c)

theorem Hub.once_onceWith (h : Hub) (n : Nat) (is : List Instr) (last : Nat) : h.once n false false is last =
    (h.modEng n fun e => e.land false).onceWith n is.length (bundleEffs ((h.modEng n fun e => e.land false).viewOf n false last) is) := rfl

/-- One execution of a bundle of one operation. -/
theorem Hub.once_single {h : Hub} {n last : Nat} {i : Instr} {v : View} (view : (h.modEng n fun e => e.land false).viewOf n false last = v)
    (sure : ((v.guard i).1.void && opCls i == .k) = false) :
    h.once n false false [i] last = (v.sole n (v.soleEff i) (v.soleEff i).1.ctl, (v.soleEff i).1.ctl) := by
  rw [Hub.once_onceWith, view, bundleEffs_single sure]
  subst view
  rfl

section alone
variable {s : State} (live : s.live = true) {i : Instr} {n : Fin 16} (home : opHome i = some (n, false)) (alone : Alone s.hub n i)
include alone

/-- The PC and the repetitions of the bundle outlast the gathering of its slots. -/
theorem Alone.gathered : ((s.hub.modBank n false fun b => { b with bundle := [] }).engine n).shadow.pc = (s.hub.engine n).shadow.pc ∧
    ((s.hub.modBank n false fun b => { b with bundle := [] }).engine n).shadow.rep = none := by
  rw [Hub.modBank, Hub.engine_modEng_same]
  exact ⟨rfl, alone.once⟩

/-- The view of a bundle of one operation is what the operation reads from. -/
theorem Alone.view : (s.hub.modBank n false fun b => { b with bundle := [] }).bundleView n [i] = s.hub.slotView n i := by
  rw [Hub.bundleView, alone.gathered.1, ← Hub.slotView]

include live home in
/-- A bundle of one operation that issues runs. -/
theorem Alone.exec : exec i s =
    .next (s.withHub (((s.hub.modBank n false fun b => { b with bundle := [] }).runSample n false [i]).kickAll)) := by
  have whole : (s.hub.engine n).shadow.bundle ++ [i] = [i] := by rw [alone.first]; rfl
  have runs := exec_bundle live home alone.placed alone.issues alone.stops (by rw [whole]; exact alone.ok) (by rw [whole]; exact alone.good) alone.kept
  rw [whole] at runs
  exact runs

section plain
variable (plain : Plain [i])
include plain

theorem Alone.goes_plain :
    ((s.hub.modBank n false fun b => { b with bundle := [] }).bundleView n [i]).bundleWaits (withoutRep [i]) = 0 := by
  rw [plain.withoutRep, alone.view, alone.goes]

theorem Alone.repeats_once : ((s.hub.modBank n false fun b => { b with bundle := [] }).repeats n [i]).1 ≤ 1 := by
  rw [Hub.repeats, alone.gathered.2, Option.getD_none, plain.bundleCount]

include live home

/-- An operation that does not end the program runs with its effect where its predicate lets it (R186, R188, R244). -/
theorem Alone.runsAs (open_ : ∀ m b hd x, i ≠ .opEnd m b hd x)
    (sure : (((s.hub.slotView n i).guard i).1.void && opCls i == .k) = false) : RunsAs s n i (opEff (s.hub.slotView n i) i) := by
  have last : ∀ m b hd x, [i].getLast? ≠ some (.opEnd m b hd x) := fun m b hd x e => open_ m b hd x (Option.some.inj e)
  rw [RunsAs, alone.exec live home, Hub.runSample_goesOn (alone.goes_plain plain) (alone.repeats_once plain) last, plain.withoutRep,
    alone.gathered.1, Hub.once_single (v := s.hub.slotView n i) rfl sure]
  have ctl : ((s.hub.slotView n i).soleEff i).1.ctl = if ((s.hub.slotView n i).guard i).2 then (opEff (s.hub.slotView n i) i).ctl else .go := by
    unfold View.soleEff
    split <;> rfl
  rw [ctl]
  rfl

end plain

include live home

/-- An operation of slot X that is alone in its bundle runs with its effect. -/
theorem Alone.runsX (x : opCls i = .x) : RunsAs s n i (opEff (s.hub.slotView n i) i) := by
  have plain : Plain [i] := by
    rintro j mem m b hd f rfl
    cases List.mem_singleton.1 mem
    cases x
  refine alone.runsAs live home plain (fun m b hd y ends => ?_) ?_
  · subst ends
    cases x
  · rw [x]
    exact Bool.and_false _

end alone

/-- Settles O32: every extension opcode is an operation of slot X, so it runs with the effect that hands it over (R204 to R206). -/
theorem extensionOpsRun : Obligations.ExtensionOpsRun := by
  intro s n hd f live ext ptr
  refine ⟨?put, ?get, ?status, ?fft, ?fftPoll, ?cor, ?corPoll, ?version, ?xl⟩
  case fft =>
    rintro _ rfl alone
    have runs := alone.runsX live rfl rfl
    have low : f.arg.toNat / 2 ^ 0 % 8 = f.arg.toNat % 8 := by rw [pow_zero, Nat.div_one]
    simp only [ptr, low]
    exact runs
  case cor =>
    rintro _ rfl alone
    have runs := alone.runsX live rfl rfl
    have low : f.arg.toNat / 2 ^ 0 % 8 = f.arg.toNat % 8 := by rw [pow_zero, Nat.div_one]
    simp only [ptr, low]
    exact runs
  case xl =>
    rintro op _ rfl alone
    exact alone.runsX live rfl rfl
  all_goals
    rintro _ rfl alone
    exact alone.runsX live rfl rfl

/-- Settles O30: END alone is the last operation of a bundle that does not repeat (R161, R192); a defined bundle under REP repeats as its
count says (R247). -/
theorem endAndRepRun : Obligations.EndAndRepRun := by
  refine ⟨?ends, ?reps⟩
  case ends =>
    intro s n hd x live alone last h
    have plain : Plain [.opEnd n false hd x] := by
      rintro j mem m b hd' f rfl
      cases List.mem_singleton.1 mem
    have runs := Hub.runSample_ends (alone.goes_plain plain) (alone.repeats_once plain) (x := x) rfl
    rw [plain.withoutRep, alone.gathered.1] at runs
    exact (alone.exec live rfl).trans (congrArg (fun g => Host.Outcome.next (s.withHub g.kickAll)) runs)
  case reps =>
    intro s n hd f live stop placed issues kept is ops last h ok good goes r
    have plain : Plain ops := plain_of_bundleOk ok
    have emptied : h.engine n = { s.hub.engine n with shadow := { (s.hub.engine n).shadow with bundle := [] } } := Hub.engine_modEng_same ..
    have pc : lastWord (h.engine n).shadow.pc is = last := by rw [emptied]; rfl
    have rep : (h.engine n).shadow.rep = (s.hub.engine n).shadow.rep := by rw [emptied]
    have others : withoutRep is = ops := plain.withoutRep_rep n hd f
    have ready : (h.bundleView n is).bundleWaits (withoutRep is) = 0 := by rw [others, Hub.bundleView, pc, goes]
    have counts : (h.bundleView n is).bundleCount is = f.cm1.toNat + 1 := by
      rw [plain.bundleCount_rep, View.repCount_immediate ok (List.mem_append_right _ (List.mem_singleton_self _))]
    have left : h.repeats n is = (s.hub.engine n).shadow.rep.getD (f.cm1.toNat + 1, f.n) := by
      rw [Hub.repeats, rep, counts, plain.repn_rep]
    have runs : exec (.opRep n false hd f) s = .next (s.withHub ((h.runSample n false is).kickAll)) :=
      exec_bundle live rfl placed issues stop ok good kept
    refine ⟨fun k m more => ?again, fun first many => ?begins, fun done => ?last⟩
    case again =>
      rw [runs, Hub.runSample_again ready (left.trans (by rw [more]; rfl)), others, pc]
    case begins =>
      obtain ⟨k, count⟩ : ∃ k, f.cm1.toNat = k + 1 := Nat.exists_eq_succ_of_ne_zero fun none => many (BitVec.eq_of_toNat_eq none)
      rw [runs, Hub.runSample_again ready (left.trans (by rw [first, count]; rfl)), others, pc, count]
    case last =>
      have once : (h.repeats n is).1 ≤ 1 := by
        obtain ⟨m, one⟩ | ⟨first, none⟩ := done
        · rw [left, one]; exact le_rfl
        · rw [left, first, none]; exact le_rfl
      have open_ : ∀ m b hd' x, is.getLast? ≠ some (.opEnd m b hd' x) := fun m b hd' x ends => by
        rw [List.getLast?_concat] at ends
        cases ends
      rw [runs, Hub.runSample_goesOn ready once open_, others, pc]

end Sys2Proof.Machine
end

section
/-! PROOF. Background code runs one operation at a time (O31). -/

namespace Sys2Proof.Machine

/-! ### An operation of background code (R164, R165, R201) -/

/-- A placed operation of running background code runs. -/
theorem Hub.slot_compact {h : Hub} {n : Nat} {i : Instr} (placed : (h.engine n).placed true i = true) (runs : h.bgRuns n = true)
    (empty : (h.engine n).fore.held = []) : h.slot n true i = (h.compact n i).kickAll := by
  simp [Hub.slot, placed, runs, empty]

section fetched
variable {h : Hub} {n : Nat} {i : Instr} (good : ((h.engine n).fetchFound (h.engine n).fore.pc i).all (fun p => p.2 == .ok) = true)
include good

/-- An operation that compact mode does not define there halts the code (R165). -/
theorem Hub.compact_undefined (undef : (h.engine n).fore.undefinedOp i = true) : h.compact n i = h.bgHalt n 1 := by
  simp only [Hub.compact, Hub.fetched_good h n good, undef, Bool.false_eq_true, if_false, if_true]

/-- A defined operation that no REP repeats runs. -/
theorem Hub.compact_runs (defined : (h.engine n).fore.undefinedOp i = false) (free : (h.engine n).fore.rep = none) :
    h.compact n i = h.runCompact n i := by
  simp only [Hub.compact, Hub.fetched_good h n good, defined, free, Bool.false_eq_true, if_false]

end fetched

/-- An operation other than REP that does not wait and does not halt the code executes once, and control goes on. -/
theorem Hub.runCompact_goesOn {h : Hub} {n : Nat} {i : Instr} {last : Nat} (at_ : lastWord (h.engine n).fore.pc [i] = last)
    (free : (h.engine n).fore.rep = none) (here : (h.engine n).fore.branch = none) (other : ∀ m b hd f, i ≠ .opRep m b hd f)
    (goes : (h.viewOf n true last).bundleWaits [i] = 0) (runs : ((h.once n true false [i] last).1.engine n).halt = 0) :
    h.runCompact n i = ((h.once n true false [i] last).1.modEng n fun e => e.repDone true).nextCompact n last (hasDelay i) none
      (h.once n true false [i] last).2 := by
  unfold Hub.runCompact
  simp only [at_, goes, runs, free, here, ne_eq, not_true_eq_false, if_false]

/-- A branch is taken after its delay slot (R202). -/
theorem Hub.nextCompact_branch (h : Hub) (n last : Nat) (slot : Bool) (delay : Option Nat) (t : Nat) :
    ((h.nextCompact n last slot delay (.branch t)).engine n).fore.branch = some t := by
  unfold Hub.nextCompact Hub.modBank
  rw [Hub.engine_modEng_same]
  rfl

/-- Settles O31: an operation that no REP repeats and no branch follows takes the plain path of compact mode (R201 to R203). -/
theorem compactOperationsRun : Obligations.CompactOperationsRun := by
  refine ⟨?runs, ?undefined, fun h n last t slot delay => h.nextCompact_branch n last slot delay t, fun v n bg hd tgt f => ⟨rfl, rfl⟩⟩
  case runs =>
    intro s i n live home placed runs empty free here defined good notRep last goes r halts
    have other : ∀ m b hd f, i ≠ .opRep m b hd f := by
      rintro m b hd f rfl
      cases home
      exact notRep hd f rfl
    rw [exec_operation home, State.onHub_next live, Hub.slot_compact placed runs empty, Hub.compact_runs good defined free,
      Hub.runCompact_goesOn rfl free here other goes halts]
  case undefined =>
    intro s i n live home placed runs empty undef good
    rw [exec_operation home, State.onHub_next live, Hub.slot_compact placed runs empty, Hub.compact_undefined good undef]

end Sys2Proof.Machine
end

section
/-! PROOF. Substitution: SE_SPARE is written (O17, O18), a failed engine is retired, its spare is restored. -/

namespace Sys2Proof.Machine

/-! ### The words of the map (R169, R181) -/

/-- SPARE of the physical engines is a field of their map entries, and nothing else changes with it. -/
theorem Hub.markSpares_frame (h : Hub) : ∃ regs, h.markSpares = { h with regs := regs } := by
  refine iter_keeps (P := fun g => ∃ regs, g = { h with regs := regs }) (fun p g frame => ?_) 16 ⟨h.regs, rfl⟩
  obtain ⟨regs, rfl⟩ := frame
  exact ⟨_, rfl⟩

/-- Every word below the map entries of the physical engines outlasts a mark of the spares. -/
theorem Hub.reg_markSpares (h : Hub) {j : Nat} (below : j < kPe 0) : h.markSpares.reg j = h.reg j := by
  refine iter_keeps (P := fun g : Hub => g.reg j = h.reg j) (fun p g same => ?_) 16 rfl
  have apart : j ≠ kPe p := by simp only [kPe, spc] at *; omega
  rw [Hub.setFld, Hub.reg_setReg_other _ _ apart, same]

@[simp] theorem Hub.markSpares_ev (h : Hub) : h.markSpares.ev = h.ev := by obtain ⟨_, e⟩ := h.markSpares_frame; rw [e]
@[simp] theorem Hub.markSpares_cal (h : Hub) : h.markSpares.cal = h.cal := by obtain ⟨_, e⟩ := h.markSpares_frame; rw [e]
@[simp] theorem Hub.markSpares_sub (h : Hub) : h.markSpares.sub = h.sub := by obtain ⟨_, e⟩ := h.markSpares_frame; rw [e]
@[simp] theorem Hub.markSpares_engs (h : Hub) : h.markSpares.engs = h.engs := by obtain ⟨_, e⟩ := h.markSpares_frame; rw [e]
@[simp] theorem Hub.engine_markSpares (h : Hub) (n : Nat) : h.markSpares.engine n = h.engine n := Hub.engine_congr h.markSpares_engs n

theorem kMapSe_below {n : Nat} (small : n < 16) : kMapSe n < kPe 0 := by simp only [kMapSe, kPe, spc]; omega
theorem direct_below {a : Nat} (direct : a < 2 ^ 32) : a < kPe 0 := by simp only [kPe, spc]; omega
theorem kMapSe_ne_kPe {n : Nat} (small : n < 16) (p : Nat) : kMapSe n ≠ kPe p := by simp only [kMapSe, kPe, spc]; omega
theorem kMapSe_injective {n m : Nat} (apart : n ≠ m) : kMapSe n ≠ kMapSe m := by simp only [kMapSe, spc]; omega
theorem direct_ne_map {a : Nat} (direct : a < 2 ^ 32) (n : Nat) : a ≠ kMapSe n ∧ a ≠ kPe n :=
  ⟨direct_ne_spc direct _, direct_ne_spc direct _⟩

/-! ### A write of SE_SPARE (R169) -/

/-- No lost engine waits for a spare, so none takes one (R614). -/
theorem Hub.serveLost_whole {h : Hub} (whole : ∀ m : Fin 16, (h.engine m).st ≠ .failed) : h.serveLost = h := by
  have noneLost : (firstBelow 16 fun n => (h.engine n).st == .failed) = none :=
    firstBelow_eq_none.2 fun m small => beq_eq_false_iff_ne.2 (whole ⟨m, small⟩)
  unfold Hub.serveLost
  split
  · rfl
  · rw [noneLost]

/-- The word that a write `w` makes of SE_SPARE `old`: USED stays where both words enable the entry. -/
def spareWord (old w : Nat) : Nat := (w &&& 0x8F8F) + 64 * b2n (bit old 6 && bit w 7) + 16384 * b2n (bit old 14 && bit w 15)

theorem Hub.spareWrite_taken {h : Hub} {w : Nat} (taken : h.spareRefused w = false) :
    h.spareWrite w = (h.setReg 0x23 (spareWord (h.reg 0x23) w)).markSpares := by
  have keep : (w &&& 0x8F8F) + (flagAt (bit (h.reg 0x23) 6 && bit w 7) 6 + flagAt (bit (h.reg 0x23) 14 && bit w 15) 14) =
      spareWord (h.reg 0x23) w := by
    simp only [spareWord, flagAt, b2n]
    split <;> split <;> omega
  rw [Hub.spareWrite, taken, if_neg Bool.false_ne_true, ← keep]

theorem bits_and (a b hi lo : Nat) : bits (a &&& b) hi lo = bits a hi lo &&& bits b hi lo := by
  rw [bits, Nat.and_div_two_pow, Nat.and_mod_two_pow, bits, bits]

/-- A mask of ones keeps its field. -/
theorem bits_and_ones {w m hi lo : Nat} (ones : bits m hi lo = 2 ^ (hi - lo + 1) - 1) : bits (w &&& m) hi lo = bits w hi lo := by
  rw [bits_and, ones, Nat.and_two_pow_sub_one_of_lt_two_pow (bits_lt w hi lo)]

theorem bits_and_zeros {w m hi lo : Nat} (zeros : bits m hi lo = 0) : bits (w &&& m) hi lo = 0 := by
  rw [bits_and, zeros, Nat.and_zero]

theorem b2n_le (b : Bool) : b2n b ≤ 1 := by cases b <;> decide

/-- The names of the two entries are those of the word written. -/
theorem bits_spareWord (old w : Nat) : bits (spareWord old w) 7 7 = bits w 7 7 ∧ bits (spareWord old w) 3 0 = bits w 3 0 ∧
    bits (spareWord old w) 15 15 = bits w 15 15 ∧ bits (spareWord old w) 11 8 = bits w 11 8 := by
  have a := b2n_le (bit old 6 && bit w 7)
  have b := b2n_le (bit old 14 && bit w 15)
  have f0 : bits (w &&& 0x8F8F) 6 6 = 0 := bits_and_zeros rfl
  have f1 : bits (w &&& 0x8F8F) 14 14 = 0 := bits_and_zeros rfl
  rw [← bits_and_ones (w := w) (m := 0x8F8F) (hi := 7) (lo := 7) rfl, ← bits_and_ones (w := w) (m := 0x8F8F) (hi := 3) (lo := 0) rfl,
    ← bits_and_ones (w := w) (m := 0x8F8F) (hi := 15) (lo := 15) rfl, ← bits_and_ones (w := w) (m := 0x8F8F) (hi := 11) (lo := 8) rfl, spareWord]
  generalize w &&& 0x8F8F = x at *
  simp only [bits, Nat.sub_self, Nat.zero_add] at *
  omega

theorem spareWord_lt (old w : Nat) : spareWord old w < 65536 := by
  have a := b2n_le (bit old 6 && bit w 7)
  have b := b2n_le (bit old 14 && bit w 15)
  have masked : w &&& 0x8F8F ≤ 0x8F8F := Nat.and_le_right
  rw [spareWord]
  omega

theorem bit_of_bits {a b i : Nat} (same : bits a i i = bits b i i) : bit a i = bit b i := by
  rw [bits_single, bits_single] at same
  exact b2n_injective same

/-- The engines that a word of SE_SPARE names are the reserved ones. -/
theorem Hub.reserved_spareWord {h : Hub} {old w : Nat} (word : h.reg 0x23 = spareWord old w) (m : Nat) :
    h.reserved m = true ↔ ∃ k : Fin 2, bit w (8 * k + 7) = true ∧ bits w (8 * k + 3) (8 * k) = m := by
  obtain ⟨en0, l0, en1, l1⟩ := bits_spareWord old w
  rw [Hub.reserved, Hub.fld, Hub.fld, word, bit_of_bits en0, bit_of_bits en1, l0, l1, Fin.exists_fin_two]
  simp

/-- Does entry `k` of a write `w` reserve an engine that is in use. -/
def Hub.spareNewly (h : Hub) (w k : Nat) : Bool :=
  bit w (8 * k + 7) && !h.reserved (bits w (8 * k + 3) (8 * k)) &&
    (bit (h.reg (kSe (bits w (8 * k + 3) (8 * k)) 0x100)) 15 || (h.engine (bits w (8 * k + 3) (8 * k))).run.spen ||
      (h.engine (bits w (8 * k + 3) (8 * k))).bgen)

/-- Does a write `w` release the used entry `k`. -/
def Hub.spareReleases (h : Hub) (w k : Nat) : Bool :=
  bit (h.reg 0x23) (8 * k + 7) && bit (h.reg 0x23) (8 * k + 6) &&
    !(bit w (8 * k + 7) && bits w (8 * k + 3) (8 * k) == bits (h.reg 0x23) (8 * k + 3) (8 * k))

theorem Hub.spareRefused_eq (h : Hub) (w : Nat) : h.spareRefused w =
    ((h.spareNewly w 0 || h.spareReleases w 0) || (h.spareNewly w 1 || h.spareReleases w 1) || h.sub.active.isSome || !h.sub.waiting.isEmpty ||
      (bit w 7 && bit w 15 && bits w 3 0 == bits w 11 8)) := rfl

theorem Hub.spareNewly_iff {h : Hub} {w k : Nat} : h.spareNewly w k = true ↔ bit w (8 * k + 7) = true ∧
    h.reserved (bits w (8 * k + 3) (8 * k)) = false ∧ (bit (h.reg (kSe (bits w (8 * k + 3) (8 * k)) 0x100)) 15 = true ∨
      (h.engine (bits w (8 * k + 3) (8 * k))).run.spen = true ∨ (h.engine (bits w (8 * k + 3) (8 * k))).bgen = true) := by
  simp only [Hub.spareNewly, Bool.and_eq_true, Bool.or_eq_true, Bool.not_eq_true', and_assoc, or_assoc]

theorem Hub.spareReleases_iff {h : Hub} {w k : Nat} : h.spareReleases w k = true ↔ bit (h.reg 0x23) (8 * k + 7) = true ∧
    bit (h.reg 0x23) (8 * k + 6) = true ∧
      ¬ (bit w (8 * k + 7) = true ∧ bits w (8 * k + 3) (8 * k) = bits (h.reg 0x23) (8 * k + 3) (8 * k)) := by
  rw [Hub.spareReleases, Bool.and_eq_true, Bool.and_eq_true, Bool.not_eq_true', ← Bool.not_eq_true, Bool.and_eq_true, beq_iff_eq, and_assoc]

/-- The four grounds of a refusal (R169, R609). -/
theorem Hub.spareRefused_iff (h : Hub) (w : Nat) : h.spareRefused w = true ↔
    (∃ k : Fin 2, h.spareNewly w k = true) ∨ (∃ k : Fin 2, h.spareReleases w k = true) ∨ (h.sub.active ≠ none ∨ h.sub.waiting ≠ []) ∨
      (bit w 7 = true ∧ bit w 15 = true ∧ bits w 3 0 = bits w 11 8) := by
  simp only [Hub.spareRefused_eq, Fin.exists_fin_two, Bool.or_eq_true, Bool.and_eq_true, Bool.not_eq_true', beq_iff_eq, Fin.val_zero, Fin.val_one,
    Option.isSome_iff_ne_none, List.isEmpty_eq_false_iff, and_assoc]
  tauto

/-- A refused write changes nothing but SPARE_REFUSED, from an engine that the write names (R176). -/
theorem Hub.spareWrite_refused {h : Hub} {w : Nat} (refused : h.spareRefused w = true) :
    ∃ src, src < 16 ∧ h.spareWrite w = h.issue src 0x20B w 0 0 := by
  refine ⟨_, ?_, by rw [Hub.spareWrite, if_pos refused]⟩
  split
  · exact lt_of_le_of_lt (min_le_left _ _) (bits_lt w 3 0)
  · refine Nat.lt_succ_of_le (List.foldlRecOn (motive := fun b => b ≤ 15) _ _ le_rfl fun b small a _ => ?_)
    exact (min_le_left _ _).trans small

theorem exec_spareReserve {s : State} (live : s.live = true) (w : Word) :
    exec (.spareReserve w) s = .next (s.withHub ((s.hub.spareWrite w.toNat).serveLost)) := State.onHub_next live fun h => h.spareReserve w.toNat

/-- The part of O18 on SPARE_RESERVE. -/
theorem spareReserve_completes {s : State} (live : s.live = true) (w : Word) (whole : ∀ m : Fin 16, (s.hub.engine m).st ≠ .failed) :
    (s.hub.spareRefused w.toNat = false → ∃ t, exec (.spareReserve w) s = .next t ∧
      t.hub.reg 0x23 = spareWord (s.hub.reg 0x23) w.toNat ∧
      (∀ m : Fin 16, t.hub.reserved m = true ↔ ∃ k : Fin 2, bit w.toNat (8 * k + 7) = true ∧ bits w.toNat (8 * k + 3) (8 * k) = m) ∧
      t.hub.engs = s.hub.engs ∧ t.hub.sub = s.hub.sub ∧ t.hub.ev = s.hub.ev ∧ t.q = s.q) ∧
    (s.hub.spareRefused w.toNat = true → ∃ src, src < 16 ∧
      exec (.spareReserve w) s = .next (s.withHub (s.hub.issue src 0x20B w.toNat 0 0))) := by
  refine ⟨fun taken => ?_, fun refused => ?_⟩
  · have word : (s.hub.setReg 0x23 (spareWord (s.hub.reg 0x23) w.toNat)).markSpares.reg 0x23 = spareWord (s.hub.reg 0x23) w.toNat := by
      rw [Hub.reg_markSpares _ (direct_below (by decide)), Hub.reg_setReg_same, Nat.mod_eq_of_lt (spareWord_lt ..)]
    refine ⟨_, exec_spareReserve live w, ?_⟩
    rw [Hub.spareWrite_taken taken, Hub.serveLost_whole fun m => by rw [Hub.engine_markSpares]; exact whole m]
    exact ⟨word, fun m => Hub.reserved_spareWord word m, Hub.markSpares_engs _, Hub.markSpares_sub _, Hub.markSpares_ev _, rfl⟩
  · obtain ⟨src, small, told⟩ := Hub.spareWrite_refused refused
    refine ⟨src, small, ?_⟩
    rw [exec_spareReserve live, told, Hub.serveLost_whole fun m => by rw [Hub.engine_issue]; exact whole m]

end Sys2Proof.Machine
end

section
/-! PROOF. A failed engine is retired: a spare takes over, or it is lost (O17, O18). -/

namespace Sys2Proof.Machine

/-! ### The retirement of a failed engine (R609 step 2) -/

/-- What the failure leaves of an engine served by physical engine `pe`. -/
def Engine.retired (e : Engine) (pe : Nat) : Engine :=
  { e with shadow := { e.shadow.unhold with rep := none, hold := false }, fore := { e.fore.unhold with rep := none, hold := false },
           park := [], faults := [], heldWr := [], tags := ⟨{}, {}, {}, {}⟩,
           run := { e.run with inprog := false, pend := false, oldPe := pe } }.farRetire

/-- The transfers of an engine with the module are withdrawn. -/
def Hub.xlLost (h : Hub) (n : Nat) : Hub := { h with clu := { h.clu with xl := h.clu.xl.filter fun q => q.eng != n } }

/-- The engine and its physical engine are out of the map, and its transfers are withdrawn. -/
def Hub.retiring (h : Hub) (n : Nat) : Hub :=
  ((((((h.modSub fun x => { x with waiting := x.waiting.drop 1 }).modEng n fun e => e.retired (h.peOf n)).xlLost n).setReg (kMapSe n) 0).setReg
    (kPe (h.peOf n)) 0x8000).markSpares)

/-- The engine stays without a physical engine, and SPARE_NONE says so (R613). -/
def Hub.losing (h : Hub) (n pe : Nat) : Hub :=
  ((h.modEng n fun e => { e with st := .failed, run := { e.run with lost := true } }).setFlag 0x7B).issue 245 3 n pe (h.engine n).run.failCause

/-- Calibration on a lost engine stops (R484). -/
def Hub.calDropped (h : Hub) (n : Nat) : Hub := if h.calHolds n then h.calStop 2 else h

/-- A spare takes over, or the engine is lost. -/
def Hub.spareOrLoss (h : Hub) (n pe : Nat) : Hub :=
  match h.spareEntry with
  | some k => h.takeSpare n k
  | none => (h.losing n pe).calDropped n

theorem Hub.spareOrLoss_spare {h : Hub} {n pe k : Nat} (spare : h.spareEntry = some k) : h.spareOrLoss n pe = h.takeSpare n k := by
  rw [Hub.spareOrLoss, spare]

theorem Hub.spareOrLoss_lost {h : Hub} {n pe : Nat} (noSpare : h.spareEntry = none) : h.spareOrLoss n pe = (h.losing n pe).calDropped n := by
  rw [Hub.spareOrLoss, noSpare]

/-- The declaration at the head is served while no substitution runs. -/
theorem Hub.retire_turn {h : Hub} {n : Nat} (idle : h.sub.active = none) (first : h.sub.waiting.head? = some n)
    (failing : (h.engine n).st = .failing) : h.retire n = (h.retiring n).spareOrLoss n (h.peOf n) := by
  have serves : ¬ (h.sub.active.isSome ∨ h.sub.waiting.head? ≠ some n ∨ (h.engine n).st ≠ .failing) := by simp [idle, first, failing]
  rw [Hub.retire, if_neg serves]
  rfl

/-! ### What the retirement leaves -/

section retiring
variable (h : Hub) (n : Nat)

@[simp] theorem Hub.retiring_ev : (h.retiring n).ev = h.ev := Hub.markSpares_ev _
@[simp] theorem Hub.retiring_cal : (h.retiring n).cal = h.cal := Hub.markSpares_cal _
@[simp] theorem Hub.retiring_sub : (h.retiring n).sub = { h.sub with waiting := h.sub.waiting.drop 1 } := Hub.markSpares_sub _
theorem Hub.engine_retiring (m : Nat) : (h.retiring n).engine m = (h.modEng n fun e => e.retired (h.peOf n)).engine m := by
  rw [Hub.retiring, Hub.engine_markSpares]
  rfl
theorem Hub.engine_retiring_same : (h.retiring n).engine n = (h.engine n).retired (h.peOf n) := by
  rw [Hub.engine_retiring, Hub.engine_modEng_same]
theorem Hub.engine_retiring_other {l : Nat} (other : l ≠ n) : (h.retiring n).engine l = h.engine l := by
  rw [Hub.engine_retiring, Hub.engine_modEng_other _ _ other]

theorem Hub.peOf_lt : h.peOf n < 16 := bits_lt _ 3 0

/-- Every word below the map of the physical engines but the engine's own entry stays. -/
theorem Hub.reg_retiring {j : Nat} (below : j < kPe 0) (other : j ≠ kMapSe n) : (h.retiring n).reg j = h.reg j := by
  have apart : j ≠ kPe (h.peOf n) := by simp only [kPe, spc] at *; omega
  rw [Hub.retiring, Hub.reg_markSpares _ below, Hub.reg_setReg_other _ _ apart, Hub.reg_setReg_other _ _ other]
  rfl

theorem Hub.reg_retiring_own (small : n < 16) : (h.retiring n).reg (kMapSe n) = 0 := by
  rw [Hub.retiring, Hub.reg_markSpares _ (kMapSe_below small), Hub.reg_setReg_other _ _ (kMapSe_ne_kPe small _), Hub.reg_setReg_same]

theorem Hub.hasPe_eq : h.hasPe n = bit (h.reg (kMapSe n)) 15 := rfl

theorem Hub.reg_retiring_direct {a : Nat} (direct : a < 2 ^ 32) : (h.retiring n).reg a = h.reg a :=
  h.reg_retiring n (direct_below direct) (direct_ne_map direct n).1

end retiring

/-- The logical engine that entry `k` of SE_SPARE names. -/
def Hub.spareName (h : Hub) (k : Nat) : Nat := h.fld 0x23 (8 * k + 3) (8 * k)

theorem Hub.spareName_lt (h : Hub) (k : Nat) : h.spareName k < 16 := by
  have small := bits_lt (h.reg 0x23) (8 * k + 3) (8 * k)
  rw [Nat.add_sub_cancel_left] at small
  exact small

theorem Hub.spareThere_iff {h : Hub} {k : Nat} : h.spareThere k = true ↔
    bit (h.reg 0x23) (8 * k + 7) = true ∧ bit (h.reg 0x23) (8 * k + 6) = false ∧ h.hasPe (h.spareName k) = true ∧
      (h.engine (h.spareName k)).st = .normal := by
  simp only [Hub.spareThere, Hub.spareName, Bool.and_eq_true, Bool.not_eq_true', beq_iff_eq, and_assoc]

/-- A failing engine is no spare, and its retirement leaves the others as they are. -/
theorem Hub.spareThere_retiring {h : Hub} {n : Nat} (failing : (h.engine n).st = .failing) (k : Nat) :
    (h.retiring n).spareThere k = h.spareThere k := by
  have word : (h.retiring n).reg 0x23 = h.reg 0x23 := h.reg_retiring_direct n (by decide)
  have name : (h.retiring n).spareName k = h.spareName k := by rw [Hub.spareName, Hub.fld, word]; rfl
  rw [Bool.eq_iff_iff, Hub.spareThere_iff, Hub.spareThere_iff, word, name]
  by_cases own : h.spareName k = n
  · have same : ((h.retiring n).engine n).st = .failing := by rw [Hub.engine_retiring_same]; exact failing
    rw [own, same, failing]
    simp
  · rw [h.engine_retiring_other n own, Hub.hasPe_eq, h.reg_retiring n (kMapSe_below (h.spareName_lt k)) (kMapSe_injective own), ← Hub.hasPe_eq]

/-- Entry 0 is taken before entry 1 (R170). -/
theorem Hub.spareEntry_eq_some {h : Hub} (k : Fin 2) (there : h.spareThere k = true) (before : k = 1 → h.spareThere 0 = false) :
    h.spareEntry = some k.val := by
  refine firstBelow_eq_some.2 ⟨k.isLt, there, fun j small => ?_⟩
  have last : k = 1 := by omega
  have zero : j = 0 := by omega
  rw [zero, before last]

theorem Hub.spareEntry_eq_none {h : Hub} (zero : h.spareThere 0 = false) (one : h.spareThere 1 = false) : h.spareEntry = none := by
  refine firstBelow_eq_none.2 fun j small => ?_
  obtain rfl | rfl : j = 0 ∨ j = 1 := by omega
  · exact zero
  · exact one

/-! ### A spare takes over (R609 step 2, R614) -/

/-- What the engine is until its spare is restored. -/
def Engine.taken (e : Engine) : Engine :=
  { e with st := .substituting, park := [], faults := [], heldWr := [], tags := ⟨{}, {}, {}, {}⟩ }.farRetire

/-- The map after entry `k` of SE_SPARE has served engine `n`. -/
def Hub.remapped (h : Hub) (n k : Nat) : Hub :=
  ((h.setFld 0x23 (8 * k + 6) (8 * k + 6) 1).setReg (kMapSe (h.spareName k)) 0).setReg (kMapSe n) (0x8000 + h.peOf (h.spareName k))

theorem Hub.remapped_ev (h : Hub) (n k : Nat) : (h.remapped n k).ev = h.ev := rfl
theorem Hub.remapped_sub (h : Hub) (n k : Nat) : (h.remapped n k).sub = h.sub := rfl

/-- The substitution of engine `n` by the spare on physical engine `pe` is in progress. -/
def Hub.substituting (h : Hub) (n pe : Nat) : Hub :=
  h.modSub fun s => { s with active := some (n, (h.engine n).run.oldPe, pe), ready := false, affected := h.affectedBy n }

section take
variable (h : Hub) (n k : Nat)

theorem Hub.takeSpare_eq : h.takeSpare n k =
    (((h.remapped n k).setReg (kPe (h.peOf (h.spareName k))) (0x2000 + n)).markSpares.modEng n Engine.taken).substituting n
      (h.peOf (h.spareName k)) := rfl

@[simp] theorem Hub.takeSpare_ev : (h.takeSpare n k).ev = h.ev := by
  rw [Hub.takeSpare_eq, Hub.substituting, Hub.modSub_ev, Hub.modEng, Hub.setEng_ev, Hub.markSpares_ev, Hub.setReg_ev, Hub.remapped_ev]

theorem Hub.engine_takeSpare : (h.takeSpare n k).engine n = (h.engine n).taken := by
  rw [Hub.takeSpare_eq, Hub.substituting, Hub.engine_congr (Hub.modSub_engs ..), Hub.engine_modEng_same, Hub.engine_markSpares]
  rfl

theorem Hub.takeSpare_sub : (h.takeSpare n k).sub.active = some (n, (h.engine n).run.oldPe, h.peOf (h.spareName k)) ∧
    (h.takeSpare n k).sub.waiting = h.sub.waiting := by
  rw [Hub.takeSpare_eq, Hub.substituting, Hub.modSub_sub, Hub.engine_modEng_same, Hub.engine_markSpares]
  refine ⟨rfl, ?_⟩
  rw [Hub.modEng, Hub.setEng_sub, Hub.markSpares_sub, Hub.setReg_sub, Hub.remapped_sub]

theorem Hub.reg_takeSpare {j : Nat} (below : j < kPe 0) : (h.takeSpare n k).reg j = (h.remapped n k).reg j := by
  have apart : j ≠ kPe (h.peOf (h.spareName k)) := by simp only [kPe, spc] at *; omega
  rw [Hub.takeSpare_eq, Hub.substituting, Hub.reg_congr (Hub.modSub_regs ..), Hub.reg_modEng, Hub.reg_markSpares _ below, Hub.reg_setReg_other _ _ apart]

variable {n}

/-- The engine is on the spare's physical engine, the spare's logical engine on none, and the entry is used. -/
theorem Hub.remapped_map (small : n < 16) (other : h.spareName k ≠ n) : (h.takeSpare n k).hasPe n = true ∧
    (h.takeSpare n k).peOf n = h.peOf (h.spareName k) ∧ (h.takeSpare n k).hasPe (h.spareName k) = false := by
  have pe := h.peOf_lt (h.spareName k)
  have own : (h.takeSpare n k).reg (kMapSe n) = 0x8000 + h.peOf (h.spareName k) := by
    rw [h.reg_takeSpare n k (kMapSe_below small), Hub.remapped, Hub.reg_setReg_same, Nat.mod_eq_of_lt (by omega)]
  have gone : (h.takeSpare n k).reg (kMapSe (h.spareName k)) = 0 := by
    rw [h.reg_takeSpare n k (kMapSe_below (h.spareName_lt k)), Hub.remapped, Hub.reg_setReg_other _ _ (kMapSe_injective other), Hub.reg_setReg_same]
  rw [Hub.hasPe_eq, Hub.hasPe_eq, Hub.peOf, Hub.fld, own, gone, bit, Nat.testBit_eq_decide_div_mod_eq, bits, decide_eq_true_eq]
  exact ⟨by omega, by omega, rfl⟩

theorem Hub.takeSpare_used (last : k < 2) : bit ((h.takeSpare n k).reg 0x23) (8 * k + 6) = true := by
  have below : (0x23 : Nat) < kPe 0 := direct_below (by decide)
  have word : putBits (h.reg 0x23) (8 * k + 6) (8 * k + 6) 1 < 65536 := putBits_lt le_rfl (by omega) (h.reg_lt 0x23)
  rw [h.reg_takeSpare n k below, Hub.remapped, Hub.reg_setReg_other _ _ (direct_ne_map (by decide) n).1,
    Hub.reg_setReg_other _ _ (direct_ne_map (by decide) _).1, Hub.setFld, Hub.reg_setReg_same, Nat.mod_eq_of_lt word, bit_putBits le_rfl]
  simp [bit]

end take

/-! ### No spare is left (R613) -/

section lost
variable (h : Hub) (n pe : Nat)

theorem Hub.engine_losing : ((h.losing n pe).engine n).st = .failed := by
  rw [Hub.losing, Hub.engine_issue, Hub.setFlag, Hub.engine_setReg, Hub.engine_modEng_same]

theorem Hub.losing_sub : (h.losing n pe).sub = h.sub := Hub.issue_sub ..

theorem Hub.losing_cal : (h.losing n pe).cal = h.cal := Hub.issue_cal ..

theorem Hub.reg_losing {j : Nat} (other : j ≠ 0x7B) : (h.losing n pe).reg j = h.reg j := by
  rw [Hub.losing, Hub.reg_issue, Hub.setFlag, Hub.reg_setReg_other _ _ other, Hub.reg_modEng]

theorem Hub.flag_losing : (h.losing n pe).flag 0x7B = true := by rw [Hub.losing, Hub.flag_issue, Hub.flag_setFlag]

/-- SPARE_NONE names the engine, its physical engine and the cause. -/
theorem Hub.losing_ev (unmasked : bit (h.reg (evCfg 245)) 2 = false) : ∃ r, (h.losing n pe).ev = h.ev.take 245 r ∧ r.code = 3 ∧
    r.data0 = BitVec.ofNat 16 n ∧ r.data1 = BitVec.ofNat 16 pe ∧ r.data2 = BitVec.ofNat 16 (h.engine n).run.failCause := by
  have cfg := h.reg_losing n pe (evCfg_ne_direct (a := 0x7B) (by decide) 245)
  rw [Hub.losing, Hub.reg_issue] at cfg
  exact ⟨_, Hub.issue_ev_after 245 3 n pe _ rfl cfg unmasked, rfl, rfl, rfl, rfl⟩

theorem Hub.engine_calDropped (m : Nat) : (h.calDropped n).engine m = h.engine m := by
  unfold Hub.calDropped
  split
  · exact ((Hub.Reported.refl h).calStop 2).engine m
  · rfl

theorem Hub.calHolds_congr {h g : Hub} (cal : g.cal = h.cal) (reg : g.reg 0x5C = h.reg 0x5C) (n : Nat) : g.calHolds n = h.calHolds n := by
  rw [Hub.calHolds, Hub.fld, cal, reg, Hub.calHolds, Hub.fld]

end lost

section obligations
variable {s : State} (live : s.live = true) (n : Fin 16)
include live

theorem exec_engineRetired : exec (.engineRetired n) s = .next (s.withHub (s.hub.retire n)) := State.onHub_next live fun h => h.retire n

section turn
variable {n} (idle : s.hub.sub.active = none) (first : s.hub.sub.waiting.head? = some n.val) (failing : (s.hub.engine n).st = .failing)
include idle first failing

/-- With a spare in entry `k` the failed engine is on its physical engine (R170, R609, R614). -/
theorem engineRetired_substitutes (k : Fin 2) (there : s.hub.spareThere k = true) (before : k = 1 → s.hub.spareThere 0 = false) :
    ∃ t, exec (.engineRetired n) s = .next t ∧ (t.hub.engine n).st = .substituting ∧ (t.hub.engine n).park = [] ∧
      (t.hub.engine n).tags = ⟨{}, {}, {}, {}⟩ ∧ t.hub.sub.active = some (n.val, s.hub.peOf n, s.hub.peOf (s.hub.spareName k)) ∧
      t.hub.sub.waiting = s.hub.sub.waiting.drop 1 ∧ t.hub.hasPe n = true ∧ t.hub.peOf n = s.hub.peOf (s.hub.spareName k) ∧
      t.hub.hasPe (s.hub.spareName k) = false ∧ bit (t.hub.reg 0x23) (8 * k + 6) = true ∧ t.hub.ev = s.hub.ev := by
  have kept := Hub.spareThere_retiring failing
  have spare : (s.hub.retiring n).spareEntry = some k.val := Hub.spareEntry_eq_some k (by rw [kept, there]) fun last => by rw [kept, before last]
  have name : (s.hub.retiring n).spareName k = s.hub.spareName k := by
    rw [Hub.spareName, Hub.fld, s.hub.reg_retiring_direct n (by decide)]
    rfl
  have other : s.hub.spareName k ≠ n := fun own => by
    obtain ⟨-, -, -, normal⟩ := Hub.spareThere_iff.1 there
    rw [own, failing] at normal
    cases normal
  have pe : (s.hub.retiring n).peOf (s.hub.spareName k) = s.hub.peOf (s.hub.spareName k) := by
    rw [Hub.peOf, Hub.fld, s.hub.reg_retiring n (kMapSe_below (s.hub.spareName_lt k)) (kMapSe_injective other)]
    rfl
  obtain ⟨has, same, none⟩ := (s.hub.retiring n).remapped_map k n.isLt (by rw [name]; exact other)
  obtain ⟨active, waiting⟩ := (s.hub.retiring n).takeSpare_sub n k
  rw [name, pe] at same active
  rw [name] at none
  refine ⟨_, exec_engineRetired live n, ?_⟩
  rw [Hub.retire_turn idle first failing, Hub.spareOrLoss_spare spare, Hub.engine_takeSpare, active, waiting, Hub.takeSpare_ev, Hub.engine_retiring_same]
  exact ⟨rfl, rfl, rfl, rfl, congrArg Subst.waiting (s.hub.retiring_sub n), has, same, none, Hub.takeSpare_used _ _ k.isLt, s.hub.retiring_ev n⟩

/-- Without a spare the engine has no physical engine, and SPARE_NONE says so (R613). -/
theorem engineRetired_loses (zero : s.hub.spareThere 0 = false) (one : s.hub.spareThere 1 = false) (free : s.hub.calHolds n = false) :
    ∃ t, exec (.engineRetired n) s = .next t ∧ (t.hub.engine n).st = .failed ∧ t.hub.hasPe n = false ∧ t.hub.sub.active = none ∧
      t.hub.sub.waiting = s.hub.sub.waiting.drop 1 ∧ t.hub.flag 0x7B = true ∧
      (bit (s.hub.reg (evCfg 245)) 2 = false → ∃ r, t.hub.ev = s.hub.ev.take 245 r ∧ r.code = 3 ∧ r.data0 = BitVec.ofNat 16 n ∧
        r.data1 = BitVec.ofNat 16 (s.hub.peOf n) ∧ r.data2 = BitVec.ofNat 16 (s.hub.engine n).run.failCause) := by
  have kept := Hub.spareThere_retiring failing
  have noSpare : (s.hub.retiring n).spareEntry = none := Hub.spareEntry_eq_none (by rw [kept, zero]) (by rw [kept, one])
  have released : ((s.hub.retiring n).losing n (s.hub.peOf n)).calHolds n = false := by
    rw [Hub.calHolds_congr ((Hub.losing_cal ..).trans (s.hub.retiring_cal n))
      ((Hub.reg_losing _ _ _ (by decide)).trans (s.hub.reg_retiring_direct n (by decide))), free]
  have cfg : (s.hub.retiring n).reg (evCfg 245) = s.hub.reg (evCfg 245) :=
    s.hub.reg_retiring n (by simp only [evCfg, kPe, spc]; omega) (by simp only [evCfg, kMapSe, spc]; omega)
  have own : ((s.hub.retiring n).losing n (s.hub.peOf n)).reg (kMapSe n) = 0 :=
    (Hub.reg_losing _ _ _ (direct_ne_map (by decide) n).1.symm).trans (s.hub.reg_retiring_own n n.isLt)
  refine ⟨_, exec_engineRetired live n, ?_⟩
  rw [Hub.retire_turn idle first failing, Hub.spareOrLoss_lost noSpare, Hub.calDropped, released, if_neg Bool.false_ne_true, Hub.hasPe_eq, own,
    Hub.losing_sub, Hub.retiring_sub]
  refine ⟨Hub.engine_losing .., rfl, idle, rfl, Hub.flag_losing .., fun unmasked => ?_⟩
  have told := (s.hub.retiring n).losing_ev n (s.hub.peOf n) (by rw [cfg]; exact unmasked)
  rw [Hub.retiring_ev, Hub.engine_retiring_same] at told
  exact told

end turn
end obligations


end Sys2Proof.Machine
end

section
/-! PROOF. What a spare receives, and when it serves (O17, O18). -/

namespace Sys2Proof.Machine

/-! ### The restore image (R609 step 3, R610) -/

/-- The register words of the image, stored and in force. -/
def Hub.imageLoaded (h : Hub) (n : Nat) (img : Image) : Hub :=
  imageWords.foldl (fun h o => h.setEff (eng n o) (tget imageReset img.regs o).toNat) h

def Hub.inputsCleared (h : Hub) (n : Nat) : Hub := iter 1024 (fun i h => h.setReg (eng n (0x50000 + i)) 0) h

/-- The engine with the image's memory and with nothing of what it ran. -/
def Engine.rebuilt (e : Engine) (img : Image) (sp spBg : RVal) (bgen : Bool) : Engine :=
  { e with prog := img.prog, y := img.y, x := [], xVoid := [], ue := [], heldWr := [], outWin := [], handed := [], inRun := [], inPend := [],
           shadow := ({} : Bank).put rSP sp, fore := ({} : Bank).put rSP spBg, walk := [], halt := 0, bgen := bgen, glides := [],
           run := { e.run with inprog := false, pend := false, due := false, done := false, discard := false, outVoid := false,
                               late := false, eccFail := false, count := 0, farUsed := 0 } }

def Hub.memoryLoaded (h : Hub) (n : Nat) (img : Image) : Hub :=
  h.modEng n fun e => e.rebuilt img (rv (h.reg (kSe n 0x106))) (rv (h.reg (kSe n 0x108))) (bit (h.reg (kSe n 0x100)) 14)

/-- A glide starts at its target. -/
def Hub.glideReset (n g : Nat) (h : Hub) : Hub :=
  let t := h.reg (kGlide n g 1)
  ((h.modGlide n g fun gl => { gl with c := BitVec.ofNat 32 (t * 65536) }).setReg (kGlide n g 4) t).setReg (kGlide n g 5) 0

/-- Background code starts where BGEN is 1 in the image. -/
def Hub.bgResumed (h : Hub) (n : Nat) : Hub := if (h.engine n).bgen then h.bgStart n else h

theorem Hub.restore_eq (h : Hub) (n : Nat) : h.restore n =
    (iter 16 (Hub.glideReset n) (((h.imageLoaded n (h.engine n).image).inputsCleared n).memoryLoaded n (h.engine n).image)).bgResumed n := rfl

/-! ### What an engine holds after it -/

/-- `e` holds the memory of the image of `e₀` and runs nothing; its state and the cause of its failure are those of `e₀`. -/
structure Engine.Rebuilt (e₀ e : Engine) : Prop where
  prog : e.prog = e₀.image.prog
  y : e.y = e₀.image.y
  x : e.x = []
  xVoid : e.xVoid = []
  walk : e.walk = []
  heldWr : e.heldWr = []
  held : e.fore.held = []
  inprog : e.run.inprog = false
  st : e.st = e₀.st
  failCause : e.run.failCause = e₀.run.failCause

theorem Engine.rebuilt_rebuilt (e : Engine) (sp spBg : RVal) (bgen : Bool) : e.Rebuilt (e.rebuilt e.image sp spBg bgen) :=
  ⟨rfl, rfl, rfl, rfl, rfl, rfl, rfl, rfl, rfl, rfl⟩

/-- With nothing that a REPN has held, its end writes nothing (R248). -/
theorem Engine.flush_empty {e : Engine} (empty : e.heldWr = []) : e.flush = e := by
  unfold Engine.flush
  split
  · rfl
  · rw [empty, List.foldl_nil, ← empty]

/-- A start of background code at `pc` with the stack at `sp`. -/
def Engine.bgStarted (e : Engine) (pc : Nat) (sp : RVal) : Engine :=
  let e := (e.killSp true).repDone true
  { e with halt := 0, fore := { (e.fore.setPc pc).put rSP sp with depth := 0, branch := none, answer := none } }

theorem Hub.bgStart_eq (h : Hub) (n : Nat) :
    h.bgStart n = (h.xlDrop n true).modEng n fun e => e.bgStarted (h.reg (kSe n 0x102)) (rv (h.reg (kSe n 0x108))) := rfl

/-- A start of background code leaves the memory of the image (R164). -/
theorem Engine.Rebuilt.bgStarted {e₀ e : Engine} (r : e₀.Rebuilt e) (pc : Nat) (sp : RVal) : e₀.Rebuilt (e.bgStarted pc sp) := by
  have quiet : (e.killSp true).repDone true = (e.killSp true).modBank true fun b => { b.unhold with rep := none, hold := false } :=
    Engine.flush_empty r.heldWr
  rw [Engine.bgStarted, quiet]
  exact ⟨r.prog, r.y, r.x, r.xVoid, r.walk, r.heldWr, rfl, r.inprog, r.st, r.failCause⟩

/-- So does a change of the glides. -/
theorem Engine.Rebuilt.glide {e₀ e : Engine} (r : e₀.Rebuilt e) (glides : Tbl Glide) : e₀.Rebuilt { e with glides := glides } :=
  ⟨r.prog, r.y, r.x, r.xVoid, r.walk, r.heldWr, r.held, r.inprog, r.st, r.failCause⟩

/-! ### What the hub holds after it -/

/-- Register words change, in force or not, and nothing else. -/
def Hub.WordsOnly (h g : Hub) : Prop := ∃ regs force, g = { h with regs := regs, force := force }

theorem Hub.WordsOnly.setEff {h g : Hub} (r : h.WordsOnly g) (k v : Nat) : h.WordsOnly (g.setEff k v) := by
  obtain ⟨_, _, rfl⟩ := r
  exact ⟨_, _, rfl⟩

theorem Hub.WordsOnly.setReg {h g : Hub} (r : h.WordsOnly g) (k v : Nat) : h.WordsOnly (g.setReg k v) := by
  obtain ⟨_, force, rfl⟩ := r
  exact ⟨_, force, rfl⟩

theorem Hub.WordsOnly.sub {h g : Hub} (r : h.WordsOnly g) : g.sub = h.sub := by obtain ⟨_, _, rfl⟩ := r; rfl
theorem Hub.WordsOnly.engine {h g : Hub} (r : h.WordsOnly g) (n : Nat) : g.engine n = h.engine n := by obtain ⟨_, _, rfl⟩ := r; rfl

theorem Hub.reg_setEff (h : Hub) (k v j : Nat) : (h.setEff k v).reg j = (h.setReg k v).reg j := rfl

theorem kSe_ctl (n : Nat) : kSe n 0x100 = eng n 0x40100 := rfl

/-- SE_CTL is one word of the engine's space. -/
theorem seCtl_ne (n : Nat) {o : Nat} (apart : o ≠ 0x40100) : kSe n 0x100 ≠ eng n o := fun same => apart (Nat.add_left_cancel same).symm

section loaded
variable (h : Hub) (n : Nat) (img : Image)

theorem Hub.imageLoaded_words : h.WordsOnly (h.imageLoaded n img) :=
  foldl_keeps (P := h.WordsOnly) (fun _ _ r => r.setEff _ _) imageWords ⟨h.regs, h.force, rfl⟩

theorem Hub.inputsCleared_words : h.WordsOnly (h.inputsCleared n) :=
  iter_keeps (P := h.WordsOnly) (fun _ _ r => r.setReg _ _) 1024 ⟨h.regs, h.force, rfl⟩

/-- SE_CTL is the first word of the image, and no later one. -/
theorem Hub.reg_imageLoaded : (h.imageLoaded n img).reg (kSe n 0x100) = (tget imageReset img.regs 0x40100).toNat := by
  have once : ∀ o ∈ imageWords.tail, o ≠ 0x40100 := by decide +kernel
  have first : imageWords = 0x40100 :: imageWords.tail := by decide +kernel
  rw [Hub.imageLoaded, first, List.foldl_cons]
  refine List.foldlRecOn (motive := fun g : Hub => g.reg (kSe n 0x100) = (tget imageReset img.regs 0x40100).toNat) imageWords.tail _ ?_ ?_
  · rw [Hub.reg_setEff, ← kSe_ctl, Hub.reg_setReg_same, Nat.mod_eq_of_lt (BitVec.isLt _)]
  · intro g same o mem
    rw [Hub.reg_setEff, Hub.reg_setReg_other _ _ (seCtl_ne n (once o mem)), same]

theorem Hub.reg_inputsCleared : (h.inputsCleared n).reg (kSe n 0x100) = h.reg (kSe n 0x100) := by
  refine iter_keeps (P := fun g : Hub => g.reg (kSe n 0x100) = h.reg (kSe n 0x100)) (fun i g same => ?_) 1024 rfl
  rw [Hub.reg_setReg_other _ _ (seCtl_ne n (by omega)), same]

end loaded

/-- `g` is `h` with the memory, the words and the registers of the image in engine `n`. -/
structure Hub.Restored (h : Hub) (n : Nat) (g : Hub) : Prop where
  sub : g.sub = h.sub
  word : g.reg (kSe n 0x100) = (tget imageReset (h.engine n).image.regs 0x40100).toNat
  others : ∀ m, m ≠ n → g.engine m = h.engine m
  own : (h.engine n).Rebuilt (g.engine n)

section restored
variable {h g : Hub} {n : Nat}

/-- A change of engine `n` that keeps its memory. -/
theorem Hub.Restored.modEng (r : h.Restored n g) {f : Engine → Engine} (keeps : (h.engine n).Rebuilt (f (g.engine n))) :
    h.Restored n (g.modEng n f) where
  sub := r.sub
  word := r.word
  others m other := by rw [Hub.engine_modEng_other _ _ other, r.others m other]
  own := by rw [Hub.engine_modEng_same]; exact keeps

theorem Hub.Restored.setReg (r : h.Restored n g) {k : Nat} (other : kSe n 0x100 ≠ k) (v : Nat) : h.Restored n (g.setReg k v) where
  sub := r.sub
  word := by rw [Hub.reg_setReg_other _ _ other, r.word]
  others := r.others
  own := r.own

theorem Hub.Restored.xlDrop (r : h.Restored n g) (bg : Bool) : h.Restored n (g.xlDrop n bg) := ⟨r.sub, r.word, r.others, r.own⟩

theorem Hub.Restored.glideReset (r : h.Restored n g) (i : Nat) : h.Restored n (Hub.glideReset n i g) := by
  have apart : ∀ w, kSe n 0x100 ≠ kGlide n i w := fun w => seCtl_ne n (by omega)
  exact ((r.modEng (r.own.glide _)).setReg (apart 4) _).setReg (apart 5) _

theorem Hub.Restored.bgResumed (r : h.Restored n g) : h.Restored n (g.bgResumed n) := by
  unfold Hub.bgResumed
  split
  · rw [Hub.bgStart_eq]
    exact (r.xlDrop true).modEng (r.own.bgStarted _ _)
  · exact r

/-- The memory of the image, after its words. -/
theorem Hub.WordsOnly.memoryLoaded (r : h.WordsOnly g) (word : g.reg (kSe n 0x100) = (tget imageReset (h.engine n).image.regs 0x40100).toNat) :
    h.Restored n (g.memoryLoaded n (h.engine n).image) where
  sub := r.sub
  word := word
  others m other := by rw [Hub.memoryLoaded, Hub.engine_modEng_other _ _ other, r.engine]
  own := by
    rw [Hub.memoryLoaded, Hub.engine_modEng_same, r.engine]
    exact Engine.rebuilt_rebuilt ..

theorem Hub.WordsOnly.trans {k : Hub} (first : h.WordsOnly g) (second : g.WordsOnly k) : h.WordsOnly k := by
  obtain ⟨_, _, rfl⟩ := first
  obtain ⟨regs, force, rfl⟩ := second
  exact ⟨regs, force, rfl⟩

/-- What a spare receives (R610). -/
theorem Hub.restore_restored (h : Hub) (n : Nat) : h.Restored n (h.restore n) := by
  have words := (h.imageLoaded_words n (h.engine n).image).trans (Hub.inputsCleared_words _ n)
  have loaded := words.memoryLoaded ((Hub.reg_inputsCleared _ n).trans (h.reg_imageLoaded n _))
  rw [Hub.restore_eq]
  exact (iter_keeps (P := h.Restored n) (fun i _ r => r.glideReset i) 16 loaded).bgResumed

end restored

/-! ### The spare serves (R609 step 3, R611, R614) -/

/-- ENGINE_SUBSTITUTED, and the affected contexts in the events and registers (R620, R621). -/
def Hub.contextsTold (h : Hub) (n old new : Nat) : Hub :=
  iter 16 (fun w g => g.setReg (kSub w) ((h.sub.affected.filter fun c => c.1 / 16 == w).map fun c => 2 ^ (c.1 % 16)).sum)
    (h.sub.affected.foldl (fun g c => g.issue 245 2 c.1 n c.2) (h.issue 245 1 n (16 * old + new) h.sub.affected.length))

/-- The registers of the last substitution (R620). -/
def Hub.substNoted (h : Hub) (n old new : Nat) : Hub :=
  let g := (h.addWrap (kSub 0x10) 2 1).setReg 0x79 (4096 * n + 256 * new + 16 * old + (h.engine n).run.failCause)
  (g.setReg 0x7A g.sub.us.toNat).setFlag 0x7B

theorem Hub.substituted_eq (h : Hub) (n old new : Nat) : h.substituted n old new =
    (((h.contextsTold n old new).substNoted n old new).modSub fun s => { s with active := none, ready := false, affected := [] }).serveLost := rfl

theorem Hub.Reported.contextsTold (h : Hub) (n old new : Nat) : h.Reported (h.contextsTold n old new) := by
  have told := ((Hub.Reported.refl h).issue 245 1 n (16 * old + new) h.sub.affected.length).foldl
    (f := fun g c => g.issue 245 2 c.1 n c.2) (fun g _ => (Hub.Reported.refl g).issue _ _ _ _ _) h.sub.affected
  exact iter_keeps (P := h.Reported) (fun _ _ r => r.setReg _ _) 16 told

theorem Hub.Reported.substNoted (h : Hub) (n old new : Nat) : h.Reported (h.substNoted n old new) :=
  (((((Hub.Reported.refl h).addWrap _ _ _).setReg _ _).setReg _ _).setFlag _)

/-- The registers of the last substitution hold what it was (R620). -/
theorem Hub.substNoted_words (h : Hub) {n old new : Nat} (engine : n < 16) (retired : old < 16) (spare : new < 16)
    (cause : (h.engine n).run.failCause < 16) :
    (h.substNoted n old new).reg 0x79 = 4096 * n + 256 * new + 16 * old + (h.engine n).run.failCause ∧
    (h.substNoted n old new).reg 0x7A = h.sub.us.toNat ∧ (h.substNoted n old new).flag 0x7B = true := by
  have us : (h.addWrap (kSub 0x10) 2 1).sub = h.sub := ((Hub.Reported.refl h).addWrap _ _ _).sub
  refine ⟨?_, ?_, Hub.flag_setFlag _ _⟩
  · rw [Hub.substNoted, Hub.setFlag, Hub.reg_setReg_other _ _ (by decide), Hub.reg_setReg_other _ _ (by decide), Hub.reg_setReg_same,
      Nat.mod_eq_of_lt (by omega)]
  · rw [Hub.substNoted, Hub.setFlag, Hub.reg_setReg_other _ _ (by decide), Hub.reg_setReg_same, Hub.setReg_sub, us, Nat.mod_eq_of_lt (BitVec.isLt _)]

/-- The restored engine serves again. -/
def Engine.serving (e : Engine) (spen : Bool) : Engine :=
  { e with st := .normal,
           run := { e.run with spen := spen, misses := 0, raised := false, gap := e.run.misses + e.run.gap, fade := 1, lost := false } }

theorem Hub.serve_eq (h : Hub) (n : Nat) (spen : Bool) : h.serve n spen = h.modEng n fun e => e.serving spen := rfl

/-- Serving changes neither the memory of a restored engine nor what it waits for. -/
theorem Engine.Rebuilt.serving {e₀ e : Engine} (r : e₀.Rebuilt e) (spen : Bool) :
    ((e.serving spen).prog = e₀.image.prog ∧ (e.serving spen).y = e₀.image.y ∧ (e.serving spen).x = [] ∧ (e.serving spen).xVoid = [] ∧
      (e.serving spen).walk = []) ∧
    (e.serving spen).run.inprog = false ∧ (e.serving spen).fore.held = [] ∧ (e.serving spen).run.failCause = e₀.run.failCause :=
  ⟨⟨r.prog, r.y, r.x, r.xVoid, r.walk⟩, r.inprog, r.held, r.failCause⟩

/-- The engines outlast the report of a substitution (R620, R621). -/
theorem Hub.Reported.told (h : Hub) (n old new : Nat) : h.Reported ((h.contextsTold n old new).substNoted n old new) :=
  (Hub.Reported.contextsTold h n old new).trans (Hub.Reported.substNoted _ n old new)

/-- Where no engine is lost, the next substitution waits for its declaration. -/
theorem Hub.substituted_whole {h : Hub} {n old new : Nat} (whole : ∀ m : Fin 16, (h.engine m).st ≠ .failed) : h.substituted n old new =
    ((h.contextsTold n old new).substNoted n old new).modSub fun s => { s with active := none, ready := false, affected := [] } := by
  rw [Hub.substituted_eq, Hub.serveLost_whole fun m => ?_]
  have same := (Hub.Reported.told h n old new).engine m
  rw [← Hub.engine_congr (Hub.modSub_engs ((h.contextsTold n old new).substNoted n old new) _)] at same
  rw [same]
  exact whole m

/-- An engine that runs and waits for nothing is not tried again. -/
theorem Hub.kick_idle {h : Hub} {n : Nat} (stopped : (h.engine n).run.inprog = false) (free : (h.engine n).fore.held = []) : h.kick n = h := by
  have sample : h.kickSample n false = h := by
    rw [Hub.kickSample, stopped, Bool.not_false, Bool.or_true, if_pos rfl]
  rw [Hub.kick, sample, Hub.kickBg, free]

/-- The image is in place, and the time from the declaration on is known. -/
def Hub.imageDone (h : Hub) (n : Nat) (us : Word) : Hub := (h.restore n).modSub fun s => { s with us := us }

/-- With SPEN 1 in the image the first program is armed; with SPEN 0 the substitution is complete. -/
def Hub.armedOrServed (h : Hub) (n old new : Nat) : Hub :=
  if bit (h.reg (kSe n 0x100)) 15 then h.modSub fun s => { s with ready := true }
  else ((h.serve n false).substituted n old new).kick n

section done
variable {h : Hub} {n : Fin 16} {us : Word}

theorem Hub.imageDone_sub : (h.imageDone n us).sub = { h.sub with us := us } := by
  rw [Hub.imageDone, Hub.modSub_sub, (h.restore_restored n).sub]

theorem Hub.imageDone_engine (m : Nat) : (h.imageDone n us).engine m = (h.restore n).engine m := Hub.engine_congr (Hub.modSub_engs ..) m

theorem Hub.imageDone_rebuilt : (h.engine n).Rebuilt ((h.imageDone n us).engine n) := by
  rw [Hub.imageDone_engine]
  exact (h.restore_restored n).own

/-- SPEN of the engine is SPEN of the image. -/
theorem Hub.imageDone_spen : bit ((h.imageDone n us).reg (kSe n 0x100)) 15 = bit (tget imageReset (h.engine n).image.regs 0x40100).toNat 15 := by
  rw [Hub.imageDone, Hub.reg_congr (Hub.modSub_regs ..), (h.restore_restored n).word]

/-- The memory of a restored engine is the image's. -/
theorem Engine.Rebuilt.got {e₀ e : Engine} (r : e₀.Rebuilt e) :
    e.prog = e₀.image.prog ∧ e.y = e₀.image.y ∧ e.x = [] ∧ e.xVoid = [] ∧ e.walk = [] := ⟨r.prog, r.y, r.x, r.xVoid, r.walk⟩

theorem Hub.serve_whole (whole : ∀ m : Fin 16, (h.engine m).st ≠ .failed) (m : Fin 16) :
    (((h.imageDone n us).serve n false).engine m).st ≠ .failed := by
  rw [Hub.serve_eq]
  by_cases own : m = n
  · subst own
    rw [Hub.engine_modEng_same]
    exact EngSt.noConfusion
  · have other : m.val ≠ n.val := fun same => own (Fin.ext same)
    rw [Hub.engine_modEng_other _ _ other, Hub.imageDone_engine, (h.restore_restored n).others m other]
    exact whole m

end done

section obligations
variable {s : State} (live : s.live = true) {n : Fin 16} {old new : Nat} (active : s.hub.sub.active = some (n.val, old, new))
  (waits : s.hub.sub.ready = false) (us : Word)
include live active waits

theorem exec_spareRestored : exec (.spareRestored n us) s = .next (s.withHub ((s.hub.imageDone n us).armedOrServed n old new)) := by
  have turn : ¬ (n.val ≠ n.val ∨ s.hub.sub.ready = true) := by simp [waits]
  refine (State.onHub_next live fun h => h.restored n us).trans (congrArg (fun h => Host.Outcome.next (s.withHub h)) ?_)
  rw [Hub.restored, active]
  exact if_neg turn

/-- With SPEN 1 in the image the engine has its memory and waits for its first program (R610, R611). -/
theorem spareRestored_arms (spen : bit (tget imageReset (s.hub.engine n).image.regs 0x40100).toNat 15 = true) :
    ∃ t, exec (.spareRestored n us) s = .next t ∧ t.hub.sub.ready = true ∧ t.hub.sub.us = us ∧ t.hub.sub.active = some (n.val, old, new) ∧
      (s.hub.engine n).Rebuilt (t.hub.engine n) := by
  refine ⟨_, exec_spareRestored live active waits us, ?_⟩
  rw [Hub.armedOrServed, Hub.imageDone_spen, if_pos spen, Hub.engine_congr (Hub.modSub_engs ..), Hub.modSub_sub, Hub.imageDone_sub]
  exact ⟨rfl, rfl, active, Hub.imageDone_rebuilt⟩

/-- With SPEN 0 the substitution is complete (R609, R620). -/
theorem spareRestored_serves (spen : bit (tget imageReset (s.hub.engine n).image.regs 0x40100).toNat 15 = false) (retired : old < 16)
    (spare : new < 16) (cause : (s.hub.engine n).run.failCause < 16) (whole : ∀ m : Fin 16, (s.hub.engine m).st ≠ .failed) :
    ∃ t, exec (.spareRestored n us) s = .next t ∧ t.hub.sub.active = none ∧ (t.hub.engine n).st = .normal ∧
      t.hub.reg 0x79 = 4096 * n + 256 * new + 16 * old + (s.hub.engine n).run.failCause ∧ t.hub.reg 0x7A = us.toNat ∧ t.hub.flag 0x7B = true ∧
      (t.hub.engine n).prog = (s.hub.engine n).image.prog ∧ (t.hub.engine n).y = (s.hub.engine n).image.y ∧ (t.hub.engine n).x = [] ∧
      (t.hub.engine n).xVoid = [] ∧ (t.hub.engine n).walk = [] := by
  obtain ⟨got, stopped, free, restored⟩ := (Hub.imageDone_rebuilt (h := s.hub) (n := n) (us := us)).serving false
  have serving : ((s.hub.imageDone n us).serve n false).engine n = ((s.hub.imageDone n us).engine n).serving false := by
    rw [Hub.serve_eq, Hub.engine_modEng_same]
  have told := Hub.Reported.contextsTold ((s.hub.imageDone n us).serve n false) n old new
  have own := ((Hub.Reported.told ((s.hub.imageDone n us).serve n false) n old new).engine n).trans serving
  have failCause : ((((s.hub.imageDone n us).serve n false).contextsTold n old new).engine n).run.failCause = (s.hub.engine n).run.failCause := by
    rw [told.engine, serving, restored]
  have time : (((s.hub.imageDone n us).serve n false).contextsTold n old new).sub.us = us := by
    rw [told.sub, Hub.serve_eq, Hub.modEng, Hub.setEng_sub, Hub.imageDone_sub]
  obtain ⟨identity, elapsed, flag⟩ := Hub.substNoted_words _ n.isLt retired spare (by rw [failCause]; exact cause)
  rw [failCause] at identity
  rw [time] at elapsed
  refine ⟨_, exec_spareRestored live active waits us, ?_⟩
  rw [Hub.armedOrServed, Hub.imageDone_spen, if_neg (by rw [spen]; decide), Hub.substituted_whole (Hub.serve_whole whole), Hub.kick_idle,
    Hub.modSub_sub, Hub.engine_congr (Hub.modSub_engs ..), Hub.reg_congr (Hub.modSub_regs ..), Hub.reg_congr (Hub.modSub_regs ..),
    Hub.flag_congr (Hub.modSub_regs ..), own]
  · exact ⟨rfl, rfl, identity, elapsed, flag, got⟩
  · rw [Hub.engine_congr (Hub.modSub_engs ..), own]
    exact stopped
  · rw [Hub.engine_congr (Hub.modSub_engs ..), own]
    exact free

end obligations

/-- Settles O18: each command of a substitution with what the next state holds. -/
theorem spareCommandsComplete : Obligations.SpareCommandsComplete := by
  refine ⟨?reserve, ?retire, ?restore⟩
  case reserve =>
    intro s w live whole old l names runs newly releases busy same
    have refused : s.hub.spareRefused w.toNat = true ↔ newly ∨ releases ∨ busy ∨ same :=
      (s.hub.spareRefused_iff w.toNat).trans (or_congr (exists_congr fun _ => Hub.spareNewly_iff)
        (or_congr (exists_congr fun _ => Hub.spareReleases_iff) Iff.rfl))
    obtain ⟨taken, told⟩ := spareReserve_completes live w whole
    exact ⟨fun free => taken (Bool.eq_false_iff.2 fun yes => free (refused.1 yes)), fun yes => told (refused.2 yes)⟩
  case retire =>
    intro s n live idle first failing
    exact ⟨fun k there before => engineRetired_substitutes live idle first failing k there before,
      engineRetired_loses live idle first failing⟩
  case restore =>
    intro s n us old new live active waits img spen got
    refine ⟨fun runs => ?_, spareRestored_serves live active waits us⟩
    obtain ⟨t, next, ready, time, still, rebuilt⟩ := spareRestored_arms live active waits us runs
    exact ⟨t, next, ready, time, still, rebuilt.got⟩

/-- Settles O17: the three commands of a substitution, as the steps of R609 make the hub. -/
theorem substitutionAnswers : Obligations.SubstitutionAnswers := by
  refine ⟨?reserve, ?retire, ?restore⟩
  case reserve =>
    intro s w live taken old used
    have sum : (w.toNat &&& 0x8F8F) + used = spareWord old w.toNat := (Nat.add_assoc ..).symm
    rw [exec_spareReserve live, Hub.spareWrite_taken taken, sum]
  case retire =>
    intro s n k live idle first failing pe h₁ h₂ h₃ h
    have turn := (exec_engineRetired live n).trans
      (congrArg (fun h => Host.Outcome.next (s.withHub h)) (Hub.retire_turn idle first failing))
    have left : s.hub.retiring n = h := rfl
    rw [left] at turn
    refine ⟨fun spare => ?_, fun noSpare => ⟨_, turn, ?_⟩⟩
    · rw [turn, Hub.spareOrLoss_spare spare]
    · rw [Hub.spareOrLoss_lost noSpare, Hub.engine_calDropped, Hub.engine_losing]
  case restore =>
    intro s n us old new live active waits h
    have done := exec_spareRestored live active waits us
    refine ⟨fun spen => ?_, fun spen => ?_⟩
    · rw [done, Hub.armedOrServed]
      exact congrArg (fun h => Host.Outcome.next (s.withHub h)) (if_pos spen)
    · rw [done, Hub.armedOrServed]
      exact congrArg (fun h => Host.Outcome.next (s.withHub h)) (if_neg (Bool.eq_false_iff.1 spen))

end Sys2Proof.Machine
end

section
/-! PROOF. The operand forms: what the fields and reserved bits of [19:0] of a slot word read back as (O20). -/

namespace Sys2Proof.Machine

/-! ### Digits of a number (R7) -/

theorem b2n_bit (n i : Nat) : b2n (bit n i) = n / 2 ^ i % 2 := by
  rw [← bits_single, bits, Nat.sub_self, zero_add, pow_one]

theorem bit_of_digit {n i : Nat} {b : Bool} (digit : n / 2 ^ i % 2 = b2n b) : bit n i = b :=
  b2n_injective ((b2n_bit n i).trans digit)

theorem fin_of_digit {k n : Nat} [NeZero k] {x : Fin k} (digit : n % k = x) : Fin.ofNat k n = x := Fin.ext digit

theorem word_of_digits {w n : Nat} {x : BitVec w} (digits : n % 2 ^ w = x.toNat) : BitVec.ofNat w n = x :=
  BitVec.eq_of_toNat_eq ((BitVec.toNat_ofNat n w).trans digits)

/-- A field of a number where it stands. -/
theorem and_field (n lo w : Nat) : n &&& (2 ^ w - 1) * 2 ^ lo = n / 2 ^ lo % 2 ^ w * 2 ^ lo := by
  refine Nat.eq_of_testBit_eq fun i => ?_
  simp only [Nat.testBit_and, Nat.testBit_mul_two_pow, Nat.testBit_two_pow_sub_one, Nat.testBit_mod_two_pow, Nat.testBit_div_two_pow]
  by_cases low : lo ≤ i
  · rw [Nat.sub_add_cancel low, decide_eq_true low]
    simp [Bool.and_comm]
  · simp [low]

/-- The bits of a number outside a mask are 0 where the mask keeps the number. -/
theorem and_compl_eq_zero {k r m : Nat} (small : r < 2 ^ k) (mask : m < 2 ^ k) : r &&& (2 ^ k - 1 - m) = 0 ↔ r &&& m = r := by
  have outside : ∀ i, (r &&& (2 ^ k - 1 - m)).testBit i = (r.testBit i && !m.testBit i) := fun i => by
    rw [Nat.testBit_and, Nat.sub_sub, Nat.add_comm 1 m, Nat.testBit_two_pow_sub_succ mask]
    by_cases low : i < k
    · simp [low]
    · simp [Nat.testBit_lt_two_pow (small.trans_le (Nat.pow_le_pow_right (by decide) (Nat.le_of_not_lt low)))]
  have kept : ∀ i, (r &&& m).testBit i = (r.testBit i && m.testBit i) := fun i => Nat.testBit_and ..
  constructor <;> intro same <;> refine Nat.eq_of_testBit_eq fun i => ?_
  · have here := outside i
    rw [same, Nat.zero_testBit] at here
    rw [kept]
    revert here
    cases r.testBit i <;> cases m.testBit i <;> decide
  · have here := kept i
    rw [same] at here
    rw [outside, Nat.zero_testBit]
    revert here
    cases r.testBit i <;> cases m.testBit i <;> decide

/-! ### Forms (R189) -/

/-- The operand bits `bits` of fields that `of` reads, in a form that reserves the bits of `mask`: fields and reserved bits read
back, and every operand word is its fields and its reserved bits. -/
structure Form {α : Type} (bits : α → Nat) (of : Nat → α) (mask : Nat) : Prop where
  of_bits : ∀ f r, r &&& mask = r → of (bits f + r) = f
  reserved : ∀ f r, r &&& mask = r → (bits f + r) &&& mask = r
  whole : ∀ w < 2 ^ 20, bits (of w) + (w &&& mask) = w
  lt : ∀ f r, r &&& mask = r → bits f + r < 2 ^ 20

/-- A form whose reserved bits are the field of width `k` from bit `lo` on. -/
theorem Form.field {α : Type} {bits : α → Nat} {of : Nat → α} (lo k : Nat) (back : ∀ f, ∀ r < 2 ^ k, of (bits f + r * 2 ^ lo) = f)
    (apart : ∀ f, ∀ r < 2 ^ k, (bits f + r * 2 ^ lo) / 2 ^ lo % 2 ^ k = r)
    (whole : ∀ w < 2 ^ 20, bits (of w) + w / 2 ^ lo % 2 ^ k * 2 ^ lo = w)
    (lt : ∀ f, ∀ r < 2 ^ k, bits f + r * 2 ^ lo < 2 ^ 20) : Form bits of ((2 ^ k - 1) * 2 ^ lo) := by
  have digits : ∀ r, r &&& (2 ^ k - 1) * 2 ^ lo = r → ∃ d < 2 ^ k, r = d * 2 ^ lo := fun r kept =>
    ⟨_, Nat.mod_lt _ (Nat.two_pow_pos k), kept.symm.trans (and_field r lo k)⟩
  refine ⟨fun f r kept => ?_, fun f r kept => ?_, fun w small => ?_, fun f r kept => ?_⟩
  case refine_3 => rw [and_field, whole w small]
  all_goals obtain ⟨d, bound, rfl⟩ := digits r kept
  · exact back f d bound
  · rw [and_field, apart f d bound]
  · exact lt f d bound

/-- A form that reserves no bits. -/
theorem Form.unreserved {α : Type} {bits : α → Nat} {of : Nat → α} (back : ∀ f, of (bits f) = f) (whole : ∀ w < 2 ^ 20, bits (of w) = w)
    (lt : ∀ f, bits f < 2 ^ 20) : Form bits of 0 where
  of_bits f r kept := by rw [← kept, Nat.and_zero, Nat.add_zero, back]
  reserved f r kept := by rw [Nat.and_zero]; exact (Nat.and_zero r).symm.trans kept
  whole w small := by rw [Nat.and_zero, Nat.add_zero, whole w small]
  lt f r kept := by rw [← kept, Nat.and_zero, Nat.add_zero]; exact lt f

theorem MM.form : Form MM.bits MM.of 0 := by
  refine .unreserved (fun f => ?_) (fun w small => ?_) fun f => ?_
  · obtain ⟨ad, sa, sb, sat, rm, sg, aux⟩ := f
    have := b2n_le sat
    have := b2n_le rm
    simp only [MM.of, MM.bits, MM.mk.injEq]
    refine ⟨fin_of_digit ?_, fin_of_digit ?_, fin_of_digit ?_, bit_of_digit ?_, bit_of_digit ?_, fin_of_digit ?_, word_of_digits ?_⟩ <;> omega
  · simp only [MM.of, MM.bits, b2n_bit, Fin.val_ofNat, BitVec.toNat_ofNat]
    omega
  · have := b2n_le f.sat
    have := b2n_le f.rm
    unfold MM.bits
    omega

theorem XR.form : Form XR.bits XR.of 0 := by
  refine .unreserved (fun f => ?_) (fun w small => ?_) fun f => ?_
  · obtain ⟨dst, sa, sb, sat, rm, fn, ax⟩ := f
    have := b2n_le sat
    have := b2n_le rm
    simp only [XR.of, XR.bits, XR.mk.injEq]
    refine ⟨fin_of_digit ?_, fin_of_digit ?_, fin_of_digit ?_, bit_of_digit ?_, bit_of_digit ?_, fin_of_digit ?_, fin_of_digit ?_⟩ <;> omega
  · simp only [XR.of, XR.bits, b2n_bit, Fin.val_ofNat]
    omega
  · have := b2n_le f.sat
    have := b2n_le f.rm
    unfold XR.bits
    omega

theorem TI.form : Form TI.bits TI.of 0 := by
  refine .unreserved (fun f => ?_) (fun w small => ?_) fun f => ?_
  · obtain ⟨dst, imm⟩ := f
    simp only [TI.of, TI.bits, TI.mk.injEq]
    refine ⟨fin_of_digit ?_, word_of_digits ?_⟩ <;> omega
  · simp only [TI.of, TI.bits, Fin.val_ofNat, BitVec.toNat_ofNat]
    omega
  · unfold TI.bits
    omega

theorem XE.form : Form XE.bits XE.of 0 := by
  refine .unreserved (fun f => ?_) (fun w small => ?_) fun f => ?_
  · obtain ⟨dst, sa, arg⟩ := f
    simp only [XE.of, XE.bits, XE.mk.injEq]
    refine ⟨fin_of_digit ?_, fin_of_digit ?_, word_of_digits ?_⟩ <;> omega
  · simp only [XE.of, XE.bits, Fin.val_ofNat, BitVec.toNat_ofNat]
    omega
  · unfold XE.bits
    omega

theorem TM.form : Form TM.bits TM.of 0 := by
  refine .unreserved (fun f => ?_) (fun w small => ?_) fun f => ?_
  · obtain ⟨dr, pr, ms, w, am, ofs⟩ := f
    have := b2n_le ms
    have := b2n_le w
    simp only [TM.of, TM.bits, TM.mk.injEq]
    refine ⟨fin_of_digit ?_, fin_of_digit ?_, bit_of_digit ?_, bit_of_digit ?_, fin_of_digit ?_, word_of_digits ?_⟩ <;> omega
  · simp only [TM.of, TM.bits, b2n_bit, Fin.val_ofNat, BitVec.toNat_ofNat]
    omega
  · have := b2n_le f.ms
    have := b2n_le f.w
    unfold TM.bits
    omega

theorem TF.form : Form TF.bits TF.of 0 := by
  refine .unreserved (fun f => ?_) (fun w small => ?_) fun f => ?_
  · obtain ⟨fa, px, nm1, aux⟩ := f
    simp only [TF.of, TF.bits, TF.mk.injEq]
    refine ⟨fin_of_digit ?_, fin_of_digit ?_, word_of_digits ?_, word_of_digits ?_⟩ <;> omega
  · simp only [TF.of, TF.bits, Fin.val_ofNat, BitVec.toNat_ofNat]
    omega
  · unfold TF.bits
    omega

theorem KR.form : Form KR.bits KR.of 0x30000 := by
  refine .field 16 2 (fun f r small => ?_) (fun f r small => ?_) (fun w small => ?_) fun f r small => ?_
  · obtain ⟨n, rs, cr, cm1⟩ := f
    have := b2n_le n
    have := b2n_le rs
    simp only [KR.of, KR.bits, KR.mk.injEq]
    refine ⟨bit_of_digit ?_, bit_of_digit ?_, fin_of_digit ?_, word_of_digits ?_⟩ <;> omega
  · unfold KR.bits
    omega
  · simp only [KR.of, KR.bits, b2n_bit, Fin.val_ofNat, BitVec.toNat_ofNat]
    omega
  · have := b2n_le f.n
    have := b2n_le f.rs
    unfold KR.bits
    omega

theorem KW.form : Form KW.bits KW.of 0x3FF0 := by
  refine .field 4 10 (fun f r small => ?_) (fun f r small => ?_) (fun w small => ?_) fun f r small => ?_
  · obtain ⟨cr, dom, ev⟩ := f
    simp only [KW.of, KW.bits, KW.mk.injEq]
    refine ⟨fin_of_digit ?_, fin_of_digit ?_, fin_of_digit ?_⟩ <;> omega
  · unfold KW.bits
    omega
  · simp only [KW.of, KW.bits, Fin.val_ofNat]
    omega
  · unfold KW.bits
    omega

/-- The target of CALL and BR (form KT). -/
theorem form_target : Form (fun t : BitVec 15 => t.toNat) (BitVec.ofNat 15) 0xF8000 := by
  refine .field 15 5 (fun t r small => word_of_digits ?_) (fun t r small => ?_) (fun w small => ?_) fun t r small => ?_
  case refine_3 => rw [BitVec.toNat_ofNat]; omega
  all_goals omega

/-- The count and the length of DO (form KD). -/
theorem form_do : Form (fun p : BitVec 12 × Byte => p.1.toNat * 2 ^ 8 + p.2.toNat) (fun w => (BitVec.ofNat 12 (w / 2 ^ 8), BitVec.ofNat 8 w)) 0 := by
  refine .unreserved (fun ⟨cm1, ofs⟩ => Prod.ext (word_of_digits ?_) (word_of_digits ?_)) (fun w small => ?_) fun ⟨cm1, ofs⟩ => ?_
  case refine_3 => simp only [BitVec.toNat_ofNat]; omega
  all_goals dsimp only; omega

/-- No field (form KC). -/
theorem form_none : Form (fun _ : Unit => 0) (fun _ => ()) 0xFFFFF := by
  refine .field 0 20 (fun f r small => rfl) (fun f r small => ?_) (fun w small => ?_) fun f r small => ?_ <;> omega

end Sys2Proof.Machine
end

section
/-! PROOF. Slot words decode to the operation they encode, and back (O20). -/

namespace Sys2Proof.Machine

/-! ### The slot word (R182) -/

/-- The fields of a slot word, as a number. -/
def slotNat (hd : Hdr) (cl opc ops : Nat) : Nat :=
  b2n hd.s * 2 ^ 31 + cl * 2 ^ 29 + b2n hd.pe * 2 ^ 28 + b2n hd.pn * 2 ^ 27 + hd.pf * 2 ^ 25 + opc * 2 ^ 20 + ops

/-- The head that a slot word spells where the operand bits of `mask` are reserved. -/
def slotHead (w mask : Nat) : Hdr :=
  { s := bit w 31, pe := bit w 28, pn := bit w 27, pf := Fin.ofNat 4 (w / 2 ^ 25), rsv := BitVec.ofNat 20 (w % 2 ^ 20 &&& mask) }

section fields
variable {hd : Hdr} {cl opc ops : Nat} (inClass : cl < 4) (code : opc < 32) (operands : ops < 2 ^ 20)
include inClass code operands

theorem slotNat_lt : slotNat hd cl opc ops < 2 ^ 32 := by
  have := b2n_le hd.s
  have := b2n_le hd.pe
  have := b2n_le hd.pn
  unfold slotNat
  omega

theorem slotNat_codes : bits (slotNat hd cl opc ops) 30 29 = cl ∧ bits (slotNat hd cl opc ops) 24 20 = opc ∧
    slotNat hd cl opc ops % 2 ^ 20 = ops := by
  have := b2n_le hd.pe
  have := b2n_le hd.pn
  unfold slotNat bits
  omega

/-- The head reads back where ECC has found nothing in the words. -/
theorem slotHead_slotNat {mask : Nat} (fetch : hd.fetch = .ok) (reads : hd.reads = []) (rsv : ops &&& mask = hd.rsv.toNat) :
    slotHead (slotNat hd cl opc ops) mask = hd := by
  obtain ⟨-, -, low⟩ := slotNat_codes (hd := hd) inClass code operands
  obtain ⟨s, pe, pn, pf, r, f, l⟩ := hd
  cases fetch
  cases reads
  have := b2n_le s
  have := b2n_le pe
  have := b2n_le pn
  simp only [slotHead, low, rsv, Hdr.mk.injEq, and_true]
  unfold slotNat
  refine ⟨bit_of_digit ?_, bit_of_digit ?_, bit_of_digit ?_, fin_of_digit ?_, word_of_digits (Nat.mod_eq_of_lt r.isLt)⟩ <;> dsimp only <;> omega

end fields

/-- A slot word is its fields. -/
theorem slotNat_slotHead (w : BitVec 32) (mask : Nat) :
    slotNat (slotHead w.toNat mask) (bits w.toNat 30 29) (bits w.toNat 24 20) (w.toNat % 2 ^ 20) = w.toNat := by
  simp only [slotNat, slotHead, b2n_bit, bits, Fin.val_ofNat]
  omega

/-! ### Operations and their fields (R189, R191) -/

/-- What stands behind the first slot word of an operation (R184). -/
def literal (i : Instr) : List (BitVec 32) := match i with | .call _ _ hd _ lit => if hd.s then [] else [lit] | _ => []

theorem slotWords_operation {i : Instr} {hd : Hdr} {c : Cls} (slot : opSlot i = some (hd, c)) :
    slotWords i = BitVec.ofNat 32 (slotNat hd c.code (opCode i).1 ((opCode i).2 + hd.rsv.toNat)) :: literal i := by
  unfold slotWords
  rw [slot]
  rfl

/-- A CALL word that ends its bundle takes no literal (R184). -/
def literalOk : Instr → Bool
  | .call _ _ hd _ lit => !hd.s || lit == 0
  | _ => true

theorem wf_operation {i : Instr} {hd : Hdr} {c : Cls} (slot : opSlot i = some (hd, c)) : i.wf = (hd.wf i && literalOk i) := by
  cases i <;> cases slot
  case call => rfl
  all_goals exact (Bool.and_true _).symm

/-- The reserved bits of a head that its operation admits. -/
theorem Hdr.wf_iff (hd : Hdr) (i : Instr) : hd.wf i = true ↔ hd.rsv.toNat &&& rsvMask i = hd.rsv.toNat := by
  have mask : rsvMask i < 2 ^ 20 := by
    unfold rsvMask
    split <;> decide
  rw [Hdr.wf, beq_iff_eq]
  exact and_compl_eq_zero hd.rsv.isLt mask

/-- `i` is an operation of engine `n` with head `hd` in class `c`, and holds no more than its slot words hold: END no answers of
its output stage, CALL the literal word that follows, or none behind a stop bit. -/
structure Operation (n : Fin 16) (bg : Bool) (hd : Hdr) (c : Cls) (lit : BitVec 32) (i : Instr) : Prop where
  home : opHome i = some (n, bg)
  slot : opSlot i = some (hd, c)
  ended : ∀ x, i = .opEnd n bg hd x → x = ⟨0, 0⟩
  told : ∀ t l, i = .call n bg hd t l → l = if hd.s then 0 else lit

section operation
variable {n : Fin 16} {bg : Bool} {hd : Hdr} {c : Cls} {lit : BitVec 32} {i : Instr} (op : Operation n bg hd c lit i)
include op

/-- An operation is made of the fields of its form, which the opcode map reads from its operand word. -/
theorem Operation.spelling : ∃ (α : Type) (bits : α → Nat) (of : Nat → α) (mk : α → Instr) (f : α),
    Form bits of (rsvMask i) ∧ mk f = i ∧ (∀ f, (opCode (mk f)).2 = bits f) ∧ ∀ w, opOf n bg hd c.code (opCode i).1 w lit = some (mk (of w)) := by
  obtain ⟨home, slot, ended, told⟩ := op
  cases i <;> cases slot <;> cases home
  case xlOpcode op f =>
    have map : ∀ w, opOf n bg hd 1 (0x18 + op) w lit = some (.xlOpcode n bg hd op (.of w)) := fun w => by fin_cases op <;> rfl
    exact ⟨_, _, _, _, f, XE.form, rfl, fun _ => rfl, map⟩
  case opEnd x =>
    cases ended x rfl
    exact ⟨_, _, _, fun _ => _, (), form_none, rfl, fun _ => rfl, fun _ => rfl⟩
  case call t l =>
    cases told t l rfl
    exact ⟨_, _, _, (Instr.call n bg hd · _), t, form_target, rfl, fun _ => rfl, fun _ => rfl⟩
  case opDo cm1 ofs => exact ⟨_, _, _, fun p => .opDo n bg hd p.1 p.2, (cm1, ofs), form_do, rfl, fun _ => by unfold opCode; rfl, fun _ => rfl⟩
  case opNop | dor | ret | wfc | acstb => exact ⟨_, _, _, fun _ => _, (), form_none, rfl, fun _ => rfl, fun _ => rfl⟩
  case br => exact ⟨_, _, _, _, _, form_target, rfl, fun _ => rfl, fun _ => rfl⟩
  case opRep => exact ⟨_, _, _, _, _, KR.form, rfl, fun _ => rfl, fun _ => rfl⟩
  case wfe | sev | wtc => exact ⟨_, _, _, _, _, KW.form, rfl, fun _ => rfl, fun _ => rfl⟩
  case mpy | mac | msu | mpyd | macd | msud | aclr | ashf | aadd | asub => exact ⟨_, _, _, _, _, MM.form, rfl, fun _ => rfl, fun _ => rfl⟩
  case alu | shf | cmp | opExt | ins | acs | dalu | opMov | brp => exact ⟨_, _, _, _, _, XR.form, rfl, fun _ => rfl, fun _ => rfl⟩
  case asrcPut | asrcGet | asrcStatus | fftSubmit | fftPoll | correlatorSubmit | correlatorPoll | versionQuery =>
    exact ⟨_, _, _, _, _, XE.form, rfl, fun _ => rfl, fun _ => rfl⟩
  case ld | st | modp | push | pop => exact ⟨_, _, _, _, _, TM.form, rfl, fun _ => rfl, fun _ => rfl⟩
  case fld | fst => exact ⟨_, _, _, _, _, TF.form, rfl, fun _ => rfl, fun _ => rfl⟩
  case ldx | ldi | ldip | ldio | ldib | ldil | ldir => exact ⟨_, _, _, _, _, TI.form, rfl, fun _ => rfl, fun _ => rfl⟩

/-- The opcode map reads an operation back from its opcode and operand bits. -/
theorem Operation.reads {r : Nat} (kept : r &&& rsvMask i = r) : opOf n bg hd c.code (opCode i).1 ((opCode i).2 + r) lit = some i := by
  obtain ⟨α, bits, of, mk, f, form, rfl, operands, map⟩ := op.spelling
  rw [map, operands, form.of_bits f r kept]

/-- The operand bits of an operation and the reserved bits share no place. -/
theorem Operation.reserved {r : Nat} (kept : r &&& rsvMask i = r) :
    ((opCode i).2 + r) &&& rsvMask i = r ∧ (opCode i).2 + r < 2 ^ 20 := by
  obtain ⟨α, bits, of, mk, f, form, rfl, operands, -⟩ := op.spelling
  rw [operands]
  exact ⟨form.reserved f r kept, form.lt f r kept⟩

/-- An operand word is the fields of the operation it spells and the bits that its form reserves. -/
theorem Operation.whole {w : Nat} (spells : opOf n bg hd c.code (opCode i).1 w lit = some i) (small : w < 2 ^ 20) :
    (opCode i).2 + (w &&& rsvMask i) = w := by
  obtain ⟨α, bits, of, mk, f, form, rfl, operands, map⟩ := op.spelling
  have same : mk (of w) = mk f := Option.some.inj ((map w).symm.trans spells)
  calc (opCode (mk f)).2 + (w &&& rsvMask (mk f)) = bits (of w) + (w &&& rsvMask (mk f)) := by rw [← operands, same]
    _ = w := form.whole w small

theorem Operation.literalOk : literalOk i = true := by
  obtain ⟨home, slot, -, told⟩ := op
  unfold Machine.literalOk
  split
  · next t l =>
    cases home
    cases slot
    rw [told t l rfl]
    cases hd.s <;> simp
  · rfl

end operation

section spelled
variable {n : Fin 16} {bg : Bool} {hd : Hdr} {cl opc w : Nat} {lit : BitVec 32} {i : Instr} (spells : opOf n bg hd cl opc w lit = some i)
include spells

/-- An opcode spells an operation of the engine and mode it is read for, with its head, in its class. -/
theorem opOf_operation : ∃ c, Operation n bg hd c lit i ∧ c.code = cl ∧ (opCode i).1 = opc := by
  unfold opOf at spells
  split at spells <;> cases spells <;>
    exact ⟨_, ⟨rfl, rfl, by rintro _ ⟨⟩ <;> rfl, by rintro _ _ ⟨⟩ <;> rfl⟩, rfl, rfl⟩

theorem opOf_codes : cl < 4 ∧ opc < 32 := by
  unfold opOf at spells
  split at spells <;> cases spells <;> decide

/-- The form of an opcode does not depend on the head. -/
theorem opOf_head (hd' : Hdr) : ∃ j, opOf n bg hd' cl opc w lit = some j ∧ rsvMask j = rsvMask i := by
  unfold opOf at spells ⊢
  split at spells <;> cases spells <;> exact ⟨_, rfl, rfl⟩

end spelled

/-- Whether an opcode spells an operation does not depend on the rest of the word. -/
theorem opOf_isSome (n : Fin 16) (bg : Bool) (hd : Hdr) (cl opc w : Nat) (lit : BitVec 32) :
    (∃ i, opOf n bg hd cl opc w lit = some i) ↔ (opOf 0 false (slotHead 0 0) cl opc 0 0).isSome = true := by
  rw [← Option.isSome_iff_exists]
  unfold opOf
  split <;> exact Iff.rfl

/-- The opcodes that R191 assigns in classes M, X, T and K. -/
theorem opcodes_assigned :
    (∀ opc < 32, (opOf 0 false (slotHead 0 0) 0 opc 0 0).isSome = true ↔
      opc ≤ 0x02 ∨ (0x04 ≤ opc ∧ opc ≤ 0x06) ∨ (0x08 ≤ opc ∧ opc ≤ 0x0B)) ∧
    (∀ opc < 32, (opOf 0 false (slotHead 0 0) 1 opc 0 0).isSome = true ↔ opc ≤ 0x08 ∨ 0x10 ≤ opc) ∧
    (∀ opc < 32, (opOf 0 false (slotHead 0 0) 2 opc 0 0).isSome = true ↔ opc ≤ 0x0C) ∧
    (∀ opc < 32, (opOf 0 false (slotHead 0 0) 3 opc 0 0).isSome = true ↔ opc ≤ 0x0B ∨ opc = 0x10 ∨ opc = 0x11) := by
  decide +kernel

/-! ### The slot decoder (R182, R184, R191) -/

/-- A slot word spells the operation that its class, opcode and operand bits spell with its head. -/
theorem decodeSlot_eq_some {n : Fin 16} {bg : Bool} {w lit : BitVec 32} {i : Instr} : decodeSlot n bg w lit = some i ↔
    opOf n bg (slotHead w.toNat (rsvMask i)) (bits w.toNat 30 29) (bits w.toNat 24 20) (w.toNat % 2 ^ 20) lit = some i := by
  unfold decodeSlot
  constructor
  · intro spells
    dsimp only at spells
    split at spells
    · cases spells
    · next j first =>
      obtain ⟨k, again, same⟩ := opOf_head first (slotHead w.toNat (rsvMask j))
      have eq : k = i := Option.some.inj (again.symm.trans spells)
      rw [← eq, same]
      exact again
  · intro spells
    obtain ⟨j, first, same⟩ := opOf_head spells
      { s := bit w.toNat 31, pe := bit w.toNat 28, pn := bit w.toNat 27, pf := Fin.ofNat 4 (w.toNat / 2 ^ 25) }
    dsimp only
    rw [first]
    dsimp only
    rw [same]
    exact spells

/-- A slot word spells an operation where the opcode map assigns its opcode. -/
theorem decodeSlot_spells {n : Fin 16} {bg : Bool} {w lit : BitVec 32} : (∃ i, decodeSlot n bg w lit = some i) ↔
    (opOf 0 false (slotHead 0 0) (bits w.toNat 30 29) (bits w.toNat 24 20) 0 0).isSome = true := by
  rw [← opOf_isSome n bg (slotHead w.toNat 0) _ _ (w.toNat % 2 ^ 20) lit]
  refine ⟨fun ⟨i, spells⟩ => ?_, fun ⟨i, spells⟩ => ?_⟩
  · obtain ⟨j, other, -⟩ := opOf_head (decodeSlot_eq_some.1 spells) (slotHead w.toNat 0)
    exact ⟨j, other⟩
  · obtain ⟨j, other, same⟩ := opOf_head spells (slotHead w.toNat (rsvMask i))
    exact ⟨j, decodeSlot_eq_some.2 (same ▸ other)⟩

/-- A well-formed operation is read back from its slot words. -/
theorem Operation.decodeSlot_slotNat {n : Fin 16} {bg : Bool} {hd : Hdr} {c : Cls} {lit : BitVec 32} {i : Instr} (op : Operation n bg hd c lit i)
    (kept : hd.rsv.toNat &&& rsvMask i = hd.rsv.toNat) (fetch : hd.fetch = .ok) (reads : hd.reads = []) :
    decodeSlot n bg (BitVec.ofNat 32 (slotNat hd c.code (opCode i).1 ((opCode i).2 + hd.rsv.toNat))) lit = some i := by
  obtain ⟨inClass, code⟩ := opOf_codes (op.reads kept)
  obtain ⟨reserved, operands⟩ := op.reserved kept
  obtain ⟨cl, opc, ops⟩ := slotNat_codes (hd := hd) inClass code operands
  rw [decodeSlot_eq_some, BitVec.toNat_ofNat, Nat.mod_eq_of_lt (slotNat_lt inClass code operands),
    slotHead_slotNat inClass code operands fetch reads reserved, cl, opc, ops]
  exact op.reads kept

/-- Settles O20: a well-formed operation is read back, what a word spells gives the word back, and the assigned opcodes spell an operation. -/
theorem slotWordsRoundTrip : Obligations.SlotWordsRoundTrip := by
  refine ⟨?back, ?word, ?assigned⟩
  case back =>
    intro i n bg hd c home slot wf fetch reads ended
    rw [wf_operation slot, Bool.and_eq_true, Hdr.wf_iff] at wf
    obtain ⟨kept, stopped⟩ := wf
    refine ⟨_, _, slotWords_operation slot, fun lit behind => Operation.decodeSlot_slotNat ⟨home, slot, ended, ?_⟩ kept fetch reads⟩
    rintro t l rfl
    cases stop : hd.s <;> simp_all [literal, literalOk]
  case word =>
    intro n bg w lit i spells
    rw [decodeSlot_eq_some] at spells
    obtain ⟨c, op, inClass, code⟩ := opOf_operation spells
    rw [← inClass, ← code] at spells
    have whole := op.whole spells (Nat.mod_lt _ (by decide))
    have kept : w.toNat % 2 ^ 20 &&& rsvMask i < 2 ^ 20 := Nat.and_le_left.trans_lt (Nat.mod_lt _ (by decide))
    have rsv : (slotHead w.toNat (rsvMask i)).rsv.toNat = w.toNat % 2 ^ 20 &&& rsvMask i :=
      (BitVec.toNat_ofNat ..).trans (Nat.mod_eq_of_lt kept)
    refine ⟨op.home, ?_, ?_⟩
    · rw [wf_operation op.slot, op.literalOk, Bool.and_true, Hdr.wf_iff, rsv, Nat.and_assoc, Nat.and_self]
    · rw [slotWords_operation op.slot, rsv, whole, inClass, code, slotNat_slotHead, BitVec.ofNat_toNat, BitVec.setWidth_eq]
      rfl
  case assigned =>
    intro n bg w lit opc assigned
    have code : opc < 32 := bits_lt _ 24 20
    have inClass : bits w.toNat 30 29 < 4 := bits_lt _ 30 29
    obtain ⟨m, x, t, k⟩ := opcodes_assigned
    rw [decodeSlot_spells]
    simp only [assigned]
    obtain e | e | e | e : bits w.toNat 30 29 = 0 ∨ bits w.toNat 30 29 = 1 ∨ bits w.toNat 30 29 = 2 ∨ bits w.toNat 30 29 = 3 := by omega
    all_goals rw [e]
    · exact m opc code
    · exact x opc code
    · exact t opc code
    · exact k opc code

end Sys2Proof.Machine
end

section
/-! PROOF. The slots of a bundle: gathered up to the stop bit (O21), and executed together (O22). -/

namespace Sys2Proof.Machine

/-- A placed operation that does not end its bundle joins it (R185). -/
theorem Hub.slot_gathers {h : Hub} {n : Nat} {i : Instr} (placed : (h.engine n).placed false i = true) (issues : h.issues n = true)
    (open_ : opStops i = false) (short : words ((h.engine n).shadow.bundle ++ [i]) < 4) :
    h.slot n false i = h.modBank n false fun b => { b with bundle := (h.engine n).shadow.bundle ++ [i] } := by
  simp [Hub.slot, placed, issues, open_, short]

/-- Settles O21: an operation that does not end its bundle is gathered. -/
theorem slotsGatherInTheirBundle : Obligations.SlotsGatherInTheirBundle := by
  intro s i n live home placed issues open_ is short
  rw [exec_operation home, State.onHub_next live, Hub.slot_gathers placed issues open_ short]

/-- A bundle without REP and END that does not wait and is no repetition executes once, and control goes on. -/
theorem Hub.runSample_whole {h : Hub} {n : Nat} {is : List Instr} (plain : Plain is) (open_ : ∀ m b hd x, is.getLast? ≠ some (.opEnd m b hd x))
    (first : (h.engine n).shadow.rep = none) (goes : (h.bundleView n is).bundleWaits is = 0) : h.runSample n false is =
      ((h.once n false false is (lastWord (h.engine n).shadow.pc is)).1.modEng n fun e => e.repDone false).nextBundle n
        (lastWord (h.engine n).shadow.pc is) (h.once n false false is (lastWord (h.engine n).shadow.pc is)).2 := by
  have ready : (h.bundleView n is).bundleWaits (withoutRep is) = 0 := by rw [plain.withoutRep, goes]
  have once : (h.repeats n is).1 ≤ 1 := by rw [Hub.repeats, first, Option.getD_none, plain.bundleCount]
  rw [Hub.runSample_goesOn ready once open_, plain.withoutRep]

/-- Settles O22: a complete bundle runs whole in the state in which the next one is gathered. -/
theorem bundlesExecuteWhole : Obligations.BundlesExecuteWhole := by
  intro s i n live home placed issues stops first is last h v ok good kept others goes
  have plain : Plain is := fun j mem => (others j mem).1
  have open_ : ∀ m b hd x, is.getLast? ≠ some (.opEnd m b hd x) := fun m b hd x ends =>
    (others _ (List.mem_of_getLast? ends)).2 m b hd x rfl
  have emptied : (s.hub.modBank n false fun b => { b with bundle := [] }).engine n =
      { s.hub.engine n with shadow := { (s.hub.engine n).shadow with bundle := [] } } := Hub.engine_modEng_same ..
  have pc : ((s.hub.modBank n false fun b => { b with bundle := [] }).engine n).shadow.pc = (s.hub.engine n).shadow.pc := by
    rw [emptied]
    rfl
  rw [exec_bundle live home placed issues stops ok good kept,
    Hub.runSample_whole plain open_ (by rw [emptied]; exact first) (by rw [Hub.bundleView, pc, goes]), pc, Hub.once_onceWith]
  rfl

end Sys2Proof.Machine
end

section
/-! PROOF. The operations of slot M, and EXT and ACS of slot X: alone in its bundle each runs with the effect of its rule (O24, O25). -/

namespace Sys2Proof.Machine

/-! ### One operation other than control -/

section alone
variable {s : State} (live : s.live = true) {i : Instr} {n : Fin 16} (home : opHome i = some (n, false)) (alone : Alone s.hub n i)
include alone

/-- The operation of a defined bundle is defined. -/
theorem Alone.legal : opLegal false i = true := bundleOk_legal alone.ok (List.mem_singleton_self i)

include live home

/-- An operation that is no control operation runs with its effect (R186, R188). -/
theorem Alone.runs (work : opCls i ≠ .k) : RunsAs s n i (opEff (s.hub.slotView n i) i) := by
  have plain : Plain [i] := by
    rintro j mem m b hd f rfl
    cases List.mem_singleton.1 mem
    exact work rfl
  refine alone.runsAs live home plain (fun m b hd x ends => work (ends ▸ rfl)) ?_
  rw [beq_eq_false_iff_ne.2 work, Bool.and_false]

end alone

/-! ### Multiplies (R219, R220) -/

/-- SG[1]: the first operand is unsigned. -/
theorem sg_first (g : Fin 4) : decide (2 ≤ g.val) = bit g.val 1 := by revert g; decide

/-- SG[0]: the second operand is unsigned. -/
theorem sg_second (g : Fin 4) : decide (g.val % 2 = 1) = bit g.val 0 := by revert g; decide

theorem View.prod16_fst (v : View) (f : MM) :
    (v.prod16 f).1 = opnd (v.d 0 f.sa) (bit f.sg.val 1) * opnd (v.d 2 f.sb) (bit f.sg.val 0) * (if bit f.aux.toNat 0 then 1 else 2) := by
  have integer : mmI f = bit f.aux.toNat 0 := rfl
  simp only [View.prod16, integer, sg_first, sg_second]
  split
  · rw [mul_one]
  · rw [mul_comm]

theorem View.prod32_fst (v : View) (f : MM) : (v.prod32 f).1 =
    shrRound ((if bit f.sg.val 1 then ((v.pair 0 f.sa).n : Int) else (v.pair 0 f.sa).s 32) * opnd (v.d 2 f.sb) (bit f.sg.val 0) * 2) 16 f.rm := by
  simp only [View.prod32, sg_second, ← sg_first, decide_eq_true_eq]

/-- Settles O24: each multiply runs with the product of its pair form, alone or added to or subtracted from the accumulator. -/
theorem multipliesRun : Obligations.MultipliesRun := by
  intro s n hd f live uns acc res p16 p32
  have short : ∀ v, p16 v = (v.prod16 f).1 := fun v => (v.prod16_fst f).symm
  have long : ∀ v, p32 v = (v.prod32 f).1 := fun v => (v.prod32_fst f).symm
  refine ⟨?mpy, ?mac, ?msu, ?mpyd, ?macd, ?msud⟩
  case mpy | mac | msu =>
    rintro _ rfl alone v
    rw [short]
    exact alone.runs live rfl nofun
  case mpyd | macd | msud =>
    rintro _ rfl alone v
    rw [long]
    exact alone.runs live rfl nofun

/-! ### Accumulators (R219, R221, R226) -/

/-- ACLR with AUX 0, 1 and 2. -/
theorem aclrEff_defined (v : View) {f : MM} (ok : mmOkClr f = true) : aclrEff v f = if f.aux = 0 then .one (16 + f.ad) 3 (rv 0) []
    else if f.aux = 1 then .one (16 + f.ad) 3 (rvI 40 ((v.d 0 f.sa).s 16 * 65536)) [v.d 0 f.sa]
    else .one (16 + f.ad) 3 (rvI 40 ((v.pair 0 f.sa).s 32)) [v.pair 0 f.sa] := by
  have small : f.aux.toNat < 3 := by
    simp only [mmOkClr, Bool.and_eq_true, decide_eq_true_eq] at ok
    tauto
  have three : ∀ aux : BitVec 6, aux.toNat < 3 → aux = 0 ∨ aux = 1 ∨ aux = 2 := by decide
  unfold aclrEff
  rcases three _ small with e | e | e <;> rw [e] <;> rfl

theorem ashfEff_defined (v : View) {f : MM} (ok : mmOkShf f = true) : ashfEff v f =
    let a := v.reg 0 (16 + f.sa.val)
    let x := fit (if 0 ≤ f.aux.toInt then a.s 40 * 2 ^ f.aux.toInt.toNat else shrRound (a.s 40) (-f.aux.toInt).toNat f.rm) 40 f.sat
    .one (16 + f.ad) 3 (rvI 40 x.1) [a] x.2 := by
  have small : f.sa.val < 4 := by
    simp only [mmOkShf, Bool.and_eq_true, decide_eq_true_eq] at ok
    exact ok.2
  unfold ashfEff
  rw [Nat.mod_eq_of_lt small]
  rfl

theorem mmOkAdd_source {f : MM} (ok : mmOkAdd f = true) : f.sa.val % 4 = f.sa.val := by
  simp only [mmOkAdd, mmOkShf, Bool.and_eq_true, decide_eq_true_eq] at ok
  obtain ⟨⟨-, small⟩, -⟩ := ok
  exact Nat.mod_eq_of_lt small

/-- AADD and ASUB round with AUX 2, where the result is fitted into the accumulator. -/
theorem accResult_mmOkAdd {f : MM} (ok : mmOkAdd f = true) (t : Int) (ops : List RVal) : accResult f t false ops =
    let x := fit (if f.aux = 2 then roundAt t 16 f.rm else t) 40 f.sat
    { wr := [⟨16 + f.ad, (rvI 40 x.1).joins ops, 3, false, false⟩], ops := ops, stick := x.2 } := by
  have rounds : mmR f = decide (f.aux = 2) := by
    simp only [mmOkAdd, Bool.and_eq_true, Bool.or_eq_true, beq_iff_eq] at ok
    unfold mmR
    rcases ok.2 with e | e <;> rw [e] <;> rfl
  simp only [accResult, rounds, decide_eq_true_eq]
  rfl

/-- EXT with FN 0 to 4. -/
theorem extEff_defined (v : View) {f : XR} (ok : extOk f = true) : extEff v f =
    let a := v.reg 0 (16 + f.ax)
    let hi := fit (shrRound (a.s 40) 16 f.rm) 16 f.sat
    let pr := fit (a.s 40) 32 f.sat
    let int := fit (a.s 40) 16 f.sat
    if f.fn = 0 then .one f.dst 1 (rvI 16 hi.1) [a] hi.2
      else if f.fn = 1 then .one f.dst 1 (rv (a.n % 65536)) [a]
      else if f.fn = 2 then .pair f.dst 1 (BitVec.ofInt 32 pr.1).toNat [a] pr.2
      else if f.fn = 3 then .one f.dst 1 (rvI 16 (a.s 40 / 2 ^ 32)) [a]
      else .one f.dst 1 (rvI 16 int.1) [a] int.2 := by
  have small : f.fn.val < 5 := by
    simp only [extOk, Bool.and_eq_true, decide_eq_true_eq] at ok
    tauto
  obtain ⟨dst, sa, sb, sat, rm, ⟨fn, lt⟩, ax⟩ := f
  dsimp only at small
  interval_cases fn <;> rfl

/-! ### Add-compare-select (R230) -/

theorem acsEff_bits (v : View) (f : XR) : acsEff v f =
    let m0 := v.d 0 f.sa
    let m1 := v.d 1 (f.sa.val + 1)
    let dec := v.reg 3 (16 + f.ax)
    let b := if bit f.fn.val 0 then -((v.d 2 f.sb).s 16) else (v.d 2 f.sb).s 16
    let better := fun y x : Int => let d := (BitVec.ofInt 16 (y - x)).toInt; if bit f.fn.val 1 then decide (d < 0) else decide (0 < d)
    let d0 := better (m1.s 16 - b) (m0.s 16 + b)
    let d1 := better (m1.s 16 + b) (m0.s 16 - b)
    let ops := [m0, m1, v.d 2 f.sb, dec]
    { wr := [⟨f.dst, (rvI 16 (if d0 then m1.s 16 - b else m0.s 16 + b)).joins ops, 1, false, false⟩,
             ⟨f.dst.val + 1, (rvI 16 (if d1 then m1.s 16 + b else m0.s 16 - b)).joins ops, 1, false, false⟩,
             ⟨16 + f.ax, (rv ((dec.n * 4 + 2 * b2n d1 + b2n d0) % 2 ^ 40)).joins ops, 1, false, false⟩,
             ⟨64 + f.fn.val / 4, (rv (b2n d0)).joins ops, 2, false, false⟩], ops := ops } := by
  have negated : bit f.fn.val 0 = decide (f.fn.val % 2 = 1) := Nat.testBit_zero _
  have least : bit f.fn.val 1 = decide (f.fn.val / 2 % 2 = 1) := Nat.testBit_eq_decide_div_mod_eq
  simp only [negated, least, decide_eq_true_eq]
  rfl

/-- Settles O25: each operation runs with the result of its rule. -/
theorem accumulatorOpsRun : Obligations.AccumulatorOpsRun := by
  intro s n hd live
  refine ⟨?aclr, ?ashf, ?add, ?ext, ?acs⟩
  case aclr =>
    rintro f _ rfl alone v
    rw [← aclrEff_defined v alone.legal]
    exact alone.runs live rfl nofun
  case ashf =>
    rintro f _ rfl alone v a x
    have runs := alone.runs live rfl nofun
    rw [opEff, ashfEff_defined _ alone.legal] at runs
    exact runs
  case add =>
    intro f sub i op alone v a b t x
    cases sub
    · obtain rfl : i = .aadd n false hd f := op
      have runs := alone.runs live rfl nofun
      rw [opEff, aaddEff, mmOkAdd_source alone.legal] at runs
      exact accResult_mmOkAdd alone.legal t [a, b] ▸ runs
    · obtain rfl : i = .asub n false hd f := op
      have runs := alone.runs live rfl nofun
      rw [opEff, asubEff, mmOkAdd_source alone.legal] at runs
      exact accResult_mmOkAdd alone.legal t [a, b] ▸ runs
  case ext =>
    rintro f _ rfl alone v a hi pr int
    have runs := alone.runs live rfl nofun
    rw [opEff, extEff_defined _ alone.legal] at runs
    exact runs
  case acs =>
    rintro f _ rfl alone v m0 m1 dec b better d0 d1 ops
    have runs := alone.runs live rfl nofun
    rw [opEff, acsEff_bits] at runs
    exact runs

end Sys2Proof.Machine
end

section
/-! PROOF. The other operations of slot X: alone in its bundle each runs with the effect of its table row (O26). -/

namespace Sys2Proof.Machine

/-- FN[3]: CMP joins the predicate's present value. -/
theorem fn_joins (fn : Fin 16) : decide (8 ≤ fn.val) = bit fn.val 3 := by revert fn; decide

/-- FN[2] of a defined SHF: the amount is SB itself. -/
theorem fn_immediate {fn : Nat} (small : fn < 8) : decide (4 ≤ fn) = bit fn 2 := by
  interval_cases fn <;> rfl

theorem fnUnary_iff (fn : Nat) : fnUnary fn = true ↔ fn = 2 ∨ fn = 3 ∨ fn = 7 := by
  simp only [fnUnary, Bool.or_eq_true, beq_iff_eq, or_assoc]

theorem abs_eq_ite_neg (x : Int) : |x| = if x < 0 then -x else x := by
  split
  · next neg => exact abs_of_neg neg
  · next pos => exact abs_of_nonneg (not_lt.1 pos)

theorem aluOk_fn {f : XR} (ok : aluOk f = true) : f.fn.val < 13 := by
  simp only [aluOk, Bool.and_eq_true, decide_eq_true_eq] at ok
  tauto

theorem daluOk_fn {f : XR} (ok : daluOk f = true) : f.fn.val < 13 := by
  simp only [daluOk, Bool.and_eq_true, Bool.or_eq_true, decide_eq_true_eq, beq_iff_eq] at ok
  omega

theorem shfOk_fn {f : XR} (ok : shfOk f = true) : f.fn.val < 8 := by
  simp only [shfOk, Bool.and_eq_true, decide_eq_true_eq] at ok
  tauto

theorem cmpOk_fn {f : XR} (ok : cmpOk f = true) : f.fn.val % 8 ≠ 7 := by
  simp only [cmpOk, Bool.and_eq_true, bne_iff_ne] at ok
  tauto

/-- SHF row by row (R223). -/
theorem shfEff_defined (v : View) {f : XR} (ok : shfOk f = true) : shfEff v f =
    let a := v.d 0 f.sa; let c := v.d 1 f.sb
    let k := if bit f.fn.val 2 then f.sb.val else c.n % 32
    let ops := if bit f.fn.val 2 then [a] else [a, c]
    let u := a.n % 65536
    let l := fit (a.s 16 * 2 ^ k) 16 f.sat
    if f.fn.val % 4 = 0 then .one f.dst 1 (rvI 16 l.1) ops l.2
      else if f.fn.val % 4 = 1 then .one f.dst 1 (rv (u / 2 ^ k)) ops
      else if f.fn.val % 4 = 2 then .one f.dst 1 (rvI 16 (shrRound (a.s 16) (min k 16) f.rm)) ops
      else .one f.dst 1 (rv (u * 2 ^ (k % 16) % 65536 + u / 2 ^ (16 - k % 16))) ops := by
  have row : f.fn.val % 4 < 4 := Nat.mod_lt _ (by decide)
  simp only [shfEff, ← fn_immediate (shfOk_fn ok), decide_eq_true_eq]
  generalize f.fn.val % 4 = r at row
  interval_cases r <;> rfl

/-- CMP row by row (R224). -/
theorem cmpEff_defined (v : View) {f : XR} (ok : cmpOk f = true) : cmpEff v f =
    let a := v.d 0 f.sa; let b := v.d 1 f.sb; let p := v.reg 2 (64 + f.dst)
    let c := [decide (a.n = b.n), decide (a.n ≠ b.n), decide (a.s 16 < b.s 16), decide (a.s 16 ≤ b.s 16), decide (a.n < b.n),
      decide (a.n ≤ b.n), decide (a.n &&& b.n ≠ 0)].getD (f.fn.val % 8) false
    if bit f.fn.val 3 then .one (64 + f.dst) 2 (rv (b2n (c && p.n == 1))) [a, b, p]
      else .one (64 + f.dst) 2 (rv (b2n c)) [a, b] := by
  have row : f.fn.val % 8 < 7 := by
    have := cmpOk_fn ok
    omega
  simp only [cmpEff, ← fn_joins, decide_eq_true_eq]
  generalize f.fn.val % 8 = r at row
  have differs : ∀ x y : Nat, (x != y) = decide (x ≠ y) := fun x y => (decide_not ..).symm
  interval_cases r <;> simp only [differs] <;> rfl

/-- Settles O26: each operation runs with the result of its table row. -/
theorem xSlotOpsRun : Obligations.XSlotOpsRun := by
  intro s n hd live fn2 one
  have table : ∀ {fn : Nat} (w : Nat) (sat rm : Bool) (a b : Nat), fn < 13 → fn2 fn w sat rm a b = aluFn fn w sat rm a b := by
    intro fn w sat rm a b small
    obtain below | rfl | above : fn < 3 ∨ fn = 3 ∨ 3 < fn := by omega
    · interval_cases fn <;> rfl
    · exact congrArg (fit · w sat) (abs_eq_ite_neg _)
    · interval_cases fn <;> rfl
  have operands : ∀ (fn : Nat) (a b : List RVal), (if one fn then a else b) = if fnUnary fn then a else b := fun fn a b =>
    if_congr (fnUnary_iff fn).symm rfl rfl
  refine ⟨?alu, ?dalu, ?shf, ?cmp, ?ins, ?mov, ?ldx⟩
  case alu =>
    rintro f _ rfl alone v a b x
    rw [operands, show x = _ from table 16 f.sat f.rm a.n b.n (aluOk_fn alone.legal)]
    exact alone.runs live rfl nofun
  case dalu =>
    rintro f _ rfl alone v a b x
    rw [operands, show x = _ from table 32 f.sat f.rm a.n b.n (daluOk_fn alone.legal)]
    exact alone.runs live rfl nofun
  case shf =>
    rintro f _ rfl alone v a c k ops u l
    have runs := alone.runs live rfl nofun
    rw [opEff, shfEff_defined _ alone.legal] at runs
    exact runs
  case cmp =>
    rintro f _ rfl alone v a b p c
    have runs := alone.runs live rfl nofun
    rw [opEff, cmpEff_defined _ alone.legal] at runs
    exact runs
  case ins | mov | ldx =>
    rintro f _ rfl alone
    exact alone.runs live rfl nofun

end Sys2Proof.Machine
end

section
/-! PROOF. The operations of slot T: alone in its bundle each runs with its access, its immediate, its far operation or its word of the
stack (O27). -/

namespace Sys2Proof.Machine

/-- An immediate load of P, O, B or L names one of eight registers (R240). -/
theorem opLegal_indexed {f : TI} (ok : decide (f.dst.val < 8) = true) : f.dst.val % 8 = f.dst.val :=
  Nat.mod_eq_of_lt (of_decide_eq_true ok)

/-- LDIR names LS, LE or LC of a level (R191). -/
theorem ldirEff_defined {f : TI} (ok : (f.dst.val % 4 != 3) = true) : ldirEff f =
    let level := f.dst.val / 4
    .one (if f.dst.val % 4 = 0 then rLS level else if f.dst.val % 4 = 1 then rLE level else rLC level) 4 (rv f.imm.toNat) [] := by
  have register : f.dst.val % 4 < 4 := Nat.mod_lt _ (by decide)
  unfold ldirEff
  generalize f.dst.val % 4 = r at ok register
  interval_cases r <;> rfl

/-- A defined MODP changes its pointer (R237). -/
theorem modpEff_defined (v : View) {f : TM} (ok : modpOk f = true) :
    modpEff v f = { wr := [⟨rP f.pr, rv (v.tmPost f), 1, false, false⟩] } := by
  have moves : f.am ≠ 0 := by
    simp only [modpOk, Bool.and_eq_true, bne_iff_ne] at ok
    tauto
  rw [modpEff, View.tmWr, if_neg moves]

/-- The stack bounds of the sample program stand in its registers (R250). -/
theorem Hub.slotView_splim (h : Hub) (n : Nat) (i : Instr) : (h.slotView n i).splim = h.reg (kSe n 0x107) := rfl

theorem Hub.slotView_sptop (h : Hub) (n : Nat) (i : Instr) : (h.slotView n i).sptop = h.reg (kSe n 0x106) := rfl

/-- PUSH where the stack has room (R250). -/
theorem pushEff_room {v : View} {f : TM} (room : v.splim ≤ (v.reg 8 rSP).n) : pushEff v f =
    { st := [(0, (v.reg 8 rSP).n, v.d 0 f.dr)], wr := [⟨rSP, rv (((v.reg 8 rSP).n + 65535) % 65536), 1, false, false⟩], ops := [v.d 0 f.dr] } :=
  if_neg (not_lt.2 room)

/-- POP where the stack holds a word (R250). -/
theorem popEff_held {v : View} {f : TM} {l : List Ecc} (held : (v.reg 8 rSP).n < v.sptop) : popEff v f l =
    let x := v.read 0 ((v.reg 8 rSP).n + 1) (found l 0)
    { wr := [⟨f.dr, x.1, 2, false, false⟩, ⟨rSP, rv ((v.reg 8 rSP).n + 1), 1, false, false⟩], ops := [x.1], ecc := x.2 } :=
  if_neg (not_le.2 held)

/-- Settles O27: each operation runs with the effect of its rule. -/
theorem tSlotOpsRun : Obligations.TSlotOpsRun := by
  intro s n hd live
  refine ⟨?ld, ?st, ?modp, ?ldi, ?ldip, ?ldio, ?ldib, ?ldil, ?ldir, ?far, ?push, ?pop⟩
  case ld | st | ldi =>
    rintro f _ rfl alone
    exact alone.runs live rfl nofun
  case modp =>
    rintro f _ rfl alone v
    rw [← modpEff_defined v alone.legal]
    exact alone.runs live rfl nofun
  case ldip | ldio | ldib | ldil =>
    rintro f _ rfl alone
    rw [← opLegal_indexed alone.legal]
    exact alone.runs live rfl nofun
  case ldir =>
    rintro f _ rfl alone level
    have runs := alone.runs live rfl nofun
    rw [opEff, ldirEff_defined alone.legal] at runs
    exact runs
  case far =>
    intro f store i op alone
    cases store
    · obtain rfl : i = .fld n false hd f := op
      exact alone.runs live rfl nofun
    · obtain rfl : i = .fst n false hd f := op
      exact alone.runs live rfl nofun
  case push =>
    rintro f _ rfl alone v sp room
    have runs := alone.runs live rfl nofun
    rw [opEff, pushEff_room ((Hub.slotView_splim ..).trans_le room)] at runs
    exact runs
  case pop =>
    rintro f _ rfl alone v sp x held
    have runs := alone.runs live rfl nofun
    rw [opEff, popEff_held (held.trans_eq (Hub.slotView_sptop ..).symm)] at runs
    exact runs

end Sys2Proof.Machine
end

section
/-! PROOF. The control operations: alone in its bundle each runs with its effect, as no predicate guards it (O28). -/

namespace Sys2Proof.Machine

/-- END and REP, with which a program ends or a bundle repeats (R192, R247). -/
def endsOrRepeats : Instr → Bool
  | .opEnd .. | .opRep .. => true
  | _ => false

/-- A control operation that is neither END nor REP runs with its effect: a defined bundle guards none (R193). -/
theorem Alone.runsControl {s : State} (live : s.live = true) {i : Instr} {n : Fin 16} (home : opHome i = some (n, false))
    (alone : Alone s.hub n i) {hd : Hdr} (control : opSlot i = some (hd, .k)) (goesOn : endsOrRepeats i = false) :
    RunsAs s n i (opEff (s.hub.slotView n i) i) := by
  have plain : Plain [i] := by
    rintro j mem m b hd f rfl
    cases List.mem_singleton.1 mem
    cases goesOn
  refine alone.runsAs live home plain (fun m b hd x ends => by subst ends; cases goesOn) ?_
  rw [View.guard_unguarded _ control (bundleOk_unguarded control alone.ok)]
  rfl

/-- DO where a level is free (R243). -/
theorem doEff_free {v : View} {cm1 ofs : Nat} (free : v.b.depth < 4) : doEff v cm1 ofs =
    { wr := [⟨rLS v.b.depth, rv ((v.last + 1) % 0x8000), 4, false, false⟩, ⟨rLE v.b.depth, rv ((v.last + 1 + ofs) % 0x8000), 4, false, false⟩,
             ⟨rLC v.b.depth, rv (cm1 + 1), 4, false, false⟩], ctl := .enter } :=
  if_neg (not_le.2 free)

/-- DOR where a level is free (R243). -/
theorem dorEff_free {v : View} (free : v.b.depth < 4) :
    dorEff v = { wr := [⟨rLS v.b.depth, rv ((v.last + 1) % 0x8000), 4, false, false⟩], ctl := .enter } :=
  if_neg (not_le.2 free)

/-- What CALL of the sample program pushes: the registers of the mask ascending, the mask and the link word (R249). -/
def View.callFrame (v : View) (mask : Nat) : List RVal :=
  (((List.range 16).filter fun k => bit mask k).map fun k => v.d (k % 8) k) ++ [rv mask, rv ((v.last + 1) % 0x8000)]

theorem View.length_callFrame (v : View) (mask : Nat) :
    (v.callFrame mask).length = ((List.range 16).filter fun k => bit mask k).length + 2 := by
  rw [View.callFrame, List.length_append, List.length_map]
  rfl

/-- CALL of the sample program where the stack has room for its frame (R249). -/
theorem callEff_room {v : View} {tgt mask : Nat} (sample : v.bg = false)
    (room : v.splim + (v.callFrame mask).length ≤ (v.reg 8 rSP).n + 1) : callEff v tgt mask =
    { st := (v.callFrame mask).zipIdx.map fun p => (0, (v.reg 8 rSP).n - p.2, p.1),
      wr := [⟨rSP, rv (((v.reg 8 rSP).n + 65536 - (v.callFrame mask).length) % 65536), 1, false, false⟩],
      ops := ((List.range 16).filter fun k => bit mask k).map fun k => v.d (k % 8) k, ctl := .jump tgt } := by
  rw [View.length_callFrame] at room ⊢
  unfold callEff
  rw [sample]
  exact if_neg (by omega)

/-- The registers of a mask that RET pops, descending, with what their words of the stack hold (R249). -/
def View.retRegs (v : View) (l : List Ecc) (mask : Nat) : List (Nat × RVal × List (Nat × Nat × Ecc)) :=
  ((List.range 16).filter fun k => bit mask k).reverse.zipIdx.map fun p =>
    (p.1, v.read 0 ((v.reg 8 rSP).n + 3 + p.2) (found l (2 + p.2)))

theorem View.length_retRegs (v : View) (l : List Ecc) (mask : Nat) :
    (v.retRegs l mask).length = ((List.range 16).filter fun k => bit mask k).reverse.length := by
  rw [View.retRegs, List.length_map, List.length_zipIdx]

/-- RET where the stack holds the frame (R249). -/
theorem retEff_held {v : View} {l : List Ecc} :
    let sp := (v.reg 8 rSP).n
    let link := v.read 0 (sp + 1) (found l 0)
    let mask := v.read 0 (sp + 2) (found l 1)
    let rd := v.retRegs l mask.1.n
    sp + rd.length + 2 ≤ v.sptop → retEff v l =
      { wr := rd.map (fun p => ⟨p.1, p.2.1, 2, false, false⟩) ++ [⟨rSP, rv ((sp + rd.length + 2) % 65536), 1, false, false⟩],
        ops := [link.1, mask.1] ++ rd.map fun p => p.2.1,
        ecc := link.2 ++ mask.2 ++ (rd.map fun p => p.2.2).flatten, ctl := .jump (link.1.n % 0x8000) } := by
  intro sp link mask rd held
  have whole : ¬ (v.sptop - sp < 2 ∨ v.sptop - sp < rd.length + 2) := by omega
  rw [View.length_retRegs] at whole ⊢
  exact if_neg whole

/-- The six state bits of ACSTB are its column and the half of its decision word (R231). -/
theorem acstbEff_bits (v : View) (l : List Ecc) : acstbEff v l =
    let d15 := v.d 0 15; let d14 := v.d 1 14; let p7 := (v.reg 2 (rP 7)).n
    let j := d15.n % 32
    let hi := d15.n % 64 / 32
    let r := v.read 0 ((p7 + j / 8) % 65536) (found l 0)
    let w := r.1
    let dec := w.n / 2 ^ (2 * (7 - j % 8) + hi) % 2
    { wr := [⟨14, (rv (d14.n / 2 + hi * 32768)).joins [d14, d15, w], 2, false, false⟩, ⟨15, (rv (2 * j + dec)).joins [d14, d15, w], 2, false, false⟩,
             ⟨rP 7, rv (circ p7 (v.reg 3 (rB 7)).n (v.reg 4 (rL 7)).n (v.reg 5 (rO 7)).n), 1, false, false⟩], ops := [d14, d15, w],
      ecc := r.2 } := by
  have column : (v.d 0 15).n % 64 % 32 = (v.d 0 15).n % 32 := Nat.mod_mod_of_dvd _ (by decide)
  simp only [acstbEff, column]

/-- Settles O28: each operation runs with the effect of its rule. -/
theorem controlOpsRun : Obligations.ControlOpsRun := by
  intro s n hd live
  refine ⟨?nop, ?opDo, ?dor, ?call, ?ret, ?wfe, ?sev, ?wtc, ?wfc, ?acstb⟩
  case nop | wfc =>
    rintro _ rfl alone
    exact alone.runsControl live rfl rfl rfl
  case wfe | sev | wtc =>
    rintro f _ rfl alone
    exact alone.runsControl live rfl rfl rfl
  case opDo =>
    rintro cm1 ofs _ rfl alone v d free
    have runs := alone.runsControl live rfl rfl rfl
    rw [opEff, doEff_free free] at runs
    exact runs
  case dor =>
    rintro _ rfl alone v free
    have runs := alone.runsControl live rfl rfl rfl
    rw [opEff, dorEff_free free] at runs
    exact runs
  case call =>
    rintro tgt lit _ rfl alone v sp mask rs frame room
    have runs := alone.runsControl live rfl rfl rfl
    rw [opEff, callEff_room (v := s.hub.slotView n _) rfl room] at runs
    exact runs
  case ret =>
    rintro _ rfl alone v sp link mask rd held
    have runs := alone.runsControl live rfl rfl rfl
    rw [opEff, retEff_held held] at runs
    exact runs
  case acstb =>
    rintro _ rfl alone
    have runs := alone.runsControl live rfl rfl rfl
    rw [opEff, acstbEff_bits] at runs
    exact runs

end Sys2Proof.Machine
end

section
/-! PROOF. Far requests served and tags resolved: a request that is the oldest of its block is translated and lands, is written or
faults; a value loses the tag that resolves (O37). -/

namespace Sys2Proof.Machine

section runs
variable {s : State} (live : s.live = true)
include live

theorem exec_farLanding (n : Fin 16) (i : Nat) (x : FarEcc) : exec (.farLanding n i x) s = .next (s.withHub (s.hub.farLanding n i x)) :=
  State.onHub_next live fun h => h.farLanding n i x
theorem exec_farStoreWritten (n : Fin 16) (i : Nat) (x : FarEcc) :
    exec (.farStoreWritten n i x) s = .next (s.withHub (s.hub.farWritten n i x)) :=
  State.onHub_next live fun h => h.farWritten n i x
theorem exec_tagResolution (n : Fin 16) (t : Fin 4) : exec (.tagResolution n t) s = .next (s.withHub (s.hub.tagResolve n t)) :=
  State.onHub_next live fun h => h.tagResolve n t

end runs

/-! ### A request of the DMU is served (R292, R294, R295) -/

/-- Request `i` of engine `n` has left those in flight. -/
def Hub.dropReq (h : Hub) (n i : Nat) : Hub := h.modEng n fun e => { e with infl := e.infl.eraseIdx i }

/-- The units that the words of a request from byte address `a` on write only in part: those that a written store reads (R297). -/
def partUnits (a n : Nat) : List Nat := (reqUnits a n).filter fun u => !(decide (a ≤ 8 * u) && decide (8 * u + 8 ≤ a + 2 * n))

section serve
variable {h h' : Hub} {n i : Nat} {x : FarEcc} {r : FarReq} (flies : (h.engine n).infl[i]? = some r)
  (turn : (h.engine n).farTurn i r = true)
include flies turn

/-- A fetch whose translation succeeds lands. -/
theorem Hub.farLanding_lands (fetch : r.store = false) {a : Nat} (reached : (h.dropReq n i).translate n r x = (h', .ok a)) :
    h.farLanding n i x = ((h'.unitsFound n r a x (reqUnits a r.n)).landWords n r a).pump 600 := by
  rw [Hub.dropReq] at reached
  simp [Hub.farLanding, flies, turn, fetch, reached]

theorem Hub.farLanding_faults (fetch : r.store = false) {c a : Nat} (fault : (h.dropReq n i).translate n r x = (h', .error (c, a))) :
    h.farLanding n i x = (h'.farFault n r c a).pump 600 := by
  rw [Hub.dropReq] at fault
  simp [Hub.farLanding, flies, turn, fetch, fault]

/-- A store whose translation succeeds is written, and the units that it writes in part are read. -/
theorem Hub.farWritten_writes (store : r.store = true) {a : Nat} (reached : (h.dropReq n i).translate n r x = (h', .ok a)) :
    h.farWritten n i x = ((h'.unitsFound n r a x (partUnits a r.n)).writeDram (a / 2) r.data).pump 600 := by
  rw [Hub.dropReq] at reached
  simp [Hub.farWritten, partUnits, flies, turn, store, reached]

theorem Hub.farWritten_faults (store : r.store = true) {c a : Nat} (fault : (h.dropReq n i).translate n r x = (h', .error (c, a))) :
    h.farWritten n i x = (h'.farFault n r c a).pump 600 := by
  rw [Hub.dropReq] at fault
  simp [Hub.farWritten, flies, turn, store, fault]

end serve

/-! ### A tag resolves (R395, R396) -/

/-- The engine with every value of its banks, windows, park buffer and waiting stack faults resolved, and the tag free. -/
def Engine.resolved (e : Engine) (t : Fin 4) (void : Bool) : Engine :=
  let res := fun l : Tbl RVal => l.map fun p => (p.1, p.2.resolve t void)
  { e with tags := e.tags.mod t fun _ => {}, shadow := e.shadow.resolve t void, fore := e.fore.resolve t void,
           inRun := res e.inRun, outWin := res e.outWin, handed := res e.handed,
           park := e.park.map fun p => { p with val := p.val.resolve t void },
           faults := e.faults.map fun p => { p with val := p.val.resolve t void } }

/-- The sticky bits of engine `e` that waited for tag `t` enter SR of both banks of engine `n`. -/
def Hub.stickyEnters (h : Hub) (n : Nat) (e : Engine) (t : Fin 4) (void : Bool) : Hub :=
  h.modEng n fun x => { x with shadow := x.shadow.setSticky (e.stickyOf false t void), fore := x.fore.setSticky (e.stickyOf true t void) }

/-- A pending tag with a rejected frame or with no frame left resolves: the values, the park buffer, the sticky bits, the stack
faults. -/
theorem Hub.tagResolve_decided {h : Hub} {n : Nat} {t : Fin 4} {e : Engine} (eng : h.engine n = e) {tag : Tag}
    (entry : e.tags.get {} t = tag) (pending : tag.pending = true) (decided : tag.void = true ∨ tag.frames = []) :
    let h1 := h.setEng n (e.resolved t tag.void)
    h.tagResolve n t = (((h1.releaseAll n [] (h1.engine n).park 65).stickyEnters n e t tag.void).faultsDue n).kick n := by
  subst eng entry
  refine if_neg ?_
  rcases decided with rejected | confirmed
  · simp [pending, rejected]
  · simp [pending, confirmed]

/-- The mask of tag `t` taken out of a mask of tags. -/
theorem getLsbD_dropTag (m : BitVec 4) (t u : Fin 4) :
    (m &&& ~~~BitVec.ofNat 4 (2 ^ t.val)).getLsbD u = (m.getLsbD u && decide (u ≠ t)) := by
  have single : (BitVec.ofNat 4 (2 ^ t.val)).getLsbD u = decide (u = t) := by revert t u; decide
  rw [BitVec.getLsbD_and, BitVec.getLsbD_not, single, decide_eq_true u.isLt, Bool.true_and, decide_not]

theorem RVal.resolve_other {r : RVal} {t : Nat} (free : r.tags.getLsbD t = false) (void : Bool) : r.resolve t void = r := by
  simp [RVal.resolve, free]

theorem RVal.resolve_rejected {r : RVal} {t : Nat} (held : r.tags.getLsbD t = true) : r.resolve t true = { r with void := true, tags := 0 } := by
  simp [RVal.resolve, held]

theorem RVal.resolve_confirmed {r : RVal} {t : Nat} (held : r.tags.getLsbD t = true) :
    r.resolve t false = { r with tags := r.tags &&& ~~~(BitVec.ofNat 4 (2 ^ t)) } := by
  simp [RVal.resolve, held]

/-- Settles O37: a request by its translation, a tag that is decided, and a value by its mask and the tag's fate. -/
theorem farRequestsAnswer : Obligations.FarRequestsAnswer := by
  refine ⟨fun s n i x r live flies fetch turn => ⟨fun h' a reached => ?lands, fun h' c a fault => ?fetchFaults⟩,
    fun s n i x r live flies store turn => ⟨fun h' a reached => ?written, fun h' c a fault => ?storeFaults⟩,
    fun s n t live pending decided => ?resolves, fun r t void => ⟨fun free => RVal.resolve_other free void, fun held => ?value⟩⟩
  case lands => rw [exec_farLanding live, Hub.farLanding_lands flies turn fetch reached]
  case fetchFaults => rw [exec_farLanding live, Hub.farLanding_faults flies turn fetch fault]
  case written => rw [exec_farStoreWritten live, Hub.farWritten_writes flies turn store reached]; rfl
  case storeFaults => rw [exec_farStoreWritten live, Hub.farWritten_faults flies turn store fault]
  case resolves => rw [exec_tagResolution live, Hub.tagResolve_decided rfl rfl pending decided]; rfl
  case value =>
    cases void with
    | true =>
      rw [RVal.resolve_rejected held]
      exact ⟨rfl, BitVec.getLsbD_zero, fun _ => ⟨rfl, rfl⟩, nofun⟩
    | false =>
      rw [RVal.resolve_confirmed held]
      refine ⟨rfl, ?_, nofun, fun _ => ⟨rfl, fun u other => ?_⟩⟩
      · rw [getLsbD_dropTag]; simp
      · rw [getLsbD_dropTag, decide_eq_true other, Bool.and_true]

end Sys2Proof.Machine
end

section
/-! PROOF. Commits: a request is refused with its cause (O36), or waits for the tick, or takes effect at once (R267, R268). -/

namespace Sys2Proof.Machine

/-! ### The causes of R267 -/

/-- Cause 1: the program that is committed has length 0, or one above the budget. -/
def Hub.CommitLengthBad (h : Hub) (n w : Nat) : Prop :=
  bit w 4 = true ∧ (h.reg (eng n 0x51011) = 0 ∨ h.budget n < h.reg (eng n 0x51011))

/-- Cause 2: the window of the program that is committed is inverted, or does not hold the entry. -/
def Hub.CommitWindowBad (h : Hub) (n w : Nat) : Prop :=
  bit w 4 = true ∧ (h.reg (eng n 0x51013) < h.reg (eng n 0x51012) ∨ h.reg (eng n 0x51010) < h.reg (eng n 0x51012) ∨
    h.reg (eng n 0x51013) < h.reg (eng n 0x51010))

/-- The stage pages that a commit word names. -/
def commitPages (w : Nat) : List Nat := (List.range 4).filter fun p => bit w p

/-- Cause 3: a named stage page is busy, or two of them have the same target page. -/
def Hub.CommitPagesBad (h : Hub) (n w : Nat) : Prop :=
  (∃ p ∈ commitPages w, bit (h.reg (eng n (0x51000 + p))) 15 = true) ∨
    ¬ ((commitPages w).map fun p => bits (h.reg (eng n (0x51000 + p))) 5 0).Nodup

theorem Hub.lenBad_iff (h : Hub) (n len : Nat) : h.lenBad n len = true ↔ len = 0 ∨ h.budget n < len := by
  rw [Hub.lenBad, Bool.or_eq_true, beq_iff_eq, decide_eq_true_iff]

section causes
variable (h : Hub) (n w : Nat)

theorem Hub.commitLengthBad_iff : (bit w 4 && h.lenBad n (h.reg (eng n 0x51011))) = true ↔ h.CommitLengthBad n w := by
  rw [Bool.and_eq_true, h.lenBad_iff, Hub.CommitLengthBad]

theorem Hub.commitWindowBad_iff :
    (bit w 4 && (decide (h.reg (eng n 0x51013) < h.reg (eng n 0x51012)) || decide (h.reg (eng n 0x51010) < h.reg (eng n 0x51012)) ||
      decide (h.reg (eng n 0x51013) < h.reg (eng n 0x51010)))) = true ↔ h.CommitWindowBad n w := by
  simp only [Bool.and_eq_true, Bool.or_eq_true, decide_eq_true_iff, or_assoc, Hub.CommitWindowBad]

theorem Hub.commitPagesBad_iff :
    (((commitPages w).any fun p => bit (h.reg (eng n (0x51000 + p))) 15) ||
      !decide ((commitPages w).map fun p => h.fld (eng n (0x51000 + p)) 5 0).Nodup) = true ↔ h.CommitPagesBad n w := by
  rw [Bool.or_eq_true, List.any_eq_true, Bool.not_eq_true', decide_eq_false_iff_not]
  rfl

open Classical in
/-- The lowest cause that holds is the one that refuses. -/
theorem Hub.commitCause_eq : h.commitCause n w =
    if h.CommitLengthBad n w then some 1 else if h.CommitWindowBad n w then some 2 else if h.CommitPagesBad n w then some 3
    else if (h.engine n).commit ≠ none then some 4 else if (h.engine n).st ≠ .normal then some 5 else none :=
  if_congr (h.commitLengthBad_iff n w) rfl <| if_congr (h.commitWindowBad_iff n w) rfl <| if_congr (h.commitPagesBad_iff n w) rfl <|
    if_congr Option.isSome_iff_ne_none rfl <| if_congr Iff.rfl rfl rfl

end causes

/-! ### COMMIT_REQUEST (R267, R268) -/

/-- A written commit word that is a request: its key is 0xC, and it names the program or a page. -/
def CommitWord (w : Nat) : Prop := bits w 15 12 = 0xC ∧ (bit w 4 = true ∨ w % 16 ≠ 0)

theorem exec_commitRequest {s : State} (live : s.live = true) {n : Fin 16} (free : s.hub.reserved n = false) (w : Word) :
    exec (.commitRequest n w) s = .next (s.wrote (s.hub.commitRequest n w.toNat)) :=
  State.onWrite_seWrite live free fun h => h.commitRequest n w.toNat

/-- The commit of engine `n` waits for the tick. -/
def Hub.commitPending (h : Hub) (n : Nat) (w : Word) : Hub := h.modEng n fun e => { e with commit := some w, bound := false }

section request
variable {h : Hub} {n w : Nat} (asks : CommitWord w)
include asks

/-- What is no request is neither refused nor taken. -/
theorem CommitWord.not_ignored : ¬ (bits w 15 12 ≠ 0xC ∨ (¬ bit w 4 = true ∧ w % 16 = 0)) := by
  obtain ⟨key, names⟩ := asks
  rintro (other | ⟨noProgram, noPage⟩)
  · exact other key
  · exact names.elim noProgram fun page => page noPage

theorem Hub.commitRequest_refused {c : Nat} (cause : h.commitCause n w = some c) :
    h.commitRequest n w = h.issue n 0x402 c w (if c = 1 then h.reg (eng n 0x51011) else 0) := by
  rw [Hub.commitRequest, if_neg asks.not_ignored, cause]

theorem Hub.commitRequest_taken (ok : h.commitCause n w = none) : h.commitRequest n w =
    if (h.engine n).run.spen then h.commitPending n (BitVec.ofNat 16 w) else (h.commitPending n (BitVec.ofNat 16 w)).commitNow n 0 := by
  rw [Hub.commitRequest, if_neg asks.not_ignored, ok]
  rfl

end request

/-- Settles O36: the request issues COMMIT_REFUSED with its cause, and the causes are judged in the order of their numbers. -/
theorem commitRefusals : Obligations.CommitRefusals := by
  refine ⟨fun s n w c live free key names cause => ?refuses, fun h n w => ?causes⟩
  case refuses => rw [exec_commitRequest live free, Hub.commitRequest_refused ⟨key, names⟩ cause]
  case causes =>
    rw [Hub.commitCause_eq]
    refine ⟨fun length => if_pos length, fun length window => ?_, fun length window pages => ?_, fun length window pages waits => ?_,
      fun length window pages idle ill => ?_, fun length window pages idle normal => ?_⟩
    · exact (if_neg length).trans (if_pos window)
    all_goals refine (if_neg length).trans <| (if_neg window).trans ?_
    · exact if_pos pages
    all_goals refine (if_neg pages).trans ?_
    · exact if_pos waits
    · exact (if_neg (not_not.2 idle)).trans (if_pos ill)
    · exact (if_neg (not_not.2 idle)).trans (if_neg (not_not.2 normal))

end Sys2Proof.Machine
end

section
/-! PROOF. Live updates: stage pages, commits, glides, checks and quotas (O35). -/

namespace Sys2Proof.Machine

section runs
variable {s : State} (live : s.live = true) (n : Fin 16)
include live

theorem exec_primeComplete (p : Fin 4) : exec (.primeComplete n p) s = .next (s.withHub (s.hub.primeDone n p)) :=
  State.onHub_next live fun h => h.primeDone n p
theorem exec_vchkDone : exec (.vchkDone n) s = .next (s.withHub (s.hub.vchkDone n)) := State.onHub_next live fun h => h.vchkDone n
theorem exec_quotaWrite (q : Word) : exec (.quotaWrite n q) s = .next (s.wrote (s.hub.quotaWrite n (q.toNat % 2048))) :=
  State.onWrite_next live fun h => h.quotaWrite n (q.toNat % 2048)

variable (free : s.hub.reserved n = false)
include free

theorem exec_yPagePrime (mask : BitVec 4) : exec (.yPagePrime n mask) s = .next (s.wrote (s.hub.primeRequest n mask.toNat)) :=
  State.onWrite_seWrite live free fun h => h.primeRequest n mask.toNat
theorem exec_glideTargetWrite (g : Fin 16) (t : Word) :
    exec (.glideTargetWrite n g t) s = .next (s.wrote (s.hub.glideWrite n g t.toNat)) :=
  State.onWrite_seWrite live free fun h => h.glideWrite n g t.toNat
theorem exec_verifyCheck (w : Word) : exec (.verifyCheck n w) s = .next (s.wrote (s.hub.vchkStart n w.toNat)) :=
  State.onWrite_seWrite live free fun h => h.vchkStart n w.toNat

end runs

section updates
variable {h : Hub} {n : Nat}

/-- A copy that ends holds the words of its target page, their errors marked, and is busy no more (R266). -/
theorem Hub.primeDone_busy {p : Nat} (busy : bit (h.reg (eng n (0x51000 + p))) 15 = true) : h.primeDone n p =
    ((iter 256 (fun i h' => h'.setReg (kStage n p i)
      (tget (fun _ => (0 : Word)) (h'.engine n).y (256 * h.fld (eng n (0x51000 + p)) 5 0 + i)).toNat) h).modEng n
        fun e => e.primeMarks p (h.fld (eng n (0x51000 + p)) 5 0)).setFld (eng n (0x51000 + p)) 15 15 0 := by
  rw [Hub.primeDone, if_neg (not_not.2 busy)]

theorem Hub.glideWrite_running {g t : Nat} (spen : (h.engine n).run.spen = true) : h.glideWrite n g t =
    ((h.setReg (kGlide n g 1) t).modGlide n g fun x => { x with fresh := true }).imageReg n (0x51040 + 8 * g + 1) := by
  rw [Hub.glideWrite, if_pos spen]

theorem Hub.glideWrite_stopped {g t : Nat} (spen : (h.engine n).run.spen = false) :
    h.glideWrite n g t = (h.glideSet n g t).imageReg n (0x51040 + 8 * g + 1) := by
  rw [Hub.glideWrite, if_neg (by simp [spen])]

theorem Hub.vchkStart_starts (idle : bit (h.reg (eng n 0x51104)) 15 = false) (count : h.reg (eng n 0x51102) ≠ 0) :
    h.vchkStart n 1 = h.setReg (eng n 0x51104) 0x8000 := by
  rw [Hub.vchkStart, if_neg (by simp [idle, count])]

/-- A check that ends gives the CRC and the number of the words in error, and VCHK_DONE (R278). -/
theorem Hub.vchkDone_ends (runs : bit (h.reg (eng n 0x51104)) 15 = true) :
    let r := h.vchkWords n (h.reg (eng n 0x51100) % 4) (h.reg (eng n 0x51101)) (h.reg (eng n 0x51102))
    h.vchkDone n = (((h.setReg (eng n 0x51104) 0x4000).setReg (eng n 0x51105) (crcWords r.1)).setReg (eng n 0x51106)
      (min 0xFFFF r.2)).issue n 0x403 (crcWords r.1) (min 0xFFFF r.2) (h.reg (eng n 0x51100) % 4) := by
  rw [Hub.vchkDone, if_neg (not_not.2 runs)]
  rfl

theorem Hub.quotaWrite_fits {q : Nat} (fits : h.quotaSum - h.reg (kDmu n 2) + q ≤ 1600) :
    h.quotaWrite n q = h.setReg (kDmu n 2) q := if_neg (Nat.not_lt.2 fits)

end updates

/-- The offset of a glide's target word (R280). -/
theorem glideTarget_offset (g : Nat) : 0x51040 + 8 * g + 1 = 0x51041 + 8 * g := by omega

/-- Settles O35: each command does to the hub what the rule of its register states. -/
theorem liveUpdateCommandsAnswer : Obligations.LiveUpdateCommandsAnswer := by
  intro s n live free
  refine ⟨fun mask => exec_yPagePrime live n free mask, fun p busy => ?copied, fun w key names ok => ?commits,
    fun g t spen => ?stores, fun g t spen => ?sets, fun idle count => ?starts, fun runs => ?ends, fun q fits => ?quota⟩
  case copied => rw [exec_primeComplete live, Hub.primeDone_busy busy]
  case commits =>
    rw [exec_commitRequest live free, Hub.commitRequest_taken ⟨key, names⟩ ok, BitVec.ofNat_toNat, BitVec.setWidth_eq]
    rfl
  case stores => rw [exec_glideTargetWrite live n free, Hub.glideWrite_running spen, glideTarget_offset]
  case sets =>
    rw [exec_glideTargetWrite live n free, Hub.glideWrite_stopped spen, glideTarget_offset]
    rfl
  case starts => rw [exec_verifyCheck live n free, show (1 : Word).toNat = 1 from rfl, Hub.vchkStart_starts idle count]
  case ends => rw [exec_vchkDone live, Hub.vchkDone_ends runs]
  case quota => rw [exec_quotaWrite live, Hub.quotaWrite_fits fits]

end Sys2Proof.Machine
end

section
/-! PROOF. The external ports: links, the bypass relay, and the frames that arrive, decide, end and leave (O39). -/

namespace Sys2Proof.Machine

section runs
variable {s : State} (live : s.live = true)
include live

theorem exec_linkUp (p : Fin 2) (speed : Fin 3) (mdix half : Bool) :
    exec (.linkUp p speed mdix half) s = .next (s.withHub (s.hub.phyUp p speed mdix half)) :=
  State.onHub_next live fun h => h.phyUp p speed mdix half
theorem exec_linkDown (p : Fin 2) (sending : Bool) : exec (.linkDown p sending) s = .next (s.withHub (s.hub.linkLost p sending)) :=
  State.onHub_next live fun h => h.linkLost p sending
theorem exec_netRelayOpen : exec .netRelayOpen s = .next (s.withHub ((s.hub.setFld 0x39 15 15 0).netOpen 2)) :=
  State.onHub_next live fun h => (h.setFld 0x39 15 15 0).netOpen 2
theorem exec_netRelayClose : exec .netRelayClose s = .next (s.withHub ((s.hub.setFld 0x39 15 15 1).bypass 2)) :=
  State.onHub_next live fun h => (h.setFld 0x39 15 15 1).bypass 2
theorem exec_relayChanged (sensed : Bool) : exec (.relayChanged sensed) s = .next (s.withHub (s.hub.relayChanged sensed)) :=
  State.onHub_next live fun h => h.relayChanged sensed
theorem exec_relayFault : exec .relayFault s = .next (s.withHub s.hub.relayFault) := State.onHub_next live Hub.relayFault
theorem exec_frameArrival (p : Fin 2) (b : List Byte) : exec (.frameArrival p b) s = .next (s.withHub (s.hub.frameArrival p b)) :=
  State.onHub_next live fun h => h.frameArrival p b
theorem exec_passDecision (i : Fin 256) (idle : Bool) : exec (.passDecision i idle) s = .next (s.withHub (s.hub.passStep i idle)) :=
  State.onHub_next live fun h => h.passStep i idle
theorem exec_frameEnd (i : Fin 256) (fate : Fin 4) (res : BitVec 64) (rx : Int) :
    exec (.frameEnd i fate res rx) s = .next (s.withHub (s.hub.frameEnd i fate res rx)) :=
  State.onHub_next live fun h => h.frameEnd i fate res rx
theorem exec_frameTransmit (p : Fin 2) (res : BitVec 64) : exec (.frameTransmit p res) s = .next (s.withHub (s.hub.transmit p res)) :=
  State.onHub_next live fun h => h.transmit p res
theorem exec_tcEntryTimeout (i : Fin 32) : exec (.tcEntryTimeout i) s = .next (s.withHub (s.hub.tcTimeout i)) :=
  State.onHub_next live fun h => h.tcTimeout i

end runs

/-! ### Links (R304, R305, R309) -/

/-- The status of a port after its field of the link word was put: LINK, SPEED and MDIX (R328). -/
theorem Hub.linkUp_setStatus (h : Hub) (p : Fin 2) (v : Nat) : (h.setFld 0x38 (4 * p + 3) (4 * p) v).linkUp p = bit v 3 := by
  have := p.isLt
  rw [Hub.linkUp, Hub.setFld, Hub.reg_setReg_same, Nat.mod_eq_of_lt (putBits_lt (by omega) (by omega) (h.reg_lt _)),
    bit_putBits (by omega), if_pos (by omega), Nat.add_sub_cancel_left]

theorem Hub.linkSpeed_setStatus (h : Hub) (p : Fin 2) (v : Nat) :
    (h.setFld 0x38 (4 * p + 3) (4 * p) v).linkSpeed p = bits v 2 1 := by
  have := p.isLt
  rw [Hub.linkSpeed, Hub.fld, Hub.setFld, Hub.reg_setReg_same, Nat.mod_eq_of_lt (putBits_lt (by omega) (by omega) (h.reg_lt _))]
  apply Nat.eq_of_testBit_eq; intro i
  rw [testBit_bits, testBit_bits, testBit_putBits (by omega)]
  by_cases low : i < 2
  · rw [if_pos (by omega), show 4 * p.val + 1 + i - 4 * p.val = 1 + i by omega]
    simp [low]
  · simp [low]

theorem bit_linkStatus (speed : Fin 3) (mdix : Bool) : bit (8 + 2 * speed + b2n mdix) 3 = true := by
  revert speed mdix; decide
theorem bits_linkStatus (speed : Fin 3) (mdix : Bool) : bits (8 + 2 * speed + b2n mdix) 2 1 = speed := by
  revert speed mdix; decide

/-- A port takes the speed that FORCE fixes, and without FORCE one that ADV advertises (R304). -/
theorem Hub.speedOk_iff (h : Hub) (p : Nat) (speed : Fin 3) : h.speedOk p speed = true ↔
    (if h.fld (kNet (0x400 + 0x10 * p)) 5 4 = 0 then bit (h.reg (kNet (0x400 + 0x10 * p))) speed = true
     else speed.val = if h.fld (kNet (0x400 + 0x10 * p)) 5 4 = 1 then 1 else 0) := by
  rw [Hub.speedOk, show h.fld (kNet (0x400 + 0x10 * p)) 5 4 = bits (h.reg (kNet (0x400 + 0x10 * p))) 5 4 from rfl]
  split
  case h_1 zero => simp [zero]
  case h_2 one => simp [one]
  case h_3 zero one => rw [if_neg zero, if_neg one, beq_iff_eq]

section link
variable {h : Hub} {p : Nat}

section down
variable (powered : bit (h.reg 0x39) p = true) (down : h.linkUp p = false) (opened : h.net.relay.closed = false)
include powered down opened

theorem Hub.phyUp_half (speed : Nat) (mdix : Bool) : h.phyUp p speed mdix true = h.issueLimited p (32 + p) 3 speed 0 0 := by
  rw [Hub.phyUp, if_neg (by simp [powered, down, opened]), if_pos rfl]

theorem Hub.phyUp_unable {speed : Nat} (unable : h.speedOk p speed = false) (mdix : Bool) : h.phyUp p speed mdix false = h := by
  rw [Hub.phyUp, if_neg (by simp [powered, down, opened]), if_neg (by decide), if_pos (by simp [unable])]

theorem Hub.phyUp_able {speed : Nat} (able : h.speedOk p speed = true) (mdix : Bool) : h.phyUp p speed mdix false =
    ((((h.setFld 0x38 (4 * p + 3) (4 * p) (8 + 2 * speed + b2n mdix)).addWrap (kNet (0x401 + 0x10 * p)) 1 1).setFlag
      (kNet 0x630)).issue (32 + p) 1 speed (b2n mdix) (b2n (h.fld (kNet (0x400 + 0x10 * p)) 5 4 != 0))) := by
  rw [Hub.phyUp, if_neg (by simp [powered, down, opened]), if_neg (by decide), if_neg (by simp [able])]
end down

theorem Hub.linkUp_congr {g : Hub} (same : g.reg 0x38 = h.reg 0x38) : g.linkUp p = h.linkUp p := by rw [Hub.linkUp, same, Hub.linkUp]

theorem direct_ne_kNet {a : Nat} (ha : a < 2 ^ 32) (o : Nat) : a ≠ kNet o := direct_ne_spc ha o

/-- The link word outlasts the count and the flag of a link change. -/
theorem Hub.reg_linkCounted (h : Hub) (o : Nat) : ((h.addWrap (kNet o) 1 1).setFlag (kNet 0x630)).reg 0x38 = h.reg 0x38 := by
  rw [Hub.setFlag, Hub.reg_setReg_other _ _ (direct_ne_kNet (by decide) _), Hub.addWrap, Hub.setRegN, Hub.setRegN,
    Hub.reg_setReg_other _ _ (direct_ne_kNet (by decide) _)]

theorem Hub.linkLost_up (up : h.linkUp p = true) (sending : Bool) : h.linkLost p sending =
    (let g := ((((h.sendLoss p sending true).cutLoss p true).setFld 0x38 (4 * p + 3) (4 * p) 0).addWrap
       (kNet (0x401 + 0x10 * p)) 1 1).setFlag (kNet 0x630)
     (g.issue (32 + p) 2 (h.linkSpeed p) (g.reg (kNet (0x401 + 0x10 * p))) 0).ptpLinkDown p) := by
  rw [Hub.linkLost, Hub.phyDown, if_neg (by simp [up])]

/-- A stored frame still being sent counts as lost with the link (R309). -/
theorem Hub.sendLoss_counted (sending : Bool) : h.sendLoss p sending true =
    if sending then (if (h.wire p).any fun w => w.since.isSome then (h.portErr p 6).setWire p none else h) else h.sentDone p := by
  cases sending <;> rfl
end link

/-! ### The bypass relay (R311, R312) -/

/-- The phase outlasts a write of BYP. -/
theorem Hub.phase_setBypass (h : Hub) (v : Nat) : (h.setFld 0x39 15 15 v).fld 0x04 15 12 = h.fld 0x04 15 12 :=
  h.fld_setFld_other _ _ _ _ _ (by decide)

theorem Hub.netOpen_open {h : Hub} (started : 3 ≤ h.fld 0x04 15 12) (cause : Nat) : h.netOpen cause = h.relayOpen cause := if_pos started
theorem Hub.netOpen_early {h : Hub} (early : h.fld 0x04 15 12 < 3) (cause : Nat) : h.netOpen cause = h := if_neg (Nat.not_le.2 early)

theorem Hub.relayFault_differs {h : Hub} (differs : h.net.relay.sensed ≠ h.net.relay.closed) : h.relayFault =
    (h.setFlag (kNet 0x631)).issueLimited 0 34 1 (b2n h.net.relay.closed) (b2n h.net.relay.sensed) 0 := if_neg differs

/-! ### Frames (R331, R332, R353, R370, R372) -/

section frames
variable {h : Hub}

theorem Hub.frameArrival_enters {p : Nat} (up : h.linkUp p = true) (room : h.flying < 256) (b : List Byte) : h.frameArrival p b =
    { h with net := { h.net with nextId := h.net.nextId + 1, fly := h.net.fly ++ [{ id := h.net.nextId, port := p, bytes := b }] } } := by
  rw [Hub.frameArrival, if_neg (by simp [up]), if_neg (Nat.not_le.2 room)]; rfl

theorem Hub.frameArrival_dropped {p : Nat} (up : h.linkUp p = true) (full : 256 ≤ h.flying) (b : List Byte) : h.frameArrival p b =
    ((h.clsCnt 0).setFlag (kCls 0x121)).issueLimited 0 49 1 (((h.clsCnt 0).setFlag (kCls 0x121)).reg (kCls 0x1220)) p 0 := by
  rw [Hub.frameArrival, if_neg (by simp [up]), if_pos full]

/-- The pass of a frame that has not decided and whose turn it is in its recirculation queue (R332, R372). -/
theorem Hub.passDecision_decides {i : Nat} {f : Fly} (there : h.net.fly[i]? = some f) (open_ : f.decided = false)
    (turn : f.recirc = 0 ∨ (h.recirc f.recirc).head? = some f.id) (idle : Bool) : h.passDecision i idle =
    (let p := f.parsed.getD (h.parse f.bytes)
     let g := h.modFly f.id fun x => { x with stamp := h.stamp, cells := cellsFor (p.declared.getD 2000), parsed := some p }
     if f.pass = 0 then g.passZero f.id { f with stamp := g.stamp } p idle else g.passOnce f.id p idle) := by
  have turns : ¬ (f.decided = true ∨ (f.recirc ≠ 0 ∧ (h.recirc f.recirc).head? ≠ some f.id)) := by
    rcases turn with first | head
    · simp [open_, first]
    · simp [open_, head]
  rw [Hub.passDecision, there]
  exact if_neg turns

/-- What a pass leaves of a frame: one that has ended and is decided leaves the switch (R331, R353). -/
def Hub.passLeft (h : Hub) (id : Nat) : Hub :=
  match h.flyOf id with
  | some f => (match f.ended with | some ok => if f.decided then h.finishFrame f ok else h | none => h)
  | none => h

theorem Hub.passStep_there {i : Nat} {f : Fly} (there : h.net.fly[i]? = some f) (idle : Bool) :
    h.passStep i idle = (h.passDecision i idle).passLeft f.id := by
  rw [Hub.passStep, there]
  rfl

/-- The judgement of a frame that ends, with its counters: its length, then its fate, then its declared length (R307, R338). -/
def Hub.endJudged (h : Hub) (f : Fly) (fate : Nat) : Hub × Bool :=
  let n := f.bytes.length + 4
  if n < 64 then (h.portErr f.port 1, false)
  else if 2000 < n then (h.portErr f.port 2, false)
  else if fate = 2 then (h.portErr f.port 3, false)
  else if fate = 3 then (h, false)
  else if fate = 1 ∨ n < (h.parse f.bytes).declared.getD 0 then (h.portErr f.port 0, false)
  else
    let good := (h.portCnt f.port 0 1).portCnt f.port 1 n
    (if isPause f.bytes then good.portErr f.port 4 else good, true)

/-- A frame that ends has its FCS result, and leaves the switch where its last pass has decided (R353). -/
def Hub.flyEnds (h : Hub) (f : Fly) (ok : Bool) (res : BitVec 64) (rx : Int) : Hub :=
  let g := fun x : Fly => { x with ended := some ok, residence := res, rx := rx }
  if f.decided then (h.modFly f.id g).finishFrame (g f) ok else h.modFly f.id g

theorem Hub.frameEnd_judged {i : Nat} {f : Fly} (there : h.net.fly[i]? = some f) (runs : f.ended = none) (fate : Nat)
    (res : BitVec 64) (rx : Int) : h.frameEnd i fate res rx = (h.endJudged f fate).1.flyEnds f (h.endJudged f fate).2 res rx := by
  rw [Hub.frameEnd, there]
  exact if_neg (by simp [runs])

section judged
variable {f : Fly} {fate : Nat}

theorem Hub.endJudged_runt (runt : f.bytes.length + 4 < 64) : h.endJudged f fate = (h.portErr f.port 1, false) := if_pos runt
theorem Hub.endJudged_over (long : 2000 < f.bytes.length + 4) : h.endJudged f fate = (h.portErr f.port 2, false) := by
  rw [Hub.endJudged, if_neg (by omega), if_pos long]

variable (long : 64 ≤ f.bytes.length + 4) (fits : f.bytes.length + 4 ≤ 2000)
include long fits

theorem Hub.endJudged_fits : h.endJudged f fate =
    if fate = 2 then (h.portErr f.port 3, false)
    else if fate = 3 then (h, false)
    else if fate = 1 ∨ f.bytes.length + 4 < (h.parse f.bytes).declared.getD 0 then (h.portErr f.port 0, false)
    else
      let good := (h.portCnt f.port 0 1).portCnt f.port 1 (f.bytes.length + 4)
      (if isPause f.bytes then good.portErr f.port 4 else good, true) := by
  rw [Hub.endJudged, if_neg (Nat.not_lt.2 long), if_neg (Nat.not_lt.2 fits)]

end judged

/-- An idle transmitter starts the frame at the head of the next queue (R370). -/
theorem Hub.transmit_starts {p q : Nat} {f : QFrame} {fs : List QFrame} (idle : h.cutting p = false) (up : h.linkUp p = true)
    (next : (h.sentDone p).nextQueue ((h.sentDone p).boundQueues 1 p fun q => match ((h.sentDone p).queue q).head? with
      | some f => f.fly.isNone && !(h.sentDone p).waitsSync p f.bytes
      | none => false) p = some q) (head : (h.sentDone p).queue q = f :: fs) (res : BitVec 64) : h.transmit p res =
    (let x := (((h.sentDone p).modQueue q fun _ => fs).served p q).passSwitch f.bytes f.port p res
     x.1.setWire p (some { bytes := x.2, stomp := false, since := some x.1.refMs })) := by
  rw [Hub.transmit, if_neg (by simp [idle, up])]
  dsimp only
  split
  case h_1 none_ => exact nomatch none_.symm.trans next
  case h_2 q' some_ =>
    obtain rfl : q' = q := Option.some.inj (some_.symm.trans next)
    rw [head]

end frames

/-- Settles O39, command by command. -/
theorem linksAndFramesAnswer : Obligations.LinksAndFramesAnswer := by
  refine ⟨fun s p speed mdix live powered down opened => ?up, fun s p sending live up => ?down, fun s live => ?relay,
    fun s sensed live => exec_relayChanged live sensed, fun s p b live up => ?arrives, fun s i idle f live there open_ turn => ?decides,
    fun s i fate res rx f live there runs => ?ends, fun s p res q f fs live idle up next head => ?transmits,
    fun s i live => exec_tcEntryTimeout live i⟩
  case up =>
    refine ⟨fun able => ?_, ?_, ?_, fun unable => ?_, ?_⟩
    · rw [exec_linkUp live, Hub.phyUp_able powered down opened ((s.hub.speedOk_iff p speed).2 able)]
    · rw [Hub.linkUp_setStatus, bit_linkStatus]
    · rw [Hub.linkSpeed_setStatus, bits_linkStatus]
    · rw [exec_linkUp live, Hub.phyUp_unable powered down opened
        (Bool.eq_false_iff.2 fun able => unable ((s.hub.speedOk_iff p speed).1 able))]
    · rw [exec_linkUp live, Hub.phyUp_half powered down opened]
  case down =>
    intro lost h g
    refine ⟨?_, ?_⟩
    · rw [exec_linkDown live, Hub.linkLost_up up, Hub.sendLoss_counted]
    · rw [Hub.linkUp_congr (Hub.reg_linkCounted _ _), Hub.linkUp_setStatus]; rfl
  case relay =>
    refine ⟨fun started => ?_, fun early => ?_, exec_netRelayClose live, fun differs => ?_⟩
    · rw [exec_netRelayOpen live, Hub.netOpen_open (by rwa [Hub.phase_setBypass])]; rfl
    · rw [exec_netRelayOpen live, Hub.netOpen_early (by rwa [Hub.phase_setBypass])]
    · rw [exec_relayFault live, Hub.relayFault_differs differs]
  case arrives =>
    refine ⟨fun room => ?_, fun full => ?_⟩
    · rw [exec_frameArrival live, Hub.frameArrival_enters up room]
    · rw [exec_frameArrival live, Hub.frameArrival_dropped up full]
  case decides =>
    intro p g decided
    rw [exec_passDecision live, Hub.passStep_there there, Hub.passDecision_decides there open_ turn]
    rfl
  case ends =>
    intro n short ends good
    have judged : ∀ g ok, s.hub.endJudged f fate = (g, ok) → exec (.frameEnd i fate res rx) s = ends g ok := fun g ok eq => by
      rw [exec_frameEnd live, Hub.frameEnd_judged there runs, eq]; rfl
    refine ⟨fun runt => judged _ _ (Hub.endJudged_runt runt), fun tooLong => judged _ _ (Hub.endJudged_over tooLong), fun long fits => ?_⟩
    have fated := Hub.endJudged_fits (h := s.hub) (fate := fate) long fits
    refine ⟨fun bad => judged _ _ ?_, fun symbol => judged _ _ ?_, fun cut => judged _ _ ?_, fun good whole => judged _ _ ?_⟩
    · rw [fated, if_neg (by omega), if_neg (by omega), if_pos (bad.imp_right And.right)]
    · rw [fated, if_pos symbol]
    · rw [fated, if_neg (by omega), if_pos cut]
    · rw [fated, if_neg (by omega), if_neg (by omega), if_neg (by rintro (one | less); exacts [by omega, whole less])]
  case transmits => exact (exec_frameTransmit live p res).trans (by rw [Hub.transmit_starts idle up next head])

end Sys2Proof.Machine
end

section
/-! PROOF. The ordinary clock: the messages it takes and sends, its time, its captures and its settings (O40). -/

namespace Sys2Proof.Machine

section runs
variable {s : State} (live : s.live = true)
include live

theorem exec_ptpAnnounceRx (m : PtpAnn) : exec (.ptpAnnounceRx m) s = .next (s.withHub (s.hub.announceRx m)) :=
  State.onHub_next live fun h => h.announceRx m
theorem exec_ptpSyncRx (m : PtpMsg) : exec (.ptpSyncRx m) s = .next (s.withHub (s.hub.syncRx m)) := State.onHub_next live fun h => h.syncRx m
theorem exec_ptpFollowUpRx (m : PtpMsg) : exec (.ptpFollowUpRx m) s = .next (s.withHub (s.hub.followUpRx m)) :=
  State.onHub_next live fun h => h.followUpRx m
theorem exec_ptpDelayRespRx (m : PtpMsg) : exec (.ptpDelayRespRx m) s = .next (s.withHub (s.hub.delayRespRx m)) :=
  State.onHub_next live fun h => h.delayRespRx m
theorem exec_ptpDelayReqRx (m : PtpMsg) : exec (.ptpDelayReqRx m) s = .next (s.withHub (s.hub.delayReqRx m)) :=
  State.onHub_next live fun h => h.delayReqRx m
theorem exec_ptpAnnounceTimeout : exec .ptpAnnounceTimeout s = .next (s.withHub s.hub.announceTimeout) :=
  State.onHub_next live Hub.announceTimeout
theorem exec_ptpAnnounceTx : exec .ptpAnnounceTx s = .next (s.withHub s.hub.announceTx) := State.onHub_next live Hub.announceTx
theorem exec_ptpSyncTx (ts : List Int) : exec (.ptpSyncTx ts) s = .next (s.withHub (s.hub.syncTx ts)) := State.onHub_next live fun h => h.syncTx ts
theorem exec_ptpDelayReqTx (t : Int) : exec (.ptpDelayReqTx t) s = .next (s.withHub (s.hub.ptpListen.delayReqTx t)) :=
  State.onHub_next live fun h => h.ptpListen.delayReqTx t
theorem exec_ptpTimeSet (sec : BitVec 48) (ns : BitVec 32) :
    exec (.ptpTimeSet sec ns) s = .next (s.withHub (s.hub.timeSet sec.toNat ns.toNat)) :=
  State.onHub_next live fun h => h.timeSet sec.toNat ns.toNat
theorem exec_timeCapture : exec .timeCapture s = .next (s.withHub s.hub.timeCapture) := State.onHub_next live Hub.timeCapture
theorem exec_profileChange (p : BitVec 2) : exec (.profileChange p) s = .next (s.withHub (s.hub.profileChange p.toNat)) :=
  State.onHub_next live fun h => h.profileChange p.toNat

end runs

section clock
variable {h : Hub}

theorem Hub.ptpListen_past (past : h.ptpState ≠ 1) : h.ptpListen = h := if_neg past

/-! ### Announce (R315, R318) -/

section announce
variable {m : PtpAnn}

/-- A foreign Announce of the clock's domain, heard past initialisation: ignored on the port to which its master is not bound, entered in
the table otherwise. -/
theorem Hub.announceRx_foreign (hears : h.ptpHears = true) (past : h.ptpState ≠ 1) (domain : m.dom.toNat = h.ptpSet 0)
    (foreign : m.ident.toNat / 65536 ≠ h.clockId) : h.announceRx m =
    if (h.ageMasters.net.ptp.masters.any fun x => x.ident == m.ident && x.bound && x.port != m.port.val) then h.ageMasters
    else (h.ageMasters.modPtp fun p => { p with masters := h.ageMasters.hearMaster m }).decideMaster false := by
  rw [Hub.announceRx, if_neg (by simp [hears, domain, foreign]), Hub.ptpListen_past past]

/-- A master that the table does not list is entered while there is room, unqualified. -/
theorem Hub.hearMaster_new (new : ∀ x ∈ h.net.ptp.masters, x.ident ≠ m.ident) (room : h.net.ptp.masters.length < 8) :
    h.hearMaster m = h.net.ptp.masters ++ [h.heard m none] := by
  have absent : ∀ x ∈ h.net.ptp.masters, ¬ (x.ident == m.ident && x.port == m.port.val) = true := fun x listed => by
    simp [new x listed]
  rw [Hub.hearMaster, if_neg (by rw [List.any_eq_true]; rintro ⟨x, listed, here⟩; exact absent x listed here),
    if_neg (by omega), List.find?_eq_none.2 absent]

/-- The entry of the only master listed is renewed. -/
theorem Hub.hearMaster_only {x : Foreign} (only : h.net.ptp.masters = [x]) (ident : x.ident = m.ident) (port : x.port = m.port.val) :
    h.hearMaster m = [h.heard m (some x)] := by
  simp [Hub.hearMaster, Hub.heard, only, ident, port]

end announce

theorem Hub.announceTimeout_slave (on : h.ptpOn = true) (slave : h.ptpState ≠ 6) (past : h.ptpState ≠ 1) : h.announceTimeout =
    (h.modPtp fun p => { p with masters := p.masters.filter fun m => some m.ident != h.net.ptp.parent }).decideMaster true := by
  rw [Hub.announceTimeout, if_neg (by simp [on, slave]), Hub.ptpListen_past past]

/-! ### Sync, Follow_Up and Delay_Resp of the master in use (R318, R321) -/

/-- The Syncs taken so far in the second of the reference time, and the clock with one more (R318). -/
def Hub.syncsNow (h : Hub) : Nat := if h.net.ptp.syncSec = h.refMs / 1000 then h.net.ptp.syncs else 0
def Hub.syncTaken (h : Hub) : Hub := h.modPtp fun p => { p with syncSec := h.refMs / 1000, syncs := h.syncsNow + 1 }

section master
variable {m : PtpMsg} (ours : h.fromMaster m = true)
include ours

/-- Syncs are worked on up to the 128th of a second. -/
theorem Hub.syncRx_ours : h.syncRx m =
    if 128 ≤ h.syncsNow then h.addSat (kNet 0x5CC) 2 1
    else if m.twoStep then h.syncTaken.modPtp fun p => { p with wait := some ⟨m.seq, quarterNs m.stamp, m.corr⟩ }
    else h.syncTaken.syncDone (m.time + m.corr) (quarterNs m.stamp) := by
  rw [Hub.syncRx, if_neg (by simp [ours])]
  rfl

theorem Hub.followUpRx_waited {w : SyncWait} (waits : h.net.ptp.wait = some w) (seq : w.seq = m.seq) :
    h.followUpRx m = h.syncDone (m.time + w.corr + m.corr) w.rx := by
  rw [Hub.followUpRx, if_neg (by simp [ours]), waits]
  exact if_pos seq

theorem Hub.delayRespRx_delay {t3 : Int} (req : m.req = h.portId) (seq : m.seq = h.net.ptp.reqSeq) (sent : h.net.ptp.t3 = some t3)
    (sync : h.net.ptp.haveSync = true) (used : h.net.ptp.fresh = false) : h.delayRespRx m =
    (((h.modPtp fun p => { p with t3 := none }).setRegN (kNet 0x5C3) 2 (BitVec.ofInt 32 (nsOf (divOpen
      ((h.net.ptp.t2 - t3) + (m.time - m.corr - h.net.ptp.t1)) 2))).toNat).modPtp fun p => { p with haveMpd := true, fresh := false }) := by
  rw [Hub.delayRespRx, if_neg (by simp [ours, req, seq]), sent]
  simp only [sync, used, Bool.not_true, Bool.false_eq_true, if_false]

end master

/-! ### As master and as slave (R317, R318) -/

theorem Hub.delayReqRx_answers {m : PtpMsg} (hears : h.ptpHears = true) (master : h.ptpState = 6) (domain : m.dom.toNat = h.ptpSet 0) :
    h.delayReqRx m = h.ptpSend m.port false (some m.peer) (h.ptpMessage 9 0 (m.corr - quarterNs m.stamp % 65536) m.seq 3 (h.ptpSet 3)
      (ptpStampBytes (quarterNs m.stamp) ++ beBytes 10 m.ident.toNat)) := by
  rw [Hub.delayReqRx, if_neg (by simp [hears, master, domain])]

theorem Hub.announceTx_master (on : h.ptpOn = true) (master : h.ptpState = 6) : h.announceTx =
    h.livePorts.foldl (fun g i => g.ptpSend i false none (h.ptpMessage 11 0x0008 0 h.net.ptp.seqAnn 5 (h.ptpSet 1) h.announceBody))
      (h.modPtp fun p => { p with seqAnn := p.seqAnn + 1 }) := by
  rw [Hub.announceTx, if_neg (by simp [on, master])]

theorem Hub.syncTx_master (on : h.ptpOn = true) (master : h.ptpState = 6) (ts : List Int) : h.syncTx ts =
    h.livePorts.foldl (fun g i =>
      let t := quarterNs (lget 0 ts i)
      let g := g.ptpSend i true none (g.ptpMessage 0 0x0200 0 h.net.ptp.seqSync 0 (g.ptpSet 2) (ptpStampBytes g.net.ptp.time))
      g.ptpSend i false none (g.ptpMessage 8 0 (t % 65536) h.net.ptp.seqSync 2 (g.ptpSet 2) (ptpStampBytes t)))
        (h.modPtp fun p => { p with seqSync := p.seqSync + 1 }) := by
  rw [Hub.syncTx, if_neg (by simp [on, master])]
  rfl

theorem Hub.delayReqTx_slave (on : h.ptpOn = true) (slave : h.ptpState = 8 ∨ h.ptpState = 9) (t : Int) : h.delayReqTx t =
    (let g := h.modPtp fun p => { p with reqSeq := p.reqSeq + 1, t3 := some (quarterNs t) }
     g.ptpSend g.ptpPort true none (g.ptpMessage 1 0 0 g.net.ptp.reqSeq 1 0x7F (beBytes 10 0))) := by
  rw [Hub.delayReqTx, if_neg (by simp [on, slave])]

/-! ### Time, captures and the profile (R316, R320, R323) -/

/-- Words stored as one field are the low and the high words stored as two. -/
theorem Hub.setRegN_add (h : Hub) (k a b n : Nat) : h.setRegN k (a + b) n = (h.setRegN k a n).setRegN (k + a) b (n / 65536 ^ a) := by
  induction a generalizing h k n with
  | zero => simp [Hub.setRegN]
  | succ a ih =>
    rw [show a + 1 + b = (a + b) + 1 by omega, Hub.setRegN, ih, Hub.setRegN, Nat.div_div_eq_div_mul, ← pow_succ', show k + 1 + a = k + (a + 1) by omega]

theorem Hub.regN_setRegN_apart (h : Hub) {j k : Nat} (l m n : Nat) (apart : j + l ≤ k ∨ k + m ≤ j) :
    (h.setRegN j l n).regN k m = h.regN k m :=
  Hub.regN_congr fun i low high => Hub.reg_setRegN_apart h _ _ (by omega)

@[simp] theorem Hub.regN_tookFree (h : Hub) (k m : Nat) : h.tookFree.regN k m = h.regN k m := Hub.regN_congr fun _ _ _ => rfl

theorem ptpField_seconds (n : Nat) : ptpField n % 65536 ^ 3 = n / 10 ^ 9 % 2 ^ 48 := by
  rw [ptpField, show 65536 ^ 3 = 2 ^ 48 from rfl, Nat.add_mul_mod_self_left, Nat.mod_mod]
theorem ptpField_nanoseconds (n : Nat) : ptpField n / 65536 ^ 3 % 65536 ^ 2 = n % 10 ^ 9 := by
  rw [ptpField, show 65536 ^ 3 = 2 ^ 48 from rfl, Nat.add_mul_div_left _ _ (by norm_num),
    Nat.div_eq_of_lt (Nat.mod_lt _ (by norm_num)), Nat.zero_add]
  exact Nat.mod_eq_of_lt ((Nat.mod_lt n (by norm_num)).trans (by norm_num))

/-- What a capture latches: DOM0's counter, and the local PTP time as seconds and nanoseconds. -/
theorem Hub.timeCapture_latches (h : Hub) : h.timeCapture.regN (kNet 0x611) 2 = h.clk.doms.e0.tick.toNat ∧
    h.timeCapture.regN (kNet 0x613) 3 = h.ptpNow / 10 ^ 9 % 2 ^ 48 ∧ h.timeCapture.regN (kNet 0x616) 2 = h.ptpNow % 10 ^ 9 ∧
    h.timeCapture.reg (kNet 0x610) = 0x8000 := by
  have words : ∀ k m, 0x611 ≤ k → h.timeCapture.regN (kNet k) m = (((h.setRegN (kNet 0x611) 2 h.stamp.toNat).setRegN (kNet 0x613) 3
      (ptpField h.ptpNow)).setRegN (kNet 0x616) 2 (ptpField h.ptpNow / 65536 ^ 3)).regN (kNet k) m := fun k m low => by
    rw [Hub.timeCapture, Hub.regN_tookFree, Hub.regN_setReg_apart _ _ (.inl ?_), Hub.setRegN_add _ _ 3 2]
    · rfl
    · simp only [kNet, spc]; omega
  refine ⟨?_, ?_, ?_, Hub.reg_setReg_same _ _ _⟩
  · rw [words _ _ le_rfl, Hub.regN_setRegN_apart _ _ _ _ (.inr (by decide)), Hub.regN_setRegN_apart _ _ _ _ (.inr (by decide)),
      Hub.regN_setRegN]
    exact Nat.mod_eq_of_lt h.stamp.isLt
  · rw [words _ _ (by decide), Hub.regN_setRegN_apart _ _ _ _ (.inr (by decide)), Hub.regN_setRegN, ptpField_seconds]
  · rw [words _ _ (by decide), Hub.regN_setRegN, ptpField_nanoseconds]

theorem Hub.timeSet_free (master : h.ptpState ≠ 8) (other : h.ptpState ≠ 9) (sec ns : Nat) :
    h.timeSet sec ns = h.modPtp fun p => { p with time := ptpTime sec ns, part := 0 } := if_neg (by simp [master, other])
theorem Hub.timeSet_slave (slave : h.ptpState = 8 ∨ h.ptpState = 9) (sec ns : Nat) : h.timeSet sec ns = h := if_pos slave

theorem Hub.profileChange_other {p : Nat} (known : p < 2) (other : h.fld 0x39 5 4 ≠ p) : h.profileChange p =
    (iter 7 (fun i g => g.setReg (kNet (0x580 + i)) (lget 0 [0, 1, if p = 1 then 0xFD else 0, if p = 1 then 0xFD else 0, 3, 128, 128] i))
      (h.setFld 0x39 5 4 p)).ptpRestart := by
  rw [Hub.profileChange, if_neg (by simp [other]; omega)]
  simp only [profileValues, beq_iff_eq]

end clock

/-- Settles O40, command by command. -/
theorem ptpCommandsAnswer : Obligations.PtpCommandsAnswer := by
  refine ⟨fun s m live hears past domain foreign => ?announce, fun s m live ours => ?sync,
    fun s m w live ours waits seq => (exec_ptpFollowUpRx live m).trans (by rw [Hub.followUpRx_waited ours waits seq]),
    fun s m t3 live ours req seq sent sync used =>
      (exec_ptpDelayRespRx live m).trans (by rw [Hub.delayRespRx_delay ours req seq sent sync used]),
    fun s m live hears master domain => (exec_ptpDelayReqRx live m).trans (by rw [Hub.delayReqRx_answers hears master domain]; rfl),
    fun s live on slave past => (exec_ptpAnnounceTimeout live).trans (by rw [Hub.announceTimeout_slave on slave past]),
    fun s live on master => ⟨?announces, fun ts => ?syncs⟩, fun s t live on slave => ?requests, fun s sec ns live => ⟨?set, ?keep⟩,
    fun s live => ⟨_, exec_timeCapture live, s.hub.timeCapture_latches⟩, fun s p live known other => ?profile⟩
  case announce =>
    intro h l entry
    have foreign := Hub.announceRx_foreign hears past domain foreign
    refine ⟨fun new room => ?_, fun x only ident port => ?_, fun bound => ?_⟩
    · rw [exec_ptpAnnounceRx live, foreign, if_neg, Hub.hearMaster_new new room]
      · rfl
      · rw [List.any_eq_true]
        rintro ⟨x, listed, same⟩
        exact new x listed (by simp_all)
    · rw [exec_ptpAnnounceRx live, foreign, if_neg, Hub.hearMaster_only only ident port]
      · rfl
      · rw [show s.hub.ageMasters.net.ptp.masters = [x] from only]
        simp [port]
    · obtain ⟨x, listed, ident, isBound, other⟩ := bound
      rw [exec_ptpAnnounceRx live, foreign, if_pos (List.any_eq_true.2 ⟨x, listed, by simp [ident, isBound, other]⟩)]
  case sync =>
    intro n took
    have ours := Hub.syncRx_ours ours
    refine ⟨fun many => ?_, fun few two => ?_, fun few one => ?_⟩
    · rw [exec_ptpSyncRx live, ours, if_pos (show 128 ≤ s.hub.syncsNow from many)]
    · rw [exec_ptpSyncRx live, ours, if_neg (show ¬ 128 ≤ s.hub.syncsNow from Nat.not_le.2 few), if_pos two]
      rfl
    · rw [exec_ptpSyncRx live, ours, if_neg (show ¬ 128 ≤ s.hub.syncsNow from Nat.not_le.2 few), if_neg (by simp [one])]
      rfl
  case announces => exact (exec_ptpAnnounceTx live).trans (by rw [Hub.announceTx_master on master])
  case syncs => exact (exec_ptpSyncTx live ts).trans (by rw [Hub.syncTx_master on master]; rfl)
  case requests =>
    refine (exec_ptpDelayReqTx live t).trans ?_
    rw [Hub.ptpListen_past (by omega), Hub.delayReqTx_slave on slave]
    rfl
  case set => exact fun master other => by rw [exec_ptpTimeSet live, Hub.timeSet_free master other]
  case keep => exact fun slave => by rw [exec_ptpTimeSet live, Hub.timeSet_slave slave]
  case profile => rw [exec_profileChange live, Hub.profileChange_other known other]

end Sys2Proof.Machine
end

section
/-! PROOF. Writes of the classifier's tables, of queue bindings and of the host rings (O41). -/

namespace Sys2Proof.Machine

section runs
variable {s : State} (live : s.live = true)
include live

theorem exec_clsEntryInsert (e : BitVec 14) (p : Fin 8) :
    exec (.clsEntryInsert e p) s = .next (s.wrote (s.hub.entryCtl e.toNat (0x8000 + p))) :=
  State.onWrite_next live fun h => h.entryCtl e.toNat (0x8000 + p)
theorem exec_clsActionChange (e : BitVec 14) (w : Word) :
    exec (.clsActionChange e w) s = .next (s.wrote (s.hub.entryAction e.toNat w.toNat)) :=
  State.onWrite_next live fun h => h.entryAction e.toNat w.toNat
theorem exec_clsEntryRemove (e : BitVec 14) :
    exec (.clsEntryRemove e) s = .next (s.wrote (s.hub.entryCtl e.toNat (s.hub.entProf e.toNat))) :=
  State.onWrite_next live fun h => h.entryCtl e.toNat (h.entProf e.toNat)
theorem exec_keyProfileWrite (p : Fin 8) (w : Word) :
    exec (.keyProfileWrite p w) s = .next (s.wrote (s.hub.profileWrite p w.toNat)) :=
  State.onWrite_next live fun h => h.profileWrite p w.toNat
theorem exec_fenceStart : exec .fenceStart s = .next (s.withHub s.hub.fenceGo) := State.onHub_next live Hub.fenceGo
theorem exec_fenceDone : exec .fenceDone s = .next (s.withHub s.hub.fenceDone) := State.onHub_next live Hub.fenceDone
theorem exec_seedWrite (t : Fin 2) (w : Word) : exec (.seedWrite t w) s = .next (s.wrote (s.hub.seedWrite t w.toNat)) :=
  State.onWrite_next live fun h => h.seedWrite t w.toNat
theorem exec_patternWrite (k : Fin 64) (w : Word) : exec (.patternWrite k w) s = .next (s.wrote (s.hub.patternWrite k w.toNat)) :=
  State.onWrite_next live fun h => h.patternWrite k w.toNat
theorem exec_fragTimeout (f : Fin 128) : exec (.fragTimeout f) s = .next (s.withHub (s.hub.fragTimeout f)) :=
  State.onHub_next live fun h => h.fragTimeout f
theorem exec_queueBind (q : Fin 1024) (w : Word) : exec (.queueBind q w) s = .next (s.wrote (s.hub.bindQueue q w.toNat)) :=
  State.onWrite_next live fun h => h.bindQueue q w.toNat
theorem exec_defaultTxWrite (p : Fin 2) (q : Fin 1024) : exec (.defaultTxWrite p q) s = .next (s.wrote (s.hub.setDefTx p q)) :=
  State.onWrite_next live fun h => h.setDefTx p q
theorem exec_rxRelease (r : Fin 16) (w : Word) : exec (.rxRelease r w) s = .next (s.withHub (s.hub.rxRelease r w.toNat)) :=
  State.onHub_next live fun h => h.rxRelease r w.toNat
theorem exec_txSend (t : Fin 16) (len : Word) : exec (.txSend t len) s = .next (s.wrote (s.hub.txSend t len.toNat)) :=
  State.onWrite_next live fun h => h.txSend t len.toNat
theorem exec_txSendDone (t : Fin 16) : exec (.txSendDone t) s = .next (s.withHub (s.hub.txSendDone t)) :=
  State.onHub_next live fun h => h.txSendDone t

end runs

/-! ### Entries of the hash tables (R341, R346, R350) -/

/-- Word 31 of an entry: V and PROF. -/
theorem bit_entCtl (p : Fin 8) : bit (0x8000 + p) 15 = true := by revert p; decide
theorem bits_entCtl (p : Fin 8) : bits (0x8000 + p) 2 0 = p := by revert p; decide

theorem Hub.entProf_lt (h : Hub) (e : Nat) : h.entProf e < 8 := bits_lt _ _ _
theorem bit_entProf (h : Hub) (e : Nat) : bit (h.entProf e) 15 = false :=
  Nat.testBit_lt_two_pow ((h.entProf_lt e).trans (by norm_num))
theorem bits_entProf (h : Hub) (e : Nat) : bits (h.entProf e) 2 0 = h.entProf e := by
  have := h.entProf_lt e
  simp only [bits]; omega

section entries
variable {h : Hub} {e : Nat}

/-- Another entry of the bucket with the profile and the key of entry `e`. -/
def Hub.Twin (h : Hub) (e p : Nat) : Prop :=
  ∃ i < 4, e / 4 * 4 + i ≠ e ∧ h.entV (e / 4 * 4 + i) = true ∧ h.entProf (e / 4 * 4 + i) = p ∧ h.entKey (e / 4 * 4 + i) = h.entKey e

theorem Hub.twin_iff (h : Hub) (e p : Nat) : ((List.range 4).any fun i => e / 4 * 4 + i != e && h.entV (e / 4 * 4 + i) &&
    h.entProf (e / 4 * 4 + i) == p && h.entKey (e / 4 * 4 + i) == h.entKey e) = true ↔ h.Twin e p := by
  simp only [Hub.Twin, List.any_eq_true, List.mem_range, Bool.and_eq_true, bne_iff_ne, beq_iff_eq, and_assoc]

section free
variable (unused : (h.clsFresh (kEnt e 31)).entV e = false) (p : Fin 8)
include unused

theorem Hub.entryCtl_inserts (alone : ¬ (h.clsFresh (kEnt e 31)).Twin e p) :
    h.entryCtl e (0x8000 + p) = ((h.clsFresh (kEnt e 31)).setReg (kEnt e 31) (0x8000 + p)).tblCnt e true := by
  rw [Hub.entryCtl, bit_entCtl, bits_entCtl]
  rw [if_neg (by simp [unused]), if_pos rfl]
  exact if_neg (mt (Hub.twin_iff _ _ _).1 alone)

theorem Hub.entryCtl_twin (twin : (h.clsFresh (kEnt e 31)).Twin e p) :
    h.entryCtl e (0x8000 + p) = (h.clsFresh (kEnt e 31)).failWin 3 (32 * e + 31) := by
  rw [Hub.entryCtl, bit_entCtl, bits_entCtl]
  rw [if_neg (by simp [unused]), if_pos rfl]
  exact if_pos ((Hub.twin_iff _ _ _).2 twin)

end free

section valid
variable (used : (h.clsFresh (kEnt e 31)).entV e = true)
include used

theorem Hub.entryCtl_otherProfile (p : Fin 8) (other : (h.clsFresh (kEnt e 31)).entProf e ≠ p) :
    h.entryCtl e (0x8000 + p) = (h.clsFresh (kEnt e 31)).failWin 3 (32 * e + 31) := by
  rw [Hub.entryCtl, bit_entCtl, bits_entCtl]
  rw [if_pos used, if_neg (by decide), if_neg (Ne.symm other)]

theorem Hub.entryCtl_removes : h.entryCtl e (h.entProf e) =
    ((h.clsFresh (kEnt e 31)).setReg (kEnt e 31) (h.entProf e)).tblCnt e false := by
  rw [Hub.entryCtl, bit_entProf, bits_entProf]
  rw [if_pos used, if_pos (by decide)]

end valid

theorem Hub.entryAction_known {w : Nat} (known : ((h.clsFresh (kEnt e 23)).setReg (kEnt e 23) w).fld (kEnt e 20) 3 0 ≤ 5) :
    h.entryAction e w = ((h.clsFresh (kEnt e 23)).setReg (kEnt e 23) w).enforceN (kEnt e 20) 4 := if_neg (by omega)
theorem Hub.entryAction_bad {w : Nat} (bad : 6 ≤ ((h.clsFresh (kEnt e 23)).setReg (kEnt e 23) w).fld (kEnt e 20) 3 0) :
    h.entryAction e w = (((h.clsFresh (kEnt e 23)).setReg (kEnt e 23) w).revertN (kEnt e 20) 4).failWin 3 (32 * e + 23) := if_pos bad

end entries

/-! ### Key profiles, the fence, seeds, patterns and fragments (R341, R348, R349, R358, R361) -/

section tables
variable {h : Hub}

theorem bits_low4 (w : Nat) : bits w 3 0 = w % 16 := by simp [bits]

/-- The width that field `i` of a profile has, if its field ID is defined. -/
def Hub.keyWidth (h : Hub) (p i : Nat) : Option Nat := (h.field {} 0 0 0 0 (h.fld (kCls (16 * p + i)) 4 0)).map (·.1)

/-- A profile of at most 12 defined fields whose widths fit in the key of 320 bits (R341). -/
def Hub.ProfileGood (h : Hub) (p n : Nat) : Prop :=
  n ≤ 12 ∧ (∀ i < n, (h.keyWidth p i).isSome = true) ∧ ((List.range n).map fun i => (h.keyWidth p i).getD 0).sum ≤ 320

theorem Hub.profileGood_iff (h : Hub) (p n : Nat) : h.ProfileGood p n ↔
    ¬ (12 < n ∨ (List.range n).any (fun i => (h.keyWidth p i).isNone) = true ∨ 320 < ((List.range n).map fun i => (h.keyWidth p i).getD 0).sum) := by
  simp only [Hub.ProfileGood, not_or, Nat.not_lt, List.any_eq_true, List.mem_range, not_exists, not_and, Option.isNone_iff_eq_none,
    Option.isSome_iff_ne_none, ne_eq]

/-- A profile's word +15 as it is stored. -/
def Hub.profileStored (h : Hub) (p w : Nat) : Hub := (h.clsFresh (kCls (16 * p + 15))).setReg (kCls (16 * p + 15)) (w &&& 0xE70F)

theorem Hub.profileWrite_good {p w : Nat} (good : (h.profileStored p w).ProfileGood p (w % 16)) :
    h.profileWrite p w = (h.profileStored p w).enforceN (kCls (16 * p)) 16 := by
  rw [Hub.profileWrite, bits_low4]
  exact if_neg ((Hub.profileGood_iff _ _ _).1 good)
theorem Hub.profileWrite_bad {p w : Nat} (bad : ¬ (h.profileStored p w).ProfileGood p (w % 16)) :
    h.profileWrite p w = ((h.profileStored p w).revertN (kCls (16 * p)) 16).failWin 3 (16 * p + 15) := by
  rw [Hub.profileWrite, bits_low4]
  exact if_pos (not_not.1 (mt (Hub.profileGood_iff _ _ _).2 bad))

theorem Hub.fenceDone_decided (decided : ∀ i ∈ h.net.fence, ∀ f, h.flyOf i = some f → f.decided = true) :
    h.fenceDone = { h.setReg (kCls 0x11E) 0 with net := { h.net with fence := [] } } := by
  refine if_neg fun waits => ?_
  obtain ⟨i, listed, waiting⟩ := List.any_eq_true.1 waits
  obtain ⟨f, found, undecided⟩ := (Option.any_eq_true _ _).1 waiting
  simp [decided i listed f found] at undecided

theorem Hub.seedWrite_empty {t : Nat} (empty : h.reg (kCls (0x11C + t)) = 0) (w : Nat) :
    h.seedWrite t w = (h.setReg (kCls (0x118 + 2 * t) + 1) w).enforceN (kCls (0x118 + 2 * t)) 2 := if_pos empty

theorem Hub.patternWrite_fits {w : Nat} (fits : bits w 7 0 + bits w 11 8 + 1 ≤ 256) (k : Nat) :
    h.patternWrite k w = ((h.clsFresh (kCls (0x210 + 32 * k))).setReg (kCls (0x210 + 32 * k)) w).enforceN (kCls (0x200 + 32 * k)) 17 :=
  if_neg (Nat.not_lt.2 fits)

theorem Hub.fragTimeout_used {i : Nat} {e : FragEntry} (used : h.frag i = some e) : h.fragTimeout i =
    ((h.setFrag i none).clsCnt 5).issueLimited 0 50 3 (if e.v6 then 6 else 4) (e.ident % 65536) (e.seen % 65536) := by
  rw [Hub.fragTimeout, used]

end tables

/-! ### Queues and host rings (R367, R371, R376, R377) -/

section queues
variable {h : Hub}

/-- A binding as it is stored: KIND, PRIO and TARGET. -/
def bindWord (w : Nat) : Nat := bits w 15 12 * 4096 + bits w 7 0

/-- The queues whose binding no write may change to the word `v`: the fixed ones, one that holds frames, a default transmit queue,
and any queue to recirculation. -/
def Hub.BindFixed (h : Hub) (q v : Nat) : Prop :=
  1020 ≤ q ∨ bits v 15 12 = 4 ∨ h.holdsFrames q = true ∨ q = h.defTx 0 ∨ q = h.defTx 1

/-- A KIND or a TARGET that R367 does not list. -/
def BindUnlisted (v : Nat) : Prop := 4 < bits v 15 12 ∨ (bits v 15 12 = 1 ∧ 1 < bits v 7 0) ∨ (bits v 15 12 = 2 ∧ 15 < bits v 7 0)

section bind
variable {q w : Nat} (change : bindWord w ≠ h.reg (kQue (4 * q)))
include change

theorem Hub.bindQueue_fails (fixed : h.BindFixed q (bindWord w)) : h.bindQueue q w = h.failWin 3 (4 * q) :=
  (if_neg change).trans (if_pos fixed)
theorem Hub.bindQueue_ignores (changeable : ¬ h.BindFixed q (bindWord w)) (unlisted : BindUnlisted (bindWord w)) : h.bindQueue q w = h :=
  (if_neg change).trans ((if_neg changeable).trans (if_pos unlisted))
theorem Hub.bindQueue_binds (changeable : ¬ h.BindFixed q (bindWord w)) (listed : ¬ BindUnlisted (bindWord w)) :
    h.bindQueue q w = h.setReg (kQue (4 * q)) (bindWord w) :=
  (if_neg change).trans ((if_neg changeable).trans (if_neg listed))

end bind

theorem Hub.setDefTx_bound {p q : Nat} (kind : h.qKind q = 1) (target : h.qTarget q = p) :
    h.setDefTx p q = h.setReg (kQue (0x3282 + p)) q := if_pos ⟨kind, target⟩

theorem Hub.rxRelease_head {r q : Nat} (head : tget (fun _ => none) h.net.heads r = some q) : h.rxRelease r 1 =
    ({ h.modQueue q List.tail with net := { (h.modQueue q List.tail).net with
      heads := tput (fun _ => none) (h.modQueue q List.tail).net.heads r none } } : Hub).ringHead r := by
  rw [Hub.rxRelease, if_neg (by decide), head]

theorem Hub.txSend_refused {t len : Nat} (idle : h.txBusy t = none) (bad : len = 0 ∨ 1996 < len) :
    h.txSend t len = h.issue 87 1 t 1 (h.fld (kTx t 1) 9 0) := by
  rw [Hub.txSend, if_neg (by simp [idle]), if_pos bad]

theorem Hub.txSend_sends {t len : Nat} (idle : h.txBusy t = none) (nonempty : 1 ≤ len) (fits : len ≤ 1996)
    (kind : h.qKind (h.fld (kTx t 1) 9 0) = 1) : h.txSend t len =
    { h with net := { h.net with txBusy := tput (fun _ => none) h.net.txBusy t (some (h.fld (kTx t 1) 9 0, h.wordBytes (kTx t 0x10) len)) } } := by
  rw [Hub.txSend, if_neg (by simp [idle]), if_neg (by omega), if_neg (not_not.2 kind)]

theorem Hub.txSendDone_busy {t q : Nat} {b : List Byte} (busy : h.txBusy t = some (q, b)) : h.txSendDone t =
    ({ h with net := { h.net with txBusy := tput (fun _ => none) h.net.txBusy t none } } : Hub).sendFrame q b := by
  rw [Hub.txSendDone, busy]

end queues

/-- Settles O41, command by command. -/
theorem classifierAndQueueWritesAnswer : Obligations.ClassifierAndQueueWritesAnswer := by
  refine ⟨fun s e p live => ?entries, fun s e w live => ?action, fun s p w live => ?profile, fun s live => ⟨exec_fenceStart live, ?fence⟩,
    fun s t w live empty => (exec_seedWrite live t w).trans (by rw [Hub.seedWrite_empty empty]; rfl),
    fun s k w live fits => (exec_patternWrite live k w).trans (by rw [Hub.patternWrite_fits fits]; rfl),
    fun s f e live used => (exec_fragTimeout live f).trans (by rw [Hub.fragTimeout_used used]), fun s q w live => ?bind,
    fun s p q live kind target => (exec_defaultTxWrite live p q).trans (by rw [Hub.setDefTx_bound kind target]),
    fun s r q live head => (exec_rxRelease live r 1).trans (congrArg (fun h : Hub => Host.Outcome.next (s.withHub h)) (Hub.rxRelease_head head)),
    fun s t len live idle => ⟨fun nonempty fits kind => ?sends, fun bad => ?refused⟩,
    fun s t q b live busy => (exec_txSendDone live t).trans (by rw [Hub.txSendDone_busy busy])⟩
  case entries =>
    refine ⟨fun unused alone => ?_, fun unused twin => ?_, fun used other => ?_, fun used => ?_⟩
    · rw [exec_clsEntryInsert live, Hub.entryCtl_inserts unused p alone]; rfl
    · rw [exec_clsEntryInsert live, Hub.entryCtl_twin unused p twin]
    · rw [exec_clsEntryInsert live, Hub.entryCtl_otherProfile used p other]
    · rw [exec_clsEntryRemove live, Hub.entryCtl_removes used]; rfl
  case action =>
    refine ⟨fun known => ?_, fun bad => ?_⟩
    · rw [exec_clsActionChange live, Hub.entryAction_known known]; rfl
    · rw [exec_clsActionChange live, Hub.entryAction_bad bad]; rfl
  case profile =>
    refine ⟨fun good => ?_, fun bad => ?_⟩
    · rw [exec_keyProfileWrite live, Hub.profileWrite_good good]; rfl
    · rw [exec_keyProfileWrite live, Hub.profileWrite_bad bad]; rfl
  case fence => exact fun decided => (exec_fenceDone live).trans (by rw [Hub.fenceDone_decided decided]; rfl)
  case bind =>
    refine ⟨fun change free odd => ?_, fun change free listed => ?_, fun change fixed => ?_⟩
    · rw [exec_queueBind live, Hub.bindQueue_ignores change free odd]
    · rw [exec_queueBind live, Hub.bindQueue_binds change free listed]; rfl
    · rw [exec_queueBind live, Hub.bindQueue_fails change fixed]
  case sends => rw [exec_txSend live, Hub.txSend_sends idle nonempty fits kind]
  case refused => rw [exec_txSend live, Hub.txSend_refused idle bad]

end Sys2Proof.Machine
end

section
/-! PROOF. Integrity lanes and stream contexts (O42). -/

namespace Sys2Proof.Machine

section runs
variable {s : State} (live : s.live = true)
include live

theorem exec_laneResult (l : Fin 4) (j : Fin 16) : exec (.laneResult l j) s = .next (s.withHub (s.hub.laneResult l j)) :=
  State.onHub_next live fun h => h.laneResult l j
theorem exec_reorderTimeout (c : Byte) (i : Nat) : exec (.reorderTimeout c i) s = .next (s.withHub (s.hub.reorderTimeout c.toNat i)) :=
  State.onHub_next live fun h => h.reorderTimeout c.toNat i
theorem exec_laneSelfCheck_good (l : Fin 4) : exec (.laneSelfCheck l true) s = .next s := State.onHub_next live fun h => h
theorem exec_laneSelfCheck_bad (l : Fin 4) : exec (.laneSelfCheck l false) s = .next (s.withHub (s.hub.laneFail l 1)) :=
  State.onHub_next live fun h => h.laneFail l 1
theorem exec_laneStall (l : Fin 4) :
    exec (.laneStall l) s = .next (s.withHub (if (s.hub.lane l).held.isEmpty then s.hub else s.hub.laneFail l 2)) :=
  State.onHub_next live fun h => if (h.lane l).held.isEmpty then h else h.laneFail l 2
theorem exec_streamEnable (c : Byte) (w : Word) :
    exec (.streamEnable c w) s = .next (s.withHub (s.hub.strEnable c.toNat (putBits w.toNat 15 15 1))) :=
  State.onHub_next live fun h => h.strEnable c.toNat (putBits w.toNat 15 15 1)
theorem exec_streamDisable (c : Byte) (w : Word) :
    exec (.streamDisable c w) s = .next (s.withHub (s.hub.strDisable c.toNat (putBits w.toNat 15 15 0))) :=
  State.onHub_next live fun h => h.strDisable c.toNat (putBits w.toNat 15 15 0)
theorem exec_keySetWrite (c : Byte) (w : Word) : exec (.keySetWrite c w) s = .next (s.withHub (s.hub.keySet c.toNat w.toNat)) :=
  State.onHub_next live fun h => h.keySet c.toNat w.toNat
theorem exec_confirmWindowEnd (c : Byte) (i : Nat) : exec (.confirmWindowEnd c i) s = .next (s.withHub (s.hub.windowEnd c.toNat i)) :=
  State.onHub_next live fun h => h.windowEnd c.toNat i

end runs

section streams
variable {h : Hub}

/-! ### Lanes (R380, R381, R615) -/

section result
variable {l j c id : Nat} (held : (h.lane l).held[j]? = some (c, id))
include held

/-- A result taken from its lane reaches its frame, or the job that waits for it. -/
theorem Hub.laneResult_frame {r : RxFrame}
    (frame : ((h.modLane l fun x => { x with held := x.held.eraseIdx j }).ctxOf c).frame id = some r) : h.laneResult l j =
    ((h.modLane l fun x => { x with held := x.held.eraseIdx j }).modCtx c fun x =>
      x.modFrame id fun r => { r with auth := some r.verdict }).judge c id := by
  rw [Hub.laneResult, held]
  dsimp only
  rw [frame]

theorem Hub.laneResult_job (job : ((h.modLane l fun x => { x with held := x.held.eraseIdx j }).ctxOf c).frame id = none) : h.laneResult l j =
    ((h.modLane l fun x => { x with held := x.held.eraseIdx j }).modCtx c fun x =>
      { x with jobs := x.jobs.map fun k => if k.id = id then { k with done := true } else k }).pushJobs c := by
  rw [Hub.laneResult, held]
  dsimp only
  rw [job]

end result

/-- A result that has waited behind others is released past the frames that were lost in a failed lane. -/
theorem Hub.reorderTimeout_waited {c i l : Nat} {r : RxFrame} {ok : Bool} (there : (h.ctxOf c).frames[i]? = some r) (res : r.res = some ok)
    (lane : r.lane = some l) (behind : i ≠ 0) (kept : r.lost = false) : h.reorderTimeout c i =
    (((h.modCtx c fun x => { x with frames := (x.frames.take i).filter (fun q => !q.lost) ++ x.frames.drop i }).releaseRx c r).addSat
      (kQue (0x32A5 + 8 * l)) 2 1).releaseCtx c := by
  rw [Hub.reorderTimeout, there]
  dsimp only
  rw [res, lane]
  exact if_neg (by simp [behind, kept])

/-- A working lane that fails: its frames and jobs are lost with it. -/
theorem Hub.laneFail_working {l : Nat} (working : (h.lane l).failed = false) (cause : Nat) : h.laneFail l cause =
    (let lost := (h.lane l).held
     let g := ((h.modLane l fun x => { x with failed := true, held := [] }).setFlag (kQue 0x32E0)).setFlag 0x7B
     let g := lost.foldl (fun g f =>
       (g.loseFrame f.1 f.2).modCtx f.1 fun x => { x with jobs := x.jobs.map fun k => if k.id = f.2 then { k with lost := true } else k }) g
     g.issue (80 + l) 1 cause lost.length ((List.range 4).filter fun i => !(g.lane i).failed).length) := by
  rw [Hub.laneFail, if_neg (by simp [working])]

/-! ### Contexts (R384, R390) -/

/-- Word 0x00 of a context stored as a write gives it. -/
def Hub.strStored (h : Hub) (c w : Nat) : Hub := h.setReg (str c 0) (h.strWord c w)

section enable
variable {c w : Nat}

theorem Hub.strEnable_starts (fine : (h.strStored c w).strCause c (h.strWord c w) = none) :
    h.strEnable c w = (h.strStored c w).modCtx c fun x => { x with starting := true, stopping := false } := by
  rw [Hub.strEnable, show h.setReg (str c 0) (h.strWord c w) = h.strStored c w from rfl, fine]

theorem Hub.strEnable_refused {x : Nat} (cause : (h.strStored c w).strCause c (h.strWord c w) = some x) :
    h.strEnable c w = ((h.strStored c w).setReg (str c 0) (h.reg (str c 0))).issue 85 4 c x 0 := by
  rw [Hub.strEnable, show h.setReg (str c 0) (h.strWord c w) = h.strStored c w from rfl, cause]

end enable

/-- The confirm window of an unresolved frame ends: it is rejected with cause 3. -/
theorem Hub.windowEnd_open {c i : Nat} {r r' : RxFrame} (there : (h.ctxOf c).frames[i]? = some r) (frame : (h.ctxOf c).frame r.id = some r')
    (unresolved : r'.res = none) : h.windowEnd c i = (h.reject c r' 3).releaseCtx c := by
  rw [Hub.windowEnd, there]
  dsimp only
  rw [Hub.rejectOpen, frame]
  exact if_neg (by simp [unresolved])

end streams

/-- Settles O42, command by command. -/
theorem lanesAndStreamsAnswer : Obligations.LanesAndStreamsAnswer := by
  refine ⟨fun s l j c id live held => ⟨fun r frame => ?result, fun job => ?job⟩, fun s c i r ok l live there res lane behind kept => ?late,
    fun s l live => ⟨exec_laneSelfCheck_good live l, fun working => ⟨?check, fun held => ?stall⟩⟩,
    fun s c w live => ⟨fun fine => ?starts, fun x cause => ?refused, exec_streamDisable live c w, exec_keySetWrite live c w⟩,
    fun s c i r r' live there frame unresolved => ?window⟩
  case result => rw [exec_laneResult live, Hub.laneResult_frame held frame]
  case job => rw [exec_laneResult live, Hub.laneResult_job held job]
  case late => rw [exec_reorderTimeout live, Hub.reorderTimeout_waited there res lane behind kept]
  case check => exact (exec_laneSelfCheck_bad live l).trans (by rw [Hub.laneFail_working working])
  case stall =>
    refine (exec_laneStall live l).trans ?_
    rw [if_neg (by rwa [List.isEmpty_iff]), Hub.laneFail_working working]
  case starts => exact (exec_streamEnable live c w).trans (by rw [Hub.strEnable_starts fine]; rfl)
  case refused => exact (exec_streamEnable live c w).trans (by rw [Hub.strEnable_refused cause]; rfl)
  case window => rw [exec_confirmWindowEnd live, Hub.windowEnd_open there frame unresolved]

end Sys2Proof.Machine
end

section
/-! PROOF. The AES3 ports: subframes, blocks, lock and the references that follow it, configuration writes (O43). -/

namespace Sys2Proof.Machine

section runs
variable {s : State} (live : s.live = true)
include live

theorem exec_aesSubframeRx (i ch : Fin 2) (w : BitVec 24) (v user cs parity viol : Bool) :
    exec (.aesSubframeRx i ch w v user cs parity viol) s = .next (s.withHub (s.hub.aesSubframe i ch w v user cs parity viol)) :=
  State.onHub_next live fun h => h.aesSubframe i ch w v user cs parity viol
theorem exec_aesBlockEnd (i : Fin 2) (rate : BitVec 32) (aligned alternating : Bool) :
    exec (.aesBlockEnd i rate aligned alternating) s = .next (s.withHub (s.hub.aesBlockEnd i rate.toNat aligned alternating)) :=
  State.onHub_next live fun h => h.aesBlockEnd i rate.toNat aligned alternating
theorem exec_aesLockLost (i : Fin 2) (cause : Fin 4) : exec (.aesLockLost i cause) s = .next (s.withHub (s.hub.aesUnlock i cause)) :=
  State.onHub_next live fun h => h.aesUnlock i cause
theorem exec_aesInputEnable (i : Fin 2) (w : Word) :
    exec (.aesInputEnable i w) s = .next (s.withHub (s.hub.icfgWrite i (putBits w.toNat 15 15 1))) :=
  State.onHub_next live fun h => h.icfgWrite i (putBits w.toNat 15 15 1)
theorem exec_aesInputDisable (i : Fin 2) :
    exec (.aesInputDisable i) s = .next (s.withHub (s.hub.icfgWrite i (putBits (s.hub.reg (0x42 + i)) 15 15 0))) :=
  State.onHub_next live fun h => h.icfgWrite i (putBits (h.reg (0x42 + i)) 15 15 0)
theorem exec_aesInputConfig (i : Fin 2) (w : Word) :
    exec (.aesInputConfig i w) s = .next (s.withHub (s.hub.icfgWrite i (putBits w.toNat 15 15 (s.hub.fld (0x42 + i) 15 15)))) :=
  State.onHub_next live fun h => h.icfgWrite i (putBits w.toNat 15 15 (h.fld (0x42 + i) 15 15))
theorem exec_aesOutputEnable (o : Fin 2) (w : Word) :
    exec (.aesOutputEnable o w) s = .next (s.withHub (s.hub.ocfgWrite o (putBits w.toNat 15 15 1))) :=
  State.onHub_next live fun h => h.ocfgWrite o (putBits w.toNat 15 15 1)
theorem exec_aesOutputDisable (o : Fin 2) (w : Word) :
    exec (.aesOutputDisable o w) s = .next (s.withHub (s.hub.ocfgWrite o (putBits w.toNat 15 15 0))) :=
  State.onHub_next live fun h => h.ocfgWrite o (putBits w.toNat 15 15 0)

end runs

/-! ### References that follow an input (R66, R68, R411) -/

/-- `g` keeps the state word of reference `r` and the AES3 inputs of `h`. -/
structure Hub.KeepsRef (h g : Hub) (r : Nat) : Prop where
  word : g.reg (kRef r 0) = h.reg (kRef r 0)
  inputs : g.aesIn = h.aesIn

namespace Hub.KeepsRef
variable {h g k : Hub} {r : Nat}

theorem refl (h : Hub) (r : Nat) : h.KeepsRef h r := ⟨rfl, rfl⟩
theorem trans (first : h.KeepsRef g r) (second : g.KeepsRef k r) : h.KeepsRef k r :=
  ⟨second.word.trans first.word, second.inputs.trans first.inputs⟩

theorem setReg (kept : h.KeepsRef g r) {j : Nat} (n : Nat) (apart : kRef r 0 ≠ j) : h.KeepsRef (g.setReg j n) r :=
  kept.trans ⟨Hub.reg_setReg_other _ _ apart, rfl⟩
theorem modCore (kept : h.KeepsRef g r) (c : Nat) (f : ClkCore → ClkCore) : h.KeepsRef (g.modCore c f) r := kept.trans ⟨rfl, rfl⟩
theorem issue (kept : h.KeepsRef g r) (src code d0 d1 d2 : Nat) : h.KeepsRef (g.issue src code d0 d1 d2) r :=
  kept.trans ⟨g.reg_issue src code d0 d1 d2 _, g.issue_aesIn src code d0 d1 d2⟩

/-- The words of SUPCNT stand below the space of the clock. -/
theorem issueLimited (kept : h.KeepsRef g r) {src : Nat} (known : src < 256) (sub code d0 d1 d2 : Nat) :
    h.KeepsRef (g.issueLimited sub src code d0 d1 d2) r := by
  obtain ⟨cp, counted⟩ := g.noteRefusal_frame src code
  have noted : g.KeepsRef (g.noteRefusal src code) r := by rw [counted]; exact ⟨rfl, rfl⟩
  refine kept.trans ?_
  unfold Hub.issueLimited
  split
  · exact noted
  · split
    · refine noted.trans ⟨Hub.reg_setRegN_apart _ _ _ (.inr ?_), ?_⟩
      · simp only [spc, kRef]; omega
      · obtain ⟨regs, stored⟩ := (g.noteRefusal src code).setRegN_frame (spc 2 (0x2300 + 2 * src)) 2
          (satN (65536 ^ 2 - 1) ((g.noteRefusal src code).regN (spc 2 (0x2300 + 2 * src)) 2 + 1))
        rw [Hub.addSat, stored]
    · exact ((refl g r).issue src code d0 d1 d2).trans ⟨rfl, rfl⟩

section eval
variable (input : r < 3)
include input

theorem commitSwitch (kept : h.KeepsRef g r) {c : Nat} (core : c < 2) (x : Nat) (e : Int) : h.KeepsRef (g.commitSwitch c x e) r := by
  have apart : ∀ w < 8, kRef r 0 ≠ kCore c w := fun w low => by simp only [kRef, kCore, spc]; omega
  exact (((kept.modCore c _).setReg _ (apart 3 (by decide))).setReg _ (apart 1 (by decide))).issue _ _ _ _ _

theorem enterHold (kept : h.KeepsRef g r) {c : Nat} (core : c < 2) (held : Int) : h.KeepsRef (g.enterHold c held) r := by
  have apart : ∀ w < 8, kRef r 0 ≠ kCore c w := fun w low => by simp only [kRef, kCore, spc]; omega
  have flag : kRef r 0 ≠ kCksFlag 0 := by simp only [kRef, kCksFlag, spc]; omega
  exact ((((kept.modCore c _).setReg _ (apart 2 (by decide))).setReg _ (apart 1 (by decide))).setReg _ flag).issue _ _ _ _ _

/-- A core that evaluates its candidates stays, switches or enters holdover. -/
theorem evalRefs (kept : h.KeepsRef g r) {c : Nat} (core : c < 2) (e held : Int) : h.KeepsRef (g.evalRefs c e held) r := by
  unfold Hub.evalRefs
  dsimp only
  split
  iterate 2
    · split
      · exact kept.commitSwitch input core _ _
      · exact kept
  · split
    · split
      · exact kept.commitSwitch input core _ _
      · split
        · exact kept.commitSwitch input core _ _
        · exact kept
    · split
      · exact kept
      · exact kept.enterHold input core _
  all_goals exact kept

theorem evalBoth (kept : h.KeepsRef g r) (m : ClkMeas) : h.KeepsRef (g.evalBoth m) r :=
  (kept.evalRefs input (by decide) _ _).evalRefs input (by decide) _ _

end eval
end Hub.KeepsRef

/-- The words of a reference besides its state word. -/
theorem kRef_state_ne {r w : Nat} (other : 0 < w ∧ w < 4) : kRef r 0 ≠ kRef r w := by simp only [kRef, spc]; omega

theorem Hub.refState_of_word {h : Hub} {r n : Nat} (word : h.reg (kRef r 0) = n) : h.refState r = bits n 1 0 := by rw [Hub.refState, Hub.fld, word]

theorem aesFamily_le (c : Nat) : aesFamily c ≤ 2 := by unfold aesFamily; split_ifs <;> omega

section references
variable {h : Hub} {r : Nat} (input : r < 3)
include input

/-- A reference that breaks a cause is absent, whatever it was; the inputs are as they were. -/
theorem Hub.refLose_absent {cause : Nat} (broken : cause ≠ 0) (off drift : Word) (m : ClkMeas) :
    (h.refLose r cause off drift m).refState r = 0 ∧ (h.refLose r cause off drift m).aesIn = h.aesIn := by
  by_cases absent : h.refState r = 0
  · rw [Hub.refLose, if_pos (.inl absent)]
    exact ⟨absent, rfl⟩
  · rw [Hub.refLose, if_neg (not_or.2 ⟨absent, broken⟩)]
    have flag : kRef r 0 ≠ kCksFlag 2 := by simp only [kRef, kCksFlag, spc]; omega
    have told := ((((Hub.KeepsRef.refl (h.setReg (kRef r 0) 0) r).setReg off.toNat (kRef_state_ne (w := 1) (by decide))).setReg drift.toNat
      (kRef_state_ne (w := 2) (by decide))).setReg 0 (kRef_state_ne (w := 3) (by decide))).issueLimited (src := 98 + r) (by omega) r 2 cause
        off.toNat drift.toNat
    have gone : ∀ g : Hub, (h.setReg (kRef r 0) 0).KeepsRef g r → g.refState r = 0 ∧ g.aesIn = h.aesIn := fun g kept =>
      ⟨Hub.refState_of_word (kept.word.trans (Hub.reg_setReg_same _ _ _)), kept.inputs⟩
    dsimp only
    split
    · exact gone _ ((told.setReg _ flag).evalBoth input m)
    · exact gone _ (told.evalBoth input m)

/-- A signal on an absent reference starts its qualification: its state word holds the class. -/
theorem Hub.refValid_word (absent : h.refState r = 0) (present : h.refPresent r = true) (off drift : Word) (m : ClkMeas) :
    (h.refValid r off drift m).reg (kRef r 0) = (4 * (h.refClass r).2 + 1) % 65536 := by
  rw [Hub.refValid_starts absent present]
  have kept := ((((Hub.KeepsRef.refl ((h.refClass r).1.setReg (kRef r 0) (4 * (h.refClass r).2 + 1)) r).setReg off.toNat
    (kRef_state_ne (w := 1) (by decide))).setReg drift.toNat (kRef_state_ne (w := 2) (by decide))).setReg ((h.refClass r).1.fld 0x35 7 0)
      (kRef_state_ne (w := 3) (by decide))).evalBoth input m
  exact kept.word.trans (Hub.reg_setReg_same _ _ _)

end references

theorem Hub.refPresent_input (h : Hub) (i : Nat) : h.refPresent (1 + i) = ((h.ain i).en && (h.ain i).lock) := by rw [Nat.add_comm 1 i]; rfl
theorem Hub.refClass_input (h : Hub) (i : Nat) : (h.refClass (1 + i)).2 = aesFamily (h.ain i).cls := by rw [Nat.add_comm 1 i]; rfl

section input
variable {h : Hub} (i : Fin 2)

theorem Hub.refGone_absent {cause : Nat} (broken : cause ≠ 0) :
    (h.refGone (1 + i) cause).refState (1 + i) = 0 ∧ (h.refGone (1 + i) cause).aesIn = h.aesIn :=
  Hub.refLose_absent (h := { h with free := h.free + 6 }) (by omega) broken _ _ _

/-- The absent reference of an input that is enabled and locked qualifies in the class of the input. -/
theorem Hub.refAppears_qualifies (absent : h.refState (1 + i) = 0) (en : (h.ain i).en = true) (lock : (h.ain i).lock = true) :
    (h.refAppears (1 + i)).refState (1 + i) = 1 ∧ (h.refAppears (1 + i)).fld (kRef (1 + i) 0) 3 2 = aesFamily (h.ain i).cls := by
  have family := aesFamily_le (h.ain i).cls
  have present : ({ h with free := h.free + 6 } : Hub).refPresent (1 + i) = true :=
    (Hub.refPresent_input _ i).trans (Bool.and_eq_true_iff.2 ⟨en, lock⟩)
  have cls : (({ h with free := h.free + 6 } : Hub).refClass (1 + i)).2 = aesFamily (h.ain i).cls := Hub.refClass_input _ i
  have word := Hub.refValid_word (h := { h with free := h.free + 6 }) (by omega) absent present (h.freeWord 4) (h.freeWord 5) h.freeMeas
  rw [cls, Nat.mod_eq_of_lt (by omega)] at word
  refine ⟨(Hub.refState_of_word word).trans ?_, (congrArg (bits · 3 2) word).trans ?_⟩
  · simp only [bits]; omega
  · simp only [bits]; omega

@[simp] theorem Hub.ain_modAin_same (f : AesIn → AesIn) : (h.modAin i f).ain i = f (h.ain i) := by
  rw [Hub.ain, Hub.modAin, Two.get_mod _ _ _ i.isLt, if_pos rfl, Hub.ain]

theorem Hub.ain_congr {g : Hub} (inputs : g.aesIn = h.aesIn) (j : Nat) : g.ain j = h.ain j := by rw [Hub.ain, inputs, Hub.ain]

theorem Hub.aesRate_aesIn (j : Nat) : (h.aesRate j).aesIn = h.aesIn := by
  obtain ⟨regs, stored⟩ := h.setRegN_frame (kAin j 2) 2
    (if (h.ain j).rates.isEmpty then 0 else (divOpen ((h.ain j).rates.sum : Nat) (h.ain j).rates.length).toNat)
  rw [Hub.aesRate, stored]

/-- The words of a reference stand below those of the AES3 ports. -/
theorem Hub.refState_aesRate (h : Hub) (i j : Fin 2) : (h.aesRate i).refState (1 + j) = h.refState (1 + j) := by
  rw [Hub.refState, Hub.fld, Hub.aesRate, Hub.reg_setRegN_apart _ _ _ (.inl ?_), Hub.refState, Hub.fld]
  simp only [kRef, kAin, spc]; omega

/-! ### Lock (R407 to R409, R411) -/

/-- An input that locks in a class presents its reference. -/
theorem Hub.aesLock_appears {rate : Nat} (en : (h.ain i).en = true) (absent : h.refState (1 + i) = 0) :
    (h.aesLock i rate).refState (1 + i) = 1 ∧ (h.aesLock i rate).fld (kRef (1 + i) 0) 3 2 = aesFamily (aesClass rate) := by
  have input : ∀ f src code d0 d1 d2, (((h.modAin i f).aesRate i).issue src code d0 d1 d2).ain i = f (h.ain i) := fun f _ _ _ _ _ =>
    (Hub.ain_congr ((Hub.issue_aesIn ..).trans (Hub.aesRate_aesIn _)) i).trans (Hub.ain_modAin_same i f)
  rw [Hub.aesLock]
  refine (Hub.refAppears_qualifies i ?_ ?_ ?_).imp_right fun family => family.trans ?_
  · exact (Hub.refState_of_word (Hub.reg_issue ..)).trans ((Hub.refState_aesRate _ i i).trans absent)
  · rw [input]; exact en
  · rw [input]
  · rw [input]

theorem Hub.aesUnlock_gone {cause : Nat} (locked : (h.ain i).lock = true) (broken : cause ≠ 0) : (h.aesUnlock i cause).refState (1 + i) = 0 := by
  rw [Hub.aesUnlock, if_neg (by simp [locked, broken])]
  exact (Hub.refGone_absent i (by decide)).1

theorem Hub.aesReclass_appears {c : Nat} (en : (h.ain i).en = true) (locked : (h.ain i).lock = true) :
    (h.aesReclass i c).refState (1 + i) = 1 ∧ (h.aesReclass i c).fld (kRef (1 + i) 0) 3 2 = aesFamily c := by
  obtain ⟨absent, inputs⟩ := Hub.refGone_absent (h := (h.modAin i fun x => { x with cls := c }).issue (112 + i) 3 (h.ain i).cls c 0) i
    (cause := 4) (by decide)
  have input := (Hub.ain_congr (inputs.trans (Hub.issue_aesIn ..)) i).trans (Hub.ain_modAin_same i fun x => { x with cls := c })
  rw [Hub.aesReclass]
  refine (Hub.refAppears_qualifies i absent ?_ ?_).imp_right fun family => family.trans ?_
  · rw [input]; exact en
  · rw [input]; exact locked
  · rw [input]

/-- Bits and blocks of both channels begin anew after a block (R412). -/
def Hub.aesBlockCleared (h : Hub) (i : Nat) : Hub := h.modAin i fun x =>
  { x with a := { x.a with cs := [], user := [], bad := false, vLast := x.a.v, v := false },
           b := { x.b with cs := [], user := [], bad := false, vLast := x.b.v, v := false } }

section block
variable {rate : Nat} {aligned alternating : Bool} (en : (h.ain i).en = true)
include en

theorem Hub.aesBlockEnd_locks (unlocked : (h.ain i).lock = false) (class_ : aesClass rate ≠ 0) :
    h.aesBlockEnd i rate true true = (h.aesLock i rate).aesBlockCleared i := by
  rw [Hub.aesBlockEnd, if_neg (by simp [en])]
  dsimp only
  rw [if_pos (by simp [unlocked]), if_pos (by simp [class_])]
  rfl
theorem Hub.aesBlockEnd_ignored (unlocked : (h.ain i).lock = false) (bad : (aligned && alternating) = false) :
    h.aesBlockEnd i rate aligned alternating = h.aesBlockCleared i := by
  rw [Hub.aesBlockEnd, if_neg (by simp [en])]
  dsimp only
  rw [if_pos (by simp [unlocked]), if_neg (by simp [bad])]
  rfl
theorem Hub.aesBlockEnd_unlocks (locked : (h.ain i).lock = true) :
    h.aesBlockEnd i rate false alternating = (h.aesUnlock i 3).aesBlockCleared i := by
  rw [Hub.aesBlockEnd, if_neg (by simp [en])]
  dsimp only
  rw [if_neg (by simp [locked]), if_pos (by decide)]
  rfl

end block
end input

/-! ### Configuration writes (R422, R424, R427) -/

theorem bit_eq_bits (n i : Nat) : bit n i = decide (bits n i i = 1) := by
  rw [bits_single]; cases bit n i <;> rfl

/-- AES_ICFGi as it is stored. -/
def icfgWord (raw : Nat) : Nat := bits raw 15 12 * 4096 + bits raw 10 8 * 256

theorem bits_icfgWord (raw : Nat) : bits (icfgWord raw) 14 12 = bits raw 14 12 := by simp only [icfgWord, bits]; omega
theorem bit_icfgWord (raw : Nat) : bit (icfgWord raw) 15 = bit raw 15 := by
  rw [bit_eq_bits, bit_eq_bits]; simp only [icfgWord, bits]; congr 1; apply propext; omega
theorem bit_ocfgWord (raw : Nat) : bit (bits raw 15 12 * 4096) 15 = bit raw 15 := by
  rw [bit_eq_bits, bit_eq_bits]; simp only [bits]; congr 1; apply propext; omega

theorem bit_putTop (w : Nat) : bit (putBits w 15 15 1) 15 = true := bit_putBits le_rfl w 1 15
theorem bit_clearTop (w : Nat) : bit (putBits w 15 15 0) 15 = false := bit_putBits le_rfl w 0 15

/-- The cause for which a write of AES_ICFGi is refused (R427). -/
def Hub.icfgCause (h : Hub) (i w : Nat) : Option Nat :=
  let old := h.reg (0x42 + i)
  let d := bits w 13 12
  if ! (decide (bit w 15 ∧ ¬ bit old 15) || decide (bits w 14 12 ≠ bits old 14 12)) then none
  else if bit old 15 ∧ bits w 14 12 ≠ bits old 14 12 then some 1
  else if ! (h.dom d).en then some 2
  else if ! h.ainSlotOk i d 0 ∨ ! h.ainSlotOk i d 1 then some 3
  else if bit w 14 ∧ h.asrcFree.isNone then some 4
  else none

/-- What a write of AES_ICFGi that is not refused does (R411, R427). -/
def Hub.icfgTaken (h : Hub) (i w : Nat) : Hub :=
  let g := h.setReg (0x42 + i) w
  if bit w 15 ∧ ¬ bit (h.reg (0x42 + i)) 15 then
    (match bit w 14, g.asrcFree with
      | true, some c => (g.setReg (kAsrc c) 0x4000).modAin i fun x => { x with asrc := some c }
      | _, _ => g).modAin i fun x => { x with starting := true }
  else if ¬ bit w 15 ∧ bit (h.reg (0x42 + i)) 15 then ((g.ainFree i).modAin i fun _ => {}).refGone (1 + i) 1
  else g

section input
variable {h : Hub} {i raw : Nat}

theorem Hub.icfgWrite_refused {c : Nat} (cause : h.icfgCause i (icfgWord raw) = some c) :
    h.icfgWrite i raw = (h.setFlag (kAesFlag 8)).issue (112 + i) 6 c raw 0 := by
  change (match h.icfgCause i (icfgWord raw) with | some c => _ | none => _) = _
  rw [cause]

theorem Hub.icfgWrite_taken (fine : h.icfgCause i (icfgWord raw) = none) : h.icfgWrite i raw = h.icfgTaken i (icfgWord raw) := by
  change (match h.icfgCause i (icfgWord raw) with | some c => _ | none => _) = _
  rw [fine]
  rfl

variable {w : Nat}

/-- An input that stays as it is enabled is not judged. -/
theorem Hub.icfgCause_same (still : bit w 15 = false ∨ bit (h.reg (0x42 + i)) 15 = true)
    (same : bits w 14 12 = bits (h.reg (0x42 + i)) 14 12) : h.icfgCause i w = none := by
  refine if_pos ?_
  rcases still with down | on
  · simp [down, same]
  · simp [on, same]

theorem Hub.icfgCause_running (up : bit (h.reg (0x42 + i)) 15 = true) (other : bits w 14 12 ≠ bits (h.reg (0x42 + i)) 14 12) :
    h.icfgCause i w = some 1 := (if_neg (by simp [other])).trans (if_pos ⟨up, other⟩)

section rises
variable (up : bit w 15 = true) (down : bit (h.reg (0x42 + i)) 15 = false)
include up down

theorem Hub.icfgCause_domain (off : (h.dom (bits w 13 12)).en = false) : h.icfgCause i w = some 2 :=
  (if_neg (by simp [up, down])).trans ((if_neg (by simp [down])).trans (if_pos (by simp [off])))

theorem Hub.icfgCause_direct (on : (h.dom (bits w 13 12)).en = true) (a : h.ainSlotOk i (bits w 13 12) 0 = true)
    (b : h.ainSlotOk i (bits w 13 12) 1 = true) (direct : bit w 14 = false) : h.icfgCause i w = none :=
  (if_neg (by simp [up, down])).trans ((if_neg (by simp [down])).trans ((if_neg (by simp [on])).trans
    ((if_neg (by simp [a, b])).trans (if_neg (by simp [direct])))))

theorem Hub.icfgTaken_direct (direct : bit w 14 = false) :
    h.icfgTaken i w = (h.setReg (0x42 + i) w).modAin i fun x => { x with starting := true } := by
  rw [Hub.icfgTaken, if_pos ⟨up, by simp [down]⟩, direct]

end rises

theorem Hub.icfgTaken_stays (up : bit w 15 = true) (on : bit (h.reg (0x42 + i)) 15 = true) : h.icfgTaken i w = h.setReg (0x42 + i) w :=
  (if_neg (by simp [on])).trans (if_neg (by simp [up]))

theorem Hub.icfgTaken_falls (down : bit w 15 = false) (on : bit (h.reg (0x42 + i)) 15 = true) : h.icfgTaken i w =
    (((h.setReg (0x42 + i) w).ainFree i).modAin i fun _ => {}).refGone (1 + i) 1 :=
  (if_neg (by simp [on])).trans (if_pos ⟨by simp [down], on⟩)

end input

section output
variable {h : Hub} {o w : Nat}

theorem Hub.ocfgWrite_starts (up : bit w 15 = true) (down : bit (h.reg (0x44 + o)) 15 = false) (clock : (h.aoutClk o).en = true)
    (divider : h.aoutMatches o = true) (a : h.aoutSlotOk o 0 = true) (b : h.aoutSlotOk o 1 = true) : h.ocfgWrite o w =
    (h.setReg (0x44 + o) (bits w 15 12 * 4096)).modAout o fun x => { x with starting := true, stopping := false } := by
  rw [Hub.ocfgWrite, bit_ocfgWord, if_pos ⟨up, by simp [down]⟩, if_neg (by simp [clock]), if_neg (by simp [divider]), if_neg (by simp [a, b])]

theorem Hub.ocfgWrite_clockless (up : bit w 15 = true) (down : bit (h.reg (0x44 + o)) 15 = false) (clock : (h.aoutClk o).en = false) :
    h.ocfgWrite o w = (h.setFlag (kAesFlag 8)).issue (114 + o) 3 1 (h.aoutClk o).n (h.dom (h.aoutClk o).dom).field := by
  rw [Hub.ocfgWrite, bit_ocfgWord, if_pos ⟨up, by simp [down]⟩, if_pos (by simp [clock])]

theorem Hub.ocfgWrite_stops (down : bit w 15 = false) (on : bit (h.reg (0x44 + o)) 15 = true) : h.ocfgWrite o w =
    (h.setReg (0x44 + o) (bits w 15 12 * 4096)).modAout o fun x => { x with starting := false, stopping := x.run } := by
  rw [Hub.ocfgWrite, bit_ocfgWord, if_neg (by simp [down]), if_pos ⟨by simp [down], on⟩]

end output

/-- A subframe of an enabled input (R412). -/
theorem Hub.aesSubframe_enabled {h : Hub} {i : Nat} (en : (h.ain i).en = true) (c : Nat) (w : BitVec 24) (v u s parity viol : Bool) :
    h.aesSubframe i c w v u s parity viol =
    (let g := if parity then h.rxError i c 1 else h
     let g := if viol then g.rxError i c 2 else g
     let g := if v then g.ainCnt i 4 1 else g
     let g := if (h.ain i).lock ∧ c = 1 then g.addWrap (kAin i 8) 3 1 else g
     let swap := parity || viol || (v && bit (h.reg (0x42 + i)) 9)
     g.modAin i fun x => x.modCh c fun k =>
       { k with word := if swap then (if bit (h.reg (0x42 + i)) 8 then 0 else k.good) else w, good := if swap then k.good else w,
                done := k.done + 1, cs := k.cs ++ [s], user := k.user ++ [u], bad := k.bad || (parity || viol), v := k.v || v }) := by
  rw [Hub.aesSubframe, if_neg (by simp [en])]

/-- Settles O43, command by command. -/
theorem aesCommandsAnswer : Obligations.AesCommandsAnswer := by
  refine ⟨fun s i ch w v user cs parity viol live en => ?subframe, fun s i rate live en => ⟨fun unlocked known => ?locks,
      fun aligned alternating unlocked bad => ?ignored, fun alternating locked => ?unlocks⟩, fun s i cause live locked broken => ?lost,
    fun h i rate en _ absent => Hub.aesLock_appears i en absent, fun h i cause locked broken => Hub.aesUnlock_gone i locked (Fin.val_ne_of_ne broken),
    fun h i c en locked _ => Hub.aesReclass_appears i en locked, fun s i w live => ?input, fun s o w live => ?output⟩
  case subframe => exact (exec_aesSubframeRx live i ch w v user cs parity viol).trans (by rw [Hub.aesSubframe_enabled en])
  case locks => exact (exec_aesBlockEnd live i rate true true).trans (by rw [Hub.aesBlockEnd_locks i en unlocked known]; rfl)
  case ignored => exact (exec_aesBlockEnd live i rate aligned alternating).trans (by rw [Hub.aesBlockEnd_ignored i en unlocked bad]; rfl)
  case unlocks => exact (exec_aesBlockEnd live i rate false alternating).trans (by rw [Hub.aesBlockEnd_unlocks i en locked]; rfl)
  case lost =>
    refine (exec_aesLockLost live i cause).trans ?_
    rw [Hub.aesUnlock, if_neg (by simp [locked, broken])]
  case input =>
    intro cfg old on
    have up : bit on 15 = true := (bit_icfgWord _).trans (bit_putTop _)
    have kept : bit old 15 = true → putBits w.toNat 15 15 (s.hub.fld (0x42 + i) 15 15) = putBits w.toNat 15 15 1 := fun was => by
      rw [Hub.fld, bits_single, was]; rfl
    refine ⟨fun down en a b direct => ?_, fun down off => ?_, fun was other => ?_, fun was same => ?_, fun was => ?_⟩
    · rw [exec_aesInputEnable live, Hub.icfgWrite_taken (Hub.icfgCause_direct up down en a b direct), Hub.icfgTaken_direct (w := icfgWord _) up down direct]
      rfl
    · rw [exec_aesInputEnable live, Hub.icfgWrite_refused (Hub.icfgCause_domain up down off)]
    · rw [exec_aesInputConfig live, kept was, Hub.icfgWrite_refused (Hub.icfgCause_running was other)]
    · rw [exec_aesInputConfig live, kept was, Hub.icfgWrite_taken (Hub.icfgCause_same (.inr was) same), Hub.icfgTaken_stays (w := icfgWord _) up was]
      rfl
    · have down := (bit_icfgWord (putBits old 15 15 0)).trans (bit_clearTop _)
      have same : bits (icfgWord (putBits old 15 15 0)) 14 12 = bits old 14 12 :=
        (bits_icfgWord _).trans (bits_putBits_apart le_rfl (.inl (by decide)) (by decide) _ _)
      rw [exec_aesInputDisable live, Hub.icfgWrite_taken (Hub.icfgCause_same (.inl down) same), Hub.icfgTaken_falls down was]
      rfl
  case output =>
    refine ⟨fun down clock divider a b => ?_, fun down clock => ?_, fun on => ?_⟩
    · rw [exec_aesOutputEnable live, Hub.ocfgWrite_starts (bit_putTop _) down clock divider a b]
    · rw [exec_aesOutputEnable live, Hub.ocfgWrite_clockless (bit_putTop _) down clock]
    · rw [exec_aesOutputDisable live, Hub.ocfgWrite_stops (bit_clearTop _) on]

end Sys2Proof.Machine
end

section
/-! PROOF. Slots, crosspoints, scenes and the noise-adaptive gain of the route matrix (O44). -/

namespace Sys2Proof.Machine

section runs
variable {s : State} (live : s.live = true)
include live

theorem exec_slotAllocate (slot : Fin 512) (u : Word) : exec (.slotAllocate slot u) s = .next (s.withHub (s.hub.slotWrite slot u.toNat)) :=
  State.onHub_next live fun h => h.slotWrite slot u.toNat
theorem exec_xpCreate (x : Fin 4096) (w0 : Word) (snk : Fin 512) (gain ramp : Word) : exec (.xpCreate x w0 snk gain ramp) s =
    .next (s.withHub (s.hub.xpStore x (putBits w0.toNat 15 15 1) snk gain.toNat ramp.toNat)) :=
  State.onHub_next live fun h => h.xpStore x (putBits w0.toNat 15 15 1) snk gain.toNat ramp.toNat
theorem exec_xpChange (x : Fin 4096) (w0 gain ramp : Word) : exec (.xpChange x w0 gain ramp) s = .next (s.withHub (s.hub.xpStore x
    (putBits (putBits w0.toNat 15 15 (s.hub.fld (kXp x 0) 15 15)) 8 0 (s.hub.fld (kXp x 0) 8 0)) (s.hub.reg (kXp x 1)) gain.toNat ramp.toNat)) :=
  State.onHub_next live fun h =>
    h.xpStore x (putBits (putBits w0.toNat 15 15 (h.fld (kXp x 0) 15 15)) 8 0 (h.fld (kXp x 0) 8 0)) (h.reg (kXp x 1)) gain.toNat ramp.toNat
theorem exec_xpReplaceSource (x : Fin 4096) (src : Fin 512) : exec (.xpReplaceSource x src) s = .next (s.withHub
    (s.hub.xpStore x (putBits (s.hub.reg (kXp x 0)) 8 0 src) (s.hub.reg (kXp x 1)) (s.hub.reg (kXp x 2)) (s.hub.reg (kXp x 3)))) :=
  State.onHub_next live fun h => h.xpStore x (putBits (h.reg (kXp x 0)) 8 0 src) (h.reg (kXp x 1)) (h.reg (kXp x 2)) (h.reg (kXp x 3))
theorem exec_xpRemove (x : Fin 4096) (ramp : Word) : exec (.xpRemove x ramp) s = .next (s.withHub
    (s.hub.xpStore x (putBits (s.hub.reg (kXp x 0)) 15 15 0) (s.hub.reg (kXp x 1)) (s.hub.reg (kXp x 2)) ramp.toNat)) :=
  State.onHub_next live fun h => h.xpStore x (putBits (h.reg (kXp x 0)) 15 15 0) (h.reg (kXp x 1)) (h.reg (kXp x 2)) ramp.toNat
theorem exec_xpRampEnd (x : Fin 4096) : exec (.xpRampEnd x) s = .next (s.withHub (s.hub.rampEnd x).chimeFreed) :=
  State.onHub_next live fun h => (h.rampEnd x).chimeFreed
theorem exec_crossfadeEnd (x : Fin 4096) : exec (.crossfadeEnd x) s = .next (s.withHub (s.hub.fadeOver x)) :=
  State.onHub_next live fun h => h.fadeOver x
theorem exec_sceneGo (w : Word) : exec (.sceneGo w) s = .next (s.withHub (s.hub.sceneGo w.toNat)) := State.onHub_next live fun h => h.sceneGo w.toNat
theorem exec_activeHoldEnd (x : Fin 4096) : exec (.activeHoldEnd x) s = .next (s.withHub (s.hub.holdEnd x)) :=
  State.onHub_next live fun h => h.holdEnd x
theorem exec_nagWrite (k : Fin 512) (w : Word) : exec (.nagWrite k w) s = .next (s.wrote (s.hub.nagWrite k w.toNat)) :=
  State.onWrite_next live fun h => h.nagWrite k w.toNat

end runs

section matrix
variable {h : Hub}

/-! ### Slots (R466) -/

theorem Hub.slotWrite_refused {slot u c : Nat} (cause : h.slotCause slot (h.reg (kSlot slot 0)) u = some c) : h.slotWrite slot u =
    (((h.revert (kSlot slot 0)).revert (kSlot slot 1)).setFlag (kRtm 0xB000)).issue 160 2 slot c (h.reg (kSlot slot 0)) := by
  rw [Hub.slotWrite, cause]

theorem Hub.slotWrite_allocates {slot u : Nat} (fine : h.slotCause slot (h.reg (kSlot slot 0)) u = none) : h.slotWrite slot u =
    (let g := ((h.setReg (kSlot slot 1) u).enforce (kSlot slot 0)).enforce (kSlot slot 1)
     ({ g with bus := tput (fun _ => {}) g.bus slot {}, rtm := { g.rtm with snks := tput (fun _ => {}) g.rtm.snks slot {} } } : Hub).calHitSink
       slot) := by
  rw [Hub.slotWrite, fine]

/-! ### Crosspoints (R468 to R472, R474) -/

/-- The four words of an entry as a write stores them; a RAMP above 1,000 leaves the one in force. -/
def Hub.xpPut (h : Hub) (x a b c d : Nat) : Hub :=
  (((h.setReg (kXp x 0) a).setReg (kXp x 1) b).setReg (kXp x 2) c).setReg (kXp x 3)
    (if 1000 < bits d 9 0 then bits (h.eff (kXp x 3)) 9 0 else bits d 9 0)

section entry
variable {x a b c d : Nat}

theorem Hub.xpStore_refused {cause : Nat} (bad : (h.xpPut x a b c d).xpCause x ((h.xpPut x a b c d).xpWords x) = some cause) :
    h.xpStore x a b c d = (h.xpPut x a b c d).xpRefuse x cause (lget 0 ((h.xpPut x a b c d).xpWords x) 1) := by
  change (match (h.xpPut x a b c d).xpCause x ((h.xpPut x a b c d).xpWords x) with | some c => _ | none => _) = _
  rw [bad]
  rfl

variable (fine : (h.xpPut x a b c d).xpCause x ((h.xpPut x a b c d).xpWords x) = none)
include fine

/-- Without HELD the words take effect at the next tick of the sink's domain. -/
theorem Hub.xpStore_next (now : bit (lget 0 ((h.xpPut x a b c d).xpWords x) 0) 14 = false) : h.xpStore x a b c d =
    (h.xpPut x a b c d).modXp x fun e => { e with next := some (((h.xpPut x a b c d).xpWords x).map (BitVec.ofNat 16)), later := true } := by
  change (match (h.xpPut x a b c d).xpCause x ((h.xpPut x a b c d).xpWords x) with | some c => _ | none => _) = _
  rw [fine]
  exact if_neg (Bool.eq_false_iff.1 now)

/-- With HELD they wait for RTM_GO. -/
theorem Hub.xpStore_held (held : bit (lget 0 ((h.xpPut x a b c d).xpWords x) 0) 14 = true) : h.xpStore x a b c d =
    (h.xpPut x a b c d).modXp x fun e => { e with wait := some (((h.xpPut x a b c d).xpWords x).map (BitVec.ofNat 16)), later := false } := by
  change (match (h.xpPut x a b c d).xpCause x ((h.xpPut x a b c d).xpWords x) with | some c => _ | none => _) = _
  rw [fine]
  exact if_pos held

end entry

section ramp
variable {x : Nat} {r : Ramp} (ramp : (h.xp x).ramp = some r) (done : r.n ≤ r.j)
include ramp done

theorem Hub.rampEnd_removed (removing : (h.xp x).removing = true) : h.rampEnd x = (h.modXp x Xp.blank).asrcSweep := by
  rw [Hub.rampEnd, ramp]
  exact (if_neg (Nat.not_lt.2 done)).trans (if_pos removing)
theorem Hub.rampEnd_stays (stays : (h.xp x).removing = false) : h.rampEnd x = h.modXp x fun e => { e with ramp := none, a := r.a1 } := by
  rw [Hub.rampEnd, ramp]
  exact (if_neg (Nat.not_lt.2 done)).trans (if_neg (by simp [stays]))

end ramp

theorem Hub.fadeOver_ends {x old n j : Nat} (fade : (h.xp x).fade = some (old, n, j)) (done : n ≤ j) (alone : (h.xp x).heldSrc = none) :
    h.fadeOver x = (h.modXp x fun e => { e with fade := none }).asrcSweep := by
  rw [Hub.fadeOver, fade]
  exact if_pos ⟨done, by simp [alone]⟩

theorem Hub.sceneGo_releases {w : Nat} (key : w / 256 = 0x6D) : h.sceneGo w =
    (h.rtm.xps.map (·.1)).foldl (fun h x => if (h.xp x).wait.isSome then h.modXp x Xp.release else h) h := if_neg (not_not.2 key)
theorem Hub.sceneGo_keyless {w : Nat} (key : w / 256 ≠ 0x6D) : h.sceneGo w = h := if_pos key

theorem Hub.holdEnd_quiet {x : Nat} (quiet : h.xpActive x = false) : h.holdEnd x = h.modXp x fun e => { e with quiet := none } :=
  if_neg (by simp [quiet])

/-! ### The noise-adaptive gain (R478) -/

/-- A write of the gain that fails: the slot is no sink, or its zone drives the gain and the write changes it. -/
def Hub.NagFixed (h : Hub) (k w : Nat) : Prop :=
  h.isSink k = false ∨ (bit (h.reg (kSnk k 5)) 15 = true ∧ bits w 8 0 ≠ h.fld (kSnk k 5) 8 0)

theorem Hub.nagFixed_iff (h : Hub) (k w : Nat) : h.NagFixed k w ↔
    ((!h.isSink k) = true ∨ (bit (h.reg (kSnk k 5)) 15 = true ∧ bits w 8 0 ≠ h.fld (kSnk k 5) 8 0)) := by
  rw [Hub.NagFixed, Bool.not_eq_true']

theorem Hub.nagWrite_fails {k w : Nat} (fixed : h.NagFixed k w) : h.nagWrite k w = h.failWin 3 (0x9005 + 16 * k) :=
  if_pos ((h.nagFixed_iff k w).1 fixed)
theorem Hub.nagWrite_stores {k w : Nat} (free : ¬ h.NagFixed k w) : h.nagWrite k w = h.setReg (kSnk k 5)
    (putBits (if bits w 8 0 ≤ 240 then bits w 8 0 else h.fld (kSnk k 5) 8 0) 15 15 (bits w 15 15)) :=
  if_neg (mt (h.nagFixed_iff k w).2 free)

end matrix

/-- Settles O44, command by command; the four commands of a crosspoint store its words alike. -/
theorem routeCommandsAnswer : Obligations.RouteCommandsAnswer := by
  refine ⟨fun s slot u live => ⟨fun fine => ?allocates, fun c cause => ?refused⟩, fun s x w0 gain ramp snk src live => ?stores,
    fun s x r live ramp done => ⟨fun removing => ?removed, fun stays => ?stays⟩,
    fun s x old n j live fade done alone => (exec_crossfadeEnd live x).trans (by rw [Hub.fadeOver_ends fade done alone]),
    fun s w live => ⟨fun key => ?go, fun key => ?keyless⟩,
    fun s x live quiet => (exec_activeHoldEnd live x).trans (by rw [Hub.holdEnd_quiet quiet]),
    fun s k w live => ⟨fun fixed => ?fixed, fun free => ?gain⟩⟩
  case allocates => exact (exec_slotAllocate live slot u).trans (by rw [Hub.slotWrite_allocates fine])
  case refused => exact (exec_slotAllocate live slot u).trans (by rw [Hub.slotWrite_refused cause])
  case stores =>
    intro put lands
    have landed : ∀ i a b c d, exec i s = .next (s.withHub (s.hub.xpStore x a b c d)) → lands i (put a b c d) := fun i a b c d run =>
      ⟨fun c bad => run.trans (by rw [Hub.xpStore_refused bad]; rfl), fun fine now => run.trans (by rw [Hub.xpStore_next fine now]; rfl),
        fun fine held => run.trans (by rw [Hub.xpStore_held fine held]; rfl)⟩
    exact ⟨landed _ _ _ _ _ (exec_xpCreate live x w0 snk gain ramp), landed _ _ _ _ _ (exec_xpChange live x w0 gain ramp),
      landed _ _ _ _ _ (exec_xpReplaceSource live x src), landed _ _ _ _ _ (exec_xpRemove live x ramp)⟩
  case removed => rw [exec_xpRampEnd live, Hub.rampEnd_removed ramp done removing]
  case stays => rw [exec_xpRampEnd live, Hub.rampEnd_stays ramp done stays]
  case go => rw [exec_sceneGo live, Hub.sceneGo_releases key]
  case keyless => rw [exec_sceneGo live, Hub.sceneGo_keyless key]
  case fixed => rw [exec_nagWrite live, Hub.nagWrite_fails fixed]
  case gain => rw [exec_nagWrite live, Hub.nagWrite_stores free]

end Sys2Proof.Machine
end

section
/-! PROOF. Analog inputs, the train lines and the Caption Data Carrier (O45). -/

namespace Sys2Proof.Machine

section runs
variable {s : State} (live : s.live = true)
include live

theorem exec_adcInputEnable (v : Byte) : exec (.adcInputEnable v) s = .next (s.withHub (s.hub.inenWrite v.toNat)) :=
  State.onHub_next live fun h => h.inenWrite v.toNat
theorem exec_adcModeWrite (n : Fin 8) (w : Word) : exec (.adcModeWrite n w) s = .next (s.withHub (s.hub.adcCfg n w.toNat)) :=
  State.onHub_next live fun h => h.adcCfg n w.toNat
theorem exec_gainWrite (n : Fin 8) (g : BitVec 6) : exec (.gainWrite n g) s = .next (s.withHub (s.hub.gainWrite n g.toNat)) :=
  State.onHub_next live fun h => h.gainWrite n g.toNat
theorem exec_gainStep (u : Fin 10) : exec (.gainStep u) s = .next (s.withHub (s.hub.gainStep u)) := State.onHub_next live fun h => h.gainStep u
theorem exec_clipHoldEnd (n : Fin 8) (near : Bool) : exec (.clipHoldEnd n near) s = .next (s.withHub (s.hub.clipEnd n near)) :=
  State.onHub_next live fun h => h.clipEnd n near
theorem exec_biasCheck (n : Fin 8) (ua : Word) (limit : Bool) : exec (.biasCheck n ua limit) s =
    .next (s.withHub (s.hub.biasCheck n ua.toNat limit)) := State.onHub_next live fun h => h.biasCheck n ua.toNat limit
theorem exec_tlEnable (v : BitVec 2) : exec (.tlEnable v) s = .next (s.withHub (s.hub.tlEnable v.toNat)) :=
  State.onHub_next live fun h => h.tlEnable v.toNat
theorem exec_tlRelayOpen : exec .tlRelayOpen s = .next (s.withHub ((s.hub.setFld 0x4A 15 15 0).tlOpen 2)) :=
  State.onHub_next live fun h => (h.setFld 0x4A 15 15 0).tlOpen 2
theorem exec_tlRelayClose : exec .tlRelayClose s = .next (s.withHub ((s.hub.setFld 0x4A 15 15 1).tlRelayClose 2)) :=
  State.onHub_next live fun h => (h.setFld 0x4A 15 15 1).tlRelayClose 2
theorem exec_tlRelayChanged (sensed : Bool) : exec (.tlRelayChanged sensed) s = .next (s.withHub (s.hub.tlRelayChanged sensed)) :=
  State.onHub_next live fun h => h.tlRelayChanged sensed
theorem exec_tlRelayFault : exec .tlRelayFault s = .next (s.withHub s.hub.tlRelayFault) := State.onHub_next live Hub.tlRelayFault
theorem exec_cdcTxCommand (w : Word) : exec (.cdcTxCommand w) s = .next (s.withHub (s.hub.cdcCommand w.toNat)) :=
  State.onHub_next live fun h => h.cdcCommand w.toNat
theorem exec_cdcTxStart (t : Fin 2) : exec (.cdcTxStart t) s = .next (s.withHub (s.hub.cdcStart t)) := State.onHub_next live fun h => h.cdcStart t
theorem exec_cdcTxDone (t : Fin 2) : exec (.cdcTxDone t) s = .next (s.withHub (s.hub.cdcDone t)) := State.onHub_next live fun h => h.cdcDone t

/-- A message that is not accepted leaves what its reception leaves (R443). -/
theorem exec_cdcRx_dropped {t : Fin 2} {b : List Byte} {lost : Bool} {g : Hub} (got : s.hub.cdcReceive t b lost = (g, none)) :
    exec (.cdcRx t b lost) s = .next (s.withHub g) :=
  (State.onHub_next live fun h => match h.cdcReceive t b lost with | (h, some b) => h.caption t b | (h, none) => h).trans (by rw [got])

/-- A message that is accepted goes on to the caption port with its bytes (R442, R522). -/
theorem exec_cdcRx_accepted {t : Fin 2} {b m : List Byte} {lost : Bool} {g : Hub} (got : s.hub.cdcReceive t b lost = (g, some m)) :
    exec (.cdcRx t b lost) s = .next (s.withHub (g.caption t m)) :=
  (State.onHub_next live fun h => match h.cdcReceive t b lost with | (h, some b) => h.caption t b | (h, none) => h).trans (by rw [got])

end runs

section analog
variable {h : Hub}

/-! ### Enables (R431) -/

theorem Hub.inenWrite_walk (h : Hub) (w : Nat) : h.inenWrite w = iter 8 (fun n h =>
    if bit w n = bit (h.reg 0x48) n then h
    else if bit w n = false then h.setFld 0x48 n n 0
    else match h.enableRefused (n / 4) (h.fld (kAdc n 1) 8 0) 1 n with
      | some c => (h.setFlag (kAioFlag 8)).issue (120 + n) 3 c (h.fld (kAdc n 1) 8 0) 0
      | none => h.setFld 0x48 n n 1) h := by
  refine congrArg (fun f => iter 8 f h) (funext fun n => funext fun g => ?_)
  by_cases same : bit w n = bit (g.reg 0x48) n
  · rw [if_pos same, if_pos same]
  by_cases off : bit w n = false
  · rw [if_neg same, if_neg same, if_pos (by simp [off]), if_pos off]
  · have on : ¬ (!bit w n) = true := by simpa using off
    exact ((if_neg same).trans (if_neg on)).trans ((if_neg same).trans (if_neg off)).symm

theorem Hub.tlEnable_walk (h : Hub) (w : Nat) : h.tlEnable w = iter 2 (fun t h =>
    if bit w t = bit (h.reg 0x4A) t then h
    else if bit w t = false then h.setFld 0x4A t t 0
    else match h.enableRefused 3 (h.fld (kTl t 0) 8 0) 2 t, h.enableRefused 3 (h.fld (kTl t 1) 8 0) 6 t with
      | some c, _ => (h.setFlag (kAioFlag 8)).issue (128 + t) 5 c (h.fld (kTl t 0) 8 0) 0
      | none, some c => (h.setFlag (kAioFlag 8)).issue (128 + t) 5 c (h.fld (kTl t 1) 8 0) 0
      | none, none => h.setFld 0x4A t t 1) h := by
  refine congrArg (fun f => iter 2 f h) (funext fun t => funext fun g => ?_)
  by_cases same : bit w t = bit (g.reg 0x4A) t
  · rw [if_pos same, if_pos same]
  by_cases off : bit w t = false
  · rw [if_neg same, if_neg same, if_pos (by simp [off]), if_pos off]
  · have on : ¬ (!bit w t) = true := by simpa using off
    exact ((if_neg same).trans (if_neg on)).trans ((if_neg same).trans (if_neg off)).symm

/-! ### Inputs (R433 to R437) -/

/-- An input's CFG word as stored, with the bias that MODE 2 switches on afresh. -/
def Hub.adcStored (h : Hub) (n mode gain : Nat) : Hub :=
  ((h.calHitMic n).setReg (kAdc n 0) (mode * 4096 + gain)).modAdc n fun a => { a with bias := mode == 2, low := 0, biasf := false }

theorem Hub.adcCfg_ignored {n w : Nat} (three : bits w 13 12 = 3) : h.adcCfg n w = h := if_pos three
theorem Hub.adcCfg_stores {n w : Nat} (mode : bits w 13 12 ≠ 3) (gain : bits w 5 0 ≤ 60) :
    h.adcCfg n w = h.adcStored n (bits w 13 12) (bits w 5 0) := by
  rw [Hub.adcCfg, if_neg mode, if_neg (by omega)]
  rfl
theorem Hub.adcCfg_keepsGain {n w : Nat} (mode : bits w 13 12 ≠ 3) (gain : 60 < bits w 5 0) :
    h.adcCfg n w = h.adcStored n (bits w 13 12) (h.fld (kAdc n 0) 5 0) := by
  rw [Hub.adcCfg, if_neg mode, if_pos gain]
  rfl

/-- The CFG word with another gain holds the mode of the register and that gain. -/
theorem Hub.gainWrite_stores {n g : Nat} (mode : h.fld (kAdc n 0) 13 12 ≠ 3) (gain : g ≤ 60) :
    h.gainWrite n g = h.adcStored n (h.fld (kAdc n 0) 13 12) g := by
  have kept : bits (h.fld (kAdc n 0) 13 12 * 4096 + g) 13 12 = h.fld (kAdc n 0) 13 12 := by
    simp only [Hub.fld, bits]
    omega
  have put : bits (h.fld (kAdc n 0) 13 12 * 4096 + g) 5 0 = g := by
    simp only [bits]
    omega
  have stored := Hub.adcCfg_stores (h := h) (n := n) (kept.symm ▸ mode) (put.symm ▸ gain)
  rw [kept, put] at stored
  exact stored

theorem Hub.tl_modTl_same (h : Hub) (t : Fin 2) (f : TrainLine → TrainLine) : (h.modTl t f).tl t = f (h.tl t) := by
  rw [Hub.tl, Hub.modTl, Hub.modAio, Two.get_mod _ _ _ t.isLt, if_pos rfl, Hub.tl]

/-- A bias that is switched off or found low too long is reported. -/
def Hub.biasFault (h : Hub) (n ua kind : Nat) (on : Bool) (low : Nat) : Hub :=
  (((h.setReg (kAdc n 5) ua).modAdc n fun a => { a with bias := on, low := low, biasf := true }).setFlag (kAioFlag 1)).issue (120 + n) 2 kind ua 0

section bias
variable {n ua : Nat} (mode : h.fld (kAdc n 0) 13 12 = 2) (on : (h.adc n).bias = true)
include mode on

/-- The check of an input with its bias on (R436). -/
theorem Hub.biasCheck_on (limit : Bool) : h.biasCheck n ua limit =
    (let low := if ua < 50 then (h.adc n).low + 1 else 0
     if limit then h.biasFault n ua 2 false low else if low = 10 then h.biasFault n ua 1 true low
     else (h.setReg (kAdc n 5) ua).modAdc n fun a => { a with low := low }) :=
  if_neg (by simp [mode, on])

end bias

/-! ### The train-line relay (R439) -/

theorem Hub.tlOpen_opens {cause : Nat} (start : 8 ≤ h.phase) : h.tlOpen cause = h.tlRelayOpen cause := if_pos start
theorem Hub.tlOpen_waits {cause : Nat} (early : h.phase < 8) : h.tlOpen cause = h := if_neg (by omega)
theorem Hub.tlRelayFault_differs (differs : h.aio.tlRelay.sensed ≠ h.aio.tlRelay.closed) : h.tlRelayFault =
    (h.setFlag (kAioFlag 2)).issueLimited 0 130 1 (b2n h.aio.tlRelay.closed) (b2n h.aio.tlRelay.sensed) 0 := if_neg differs

/-! ### The Caption Data Carrier (R442 to R444) -/

section receive
variable {t : Nat} {b : List Byte} (rx : bit (h.reg 0x4A) (8 + t) = true) (joined : h.tlLive t = true)
include rx joined

theorem Hub.cdcReceive_lost : h.cdcReceive t b true = (h.cdcFail t 2, none) := by
  rw [Hub.cdcReceive, if_neg (by simp [rx, joined]), if_pos rfl]

theorem Hub.cdcReceive_badLength (len : byteAt b 1 = 0 ∨ 64 < byteAt b 1) : h.cdcReceive t b false = (h.cdcFail t 3, none) := by
  rw [Hub.cdcReceive, if_neg (by simp [rx, joined]), if_neg Bool.false_ne_true, if_pos len]

theorem Hub.cdcReceive_badCrc (least : 1 ≤ byteAt b 1) (most : byteAt b 1 ≤ 64)
    (bad : b.length ≠ byteAt b 1 + 4 ∨ cdcCrc (b.take (byteAt b 1 + 2)) ≠ beAt b (byteAt b 1 + 2) 2) :
    h.cdcReceive t b false = (h.cdcFail t 1, none) := by
  rw [Hub.cdcReceive, if_neg (by simp [rx, joined]), if_neg Bool.false_ne_true, if_neg (by omega), if_pos bad]

/-- The receive buffer and the counters of an accepted message. -/
def Hub.cdcStored (h : Hub) (t : Nat) (b : List Byte) : Hub :=
  let body := (b.drop 2).take (byteAt b 1)
  let h := iter 32 (fun i h => h.setReg (kCdcRx t (1 + i)) (256 * byteAt body (2 * i) + byteAt body (2 * i + 1)))
    (h.setReg (kCdcRx t 0) (256 * byteAt b 1 + byteAt b 0))
  (h.addWrap (kCdcRx t 33) 1 1).addSat (kTl t 4) 2 1

theorem Hub.cdcReceive_accepts (least : 1 ≤ byteAt b 1) (most : byteAt b 1 ≤ 64) (whole : b.length = byteAt b 1 + 4)
    (crc : cdcCrc (b.take (byteAt b 1 + 2)) = beAt b (byteAt b 1 + 2) 2) : h.cdcReceive t b false =
    ((h.cdcStored t b).issue (128 + t) 1 (byteAt b 0) (byteAt b 1) ((h.cdcStored t b).reg (kCdcRx t 33)), some (b.take (byteAt b 1 + 2))) := by
  rw [Hub.cdcReceive, if_neg (by simp [rx, joined]), if_neg Bool.false_ne_true, if_neg (by omega), if_neg (by simp [whole, crc])]
  rfl

end receive

section send
variable {t w : Nat} (key : bits w 15 12 = 0xA) (port : bits w 8 8 = t)
include key port

theorem Hub.cdcCommand_badLength (len : bits w 6 0 = 0 ∨ 64 < bits w 6 0) : h.cdcCommand w = h.issue (128 + t) 4 1 w 0 := by
  rw [Hub.cdcCommand, if_neg (by simp [key]), port, if_pos len]

theorem Hub.cdcCommand_busy (least : 1 ≤ bits w 6 0) (most : bits w 6 0 ≤ 64) (busy : (h.tl t).tx.isSome = true) :
    h.cdcCommand w = h.issue (128 + t) 4 2 w 0 := by
  rw [Hub.cdcCommand, if_neg (by simp [key]), port, if_neg (by omega), if_pos busy]

theorem Hub.cdcCommand_sends (least : 1 ≤ bits w 6 0) (most : bits w 6 0 ≤ 64) (free : (h.tl t).tx = none)
    (on : bit (h.reg 0x4A) (4 + t) = true) (joined : h.tlLive t = true) : h.cdcCommand w = h.modTl t fun x =>
      { x with tx := some { ty := BitVec.ofNat 8 (h.reg (kCdcTx t 0)), body := h.wordBytes (kCdcTx t 1) (bits w 6 0) } } := by
  rw [Hub.cdcCommand, if_neg (by simp [key]), port, if_neg (by omega), if_neg (by simp [free]), if_neg (by simp [on, joined])]

end send

section transmission
variable {t : Fin 2} {m : CdcTx} (tx : (h.tl t).tx = some m)
include tx

/-- The preamble's start fixes the symbols of the whole transmission. -/
theorem Hub.tl_cdcStart (waits : m.started = false) :
    (h.cdcStart t).tl t = { h.tl t with tx := some { m with started := true }, symbols := cdcSymbols m } := by
  rw [Hub.cdcStart, Hub.tl_modTl_same]
  split
  next m' got =>
    obtain rfl : m = m' := Option.some.inj (tx.symm.trans got)
    exact if_neg (by simp [waits])
  next got => exact absurd (tx.symm.trans got) (by simp)

theorem Hub.cdcDone_started (runs : m.started = true) : h.cdcDone t =
    (h.modTl t fun x => { x with tx := none }).issue (128 + t) 3 m.ty.toNat m.body.length (h.stamp.toNat % 65536) := by
  rw [Hub.cdcDone, tx]
  exact if_pos runs

end transmission

end analog

/-- Settles O45, command by command. -/
theorem analogCommandsAnswer : Obligations.AnalogCommandsAnswer := by
  refine ⟨fun s v live => ?inputs, fun s n w g live => ⟨fun three => ?three, fun mode gain => ?stores, fun mode gain => ?keeps, fun mode gain => ?gain⟩,
    fun s u live => ⟨_, exec_gainStep live u, fun n input => ?input, fun t line => ?line⟩,
    fun s n live => ⟨exec_clipHoldEnd live n true, exec_clipHoldEnd live n false⟩,
    fun s n ua live mode on => ⟨?limit, fun ten => ?low, fun fine => ?fine⟩, fun s v live => ?lines,
    fun s live => ⟨fun start => ?opens, fun early => ?waits, exec_tlRelayClose live, fun differs => ?fault⟩,
    fun s sensed live => exec_tlRelayChanged live sensed,
    fun s t b live rx joined => ⟨exec_cdcRx_dropped live (Hub.cdcReceive_lost rx joined), fun len => ?badLength, fun least most bad => ?badCrc,
      fun least most whole crc => ?accepted⟩,
    fun s w t live key port => ⟨fun len => ?txLength, fun least most busy => ?busy, fun least most free on joined => ?sends⟩,
    fun s t m live tx => ⟨fun waits => ?starts, fun runs => ?done⟩⟩
  case inputs => exact (exec_adcInputEnable live v).trans (congrArg (fun g => Host.Outcome.next (s.withHub g)) (Hub.inenWrite_walk s.hub v.toNat))
  case three => rw [exec_adcModeWrite live, Hub.adcCfg_ignored three]
  case stores => exact (exec_adcModeWrite live n w).trans (by rw [Hub.adcCfg_stores mode gain]; rfl)
  case keeps => exact (exec_adcModeWrite live n w).trans (by rw [Hub.adcCfg_keepsGain mode gain]; rfl)
  case gain => exact (exec_gainWrite live n g).trans (by rw [Hub.gainWrite_stores mode gain]; rfl)
  case input =>
    rw [input]
    exact if_pos n.isLt
  case line =>
    have lines : s.hub.gainStep u = s.hub.modTl t fun x => { x with gain := stepTo x.gain (s.hub.fld (kTl t 2) 4 0) } := by
      rw [Hub.gainStep, if_neg (by omega), show u.val - 8 = t.val by omega]
    rw [lines, Hub.tl_modTl_same]
  case limit => exact (exec_biasCheck live n ua true).trans (by rw [Hub.biasCheck_on mode on]; rfl)
  case low => exact (exec_biasCheck live n ua false).trans (by rw [Hub.biasCheck_on mode on, if_neg Bool.false_ne_true, if_pos ten]; rfl)
  case fine => exact (exec_biasCheck live n ua false).trans (by rw [Hub.biasCheck_on mode on, if_neg Bool.false_ne_true, if_neg fine])
  case lines => exact (exec_tlEnable live v).trans (congrArg (fun g => Host.Outcome.next (s.withHub g)) (Hub.tlEnable_walk s.hub v.toNat))
  case opens => exact (exec_tlRelayOpen live).trans (by rw [Hub.tlOpen_opens start]; rfl)
  case waits => exact (exec_tlRelayOpen live).trans (by rw [Hub.tlOpen_waits early])
  case fault => rw [exec_tlRelayFault live, Hub.tlRelayFault_differs differs]
  case badLength => exact exec_cdcRx_dropped live (Hub.cdcReceive_badLength rx joined len)
  case badCrc => exact exec_cdcRx_dropped live (Hub.cdcReceive_badCrc rx joined least most bad)
  case accepted => exact exec_cdcRx_accepted live (Hub.cdcReceive_accepts rx joined least most whole crc)
  case txLength => exact (exec_cdcTxCommand live w).trans (by rw [Hub.cdcCommand_badLength key port len])
  case busy => exact (exec_cdcTxCommand live w).trans (by rw [Hub.cdcCommand_busy key port least most busy])
  case sends => exact (exec_cdcTxCommand live w).trans (by rw [Hub.cdcCommand_sends key port least most free on joined])
  case starts => exact ⟨_, exec_cdcTxStart live t, by rw [Hub.tl_cdcStart tx waits], by rw [Hub.tl_cdcStart tx waits]⟩
  case done => rw [exec_cdcTxDone live, Hub.cdcDone_started tx runs]

end Sys2Proof.Machine
end

section
/-! PROOF. Amplifier channels, field inputs and field outputs (O46). -/

namespace Sys2Proof.Machine

section runs
variable {s : State} (live : s.live = true)
include live

theorem exec_ampEnable (n : Fin 8) (m : Sense) : exec (.ampEnable n m) s = .next (s.withHub (s.hub.ampEnable n m)) :=
  State.onHub_next live fun h => h.ampEnable n m
theorem exec_ampDisable (n : Fin 8) : exec (.ampDisable n) s = .next (s.withHub (s.hub.ampDisable n)) :=
  State.onHub_next live fun h => h.ampDisable n
theorem exec_crossDriveTestDone (n : Fin 8) (sensed : BitVec 8) (low : Bool) (m : Sense) : exec (.crossDriveTestDone n sensed low m) s =
    .next (s.withHub (s.hub.crossDone n sensed.toNat low m)) := State.onHub_next live fun h => h.crossDone n sensed.toNat low m
theorem exec_ampMute (n : Fin 8) : exec (.ampMute n) s = .next (s.withHub (s.hub.ampMute n true)) :=
  State.onHub_next live fun h => h.ampMute n true
theorem exec_ampUnmute (n : Fin 8) : exec (.ampUnmute n) s = .next (s.withHub (s.hub.ampMute n false)) :=
  State.onHub_next live fun h => h.ampMute n false
theorem exec_ampRampEnd (n : Fin 8) : exec (.ampRampEnd n) s = .next (s.withHub (s.hub.ampRampEnd n).chimeReady) :=
  State.onHub_next live fun h => (h.ampRampEnd n).chimeReady
theorem exec_ampFault (n : Fin 8) (c : Fin 5) (m : Sense) : exec (.ampFault n c m) s = .next (s.withHub (s.hub.ampFault n c m)) :=
  State.onHub_next live fun h => h.ampFault n c m
theorem exec_ampReenable (w : Word) (ms : List Sense) : exec (.ampReenable w ms) s = .next (s.withHub (s.hub.ampReenable w.toNat ms)) :=
  State.onHub_next live fun h => h.ampReenable w.toNat ms
theorem exec_ampThermal (n : Fin 8) (t : Word) : exec (.ampThermal n t) s = .next (s.withHub (s.hub.ampThermal n t.toNat)) :=
  State.onHub_next live fun h => h.ampThermal n t.toNat
theorem exec_bridgeWrite (v : BitVec 4) : exec (.bridgeWrite v) s = .next (s.wrote (s.hub.bridgeWrite v.toNat)) :=
  State.onWrite_next live fun h => h.bridgeWrite v.toNat
theorem exec_continuousCheck (n p : Fin 8) (m : Sense) : exec (.continuousCheck n p m) s = .next (s.withHub (s.hub.continuous n p m)) :=
  State.onHub_next live fun h => h.continuous n p m
theorem exec_fieldInputSample (i : Fin 16) (mv : Int) : exec (.fieldInputSample i mv) s =
    .next (s.withHub ((s.hub.finSample i mv).chimeInput i (bit (s.hub.reg 0x54) i))) :=
  State.onHub_next live fun h => (h.finSample i mv).chimeInput i (bit (h.reg 0x54) i)
theorem exec_fieldOutputCommand (v : Byte) : exec (.fieldOutputCommand v) s = .next (s.withHub (s.hub.foutWrite v.toNat)) :=
  State.onHub_next live fun h => h.foutWrite v.toNat
theorem exec_foutTrip (o : Fin 8) : exec (.foutTrip o) s = .next (s.withHub (s.hub.foutTrip o)) := State.onHub_next live fun h => h.foutTrip o
theorem exec_foutRetry (o : Fin 8) : exec (.foutRetry o) s = .next (s.withHub (s.hub.foutRetry o)) := State.onHub_next live fun h => h.foutRetry o
theorem exec_foutOpen (o : Fin 8) (isOpen : Bool) (ma : Word) : exec (.foutOpen o isOpen ma) s =
    .next (s.withHub (s.hub.foutOpen o isOpen ma.toNat)) := State.onHub_next live fun h => h.foutOpen o isOpen ma.toNat
theorem exec_tripClear (o : Fin 8) : exec (.tripClear o) s = .next (s.withHub (s.hub.tripClear o)) := State.onHub_next live fun h => h.tripClear o

end runs

section amplifiers
variable {h : Hub} {n : Nat} {m : Sense}

/-! ### Enables (R446, R449) -/

section enable
variable (off : bit (h.reg 0x4E) n = false) (full : h.isL = false)
include off full

theorem Hub.ampEnable_refused {c : Nat} (cause : h.enableRefused 2 (h.fld (kAmp n 0) 8 0) 5 n = some c) :
    h.ampEnable n m = (h.setFlag (kAioFlag 8)).issue (136 + n) 4 c (h.reg 0x4E + 2 ^ n) 0 := by
  rw [Hub.ampEnable, if_neg (by simp [off, full]), cause]
  rfl

theorem Hub.ampEnable_checks (fine : h.enableRefused 2 (h.fld (kAmp n 0) 8 0) 5 n = none) (leads : ¬ (h.bridged n = true ∧ n % 2 = 1))
    (power : h.pwr.shed = false) : h.ampEnable n m = (h.setReg 0x4E (h.reg 0x4E + 2 ^ n)).ampCheck n m := by
  have shed : ¬ (h.setReg 0x4E (h.reg 0x4E + 2 ^ n)).pwr.shed = true := Bool.eq_false_iff.1 power
  have big : ¬ (h.setReg 0x4E (h.reg 0x4E + 2 ^ n)).isL = true := by
    rw [Hub.isL, Hub.reg_setReg_other h _ (show 0 ≠ 0x4E by decide)]
    exact Bool.eq_false_iff.1 full
  rw [Hub.ampEnable, if_neg (by simp [off, full]), fine, Option.orElse_none, if_neg leads]
  exact (if_neg shed).trans (if_neg big)

end enable

section disable
variable (on : bit (h.reg 0x4E) n = true)
include on

theorem Hub.ampDisable_on : h.ampDisable n = (let g := h.setFld 0x4E n n 0
    if g.ampState n = 3 ∨ g.ampState n = 4 ∨ (g.ampCh n).ramp.isSome then g.ampRamp n 3 .off else g.ampRest n 0 0) := if_neg (by simp [on])

end disable

/-! ### The cross-drive test (R446, R451) -/

theorem Hub.crossDone_testing {sensed : Nat} {low : Bool} (testing : h.ampState (h.ampLead n) = 1) : h.crossDone n sensed low m =
    match firstBelow 8 fun p => p != h.ampLead n && bit sensed p && !(h.bridged (h.ampLead n) && p == mate (h.ampLead n)) with
    | some p => h.paralleled (h.ampLead n) p 1 m
    | none => if low then h.isolatePair (h.ampLead n) 1 m else h.ampGo (h.ampLead n) := if_neg (not_not_intro testing)

/-! ### Muting (R447) -/

section mute
variable {on : Bool}

theorem Hub.ampMute_follower (follows : (h.setFld 0x4F n n (b2n on)).ampLead n ≠ n) : h.ampMute n on = h.setFld 0x4F n n (b2n on) := if_pos follows

variable (leads : (h.setFld 0x4F n n (b2n on)).ampLead n = n)
include leads

theorem Hub.ampMute_thermal (hot : (h.setFld 0x4F n n (b2n on)).ampState n = 5) : h.ampMute n on =
    (h.setFld 0x4F n n (b2n on)).modAmp n fun a => { a with before := if on then 2 else 4 } :=
  (if_neg (not_not_intro leads)).trans (if_pos hot)

end mute

theorem Hub.ampMute_running (leads : (h.setFld 0x4F n n 1).ampLead n = n) (runs : (h.setFld 0x4F n n 1).ampState n = 4) :
    h.ampMute n true = (h.setFld 0x4F n n 1).ampRamp n 3 .muted :=
  (if_neg (not_not_intro leads)).trans ((if_neg (by simp [b2n, runs])).trans (if_pos ⟨rfl, .inl runs⟩))

theorem Hub.ampUnmute_muted (leads : (h.setFld 0x4F n n 0).ampLead n = n) (muted : (h.setFld 0x4F n n 0).ampState n = 2) :
    h.ampMute n false = (h.setFld 0x4F n n 0).ampRamp n 3 .run :=
  (if_neg (not_not_intro leads)).trans ((if_neg (by simp [b2n, muted])).trans
    ((if_neg fun mute => Bool.false_ne_true mute.1).trans (if_pos ⟨Bool.false_ne_true, .inl muted⟩)))

/-! ### Faults, temperature and bridges (R448, R450, R451, R453) -/

theorem Hub.ampFault_isolates {cause : Nat} (full : h.isL = false) (known : cause = 1 ∨ cause = 2 ∨ cause = 4)
    (on : bit (h.reg 0x4E) ((h.ampPair n).headD n) = true) (within : h.ampState ((h.ampPair n).headD n) ≠ 6)
    (active : h.ampState ((h.ampPair n).headD n) ≠ 0) : h.ampFault n cause m = h.isolatePair n cause m :=
  if_neg (by rintro (large | off | isolated | rest | other)
             exacts [Bool.eq_false_iff.1 full large, absurd on (by simpa using off), within isolated, active rest, other known])

theorem Hub.ampReenable_keyed {w : Nat} {ms : List Sense} (full : h.isL = false) (key : w / 256 = 0x5A) : h.ampReenable w ms =
    iter 8 (fun n h => if bit w n ∧ h.ampState n = 6 ∧ bit (h.reg 0x4E) n then h.ampCheck n (lget ⟨false, 0, 0⟩ ms n) else h) h :=
  if_neg (by simp [full, key])

theorem s16_toNat (t : Word) : s16 t.toNat = t.toInt := by
  rw [s16, BitVec.ofNat_toNat, BitVec.setWidth_eq]

section thermal
variable {t : Nat} (full : h.isL = false)
include full

theorem Hub.ampThermal_enters (runs : h.ampState (h.ampLead n) = 4) (hot : 150 ≤ s16 t) (stays : (h.ampCh (h.ampLead n)).ramp ≠ some .off) :
    h.ampThermal n t = (((h.ampRamp (h.ampLead n) 5 .thermal).modAmp (h.ampLead n) fun a => { a with before := 4 }).issue
      (136 + h.ampLead n) 3 1 t 0) := by
  rw [Hub.ampThermal, if_neg (Bool.eq_false_iff.1 full), if_pos ⟨hot, by simp [runs], stays⟩, if_pos (.inl runs)]

theorem Hub.ampThermal_leaves (hot : h.ampState (h.ampLead n) = 5) (cool : s16 t < 130) (ran : (h.ampCh (h.ampLead n)).before = 4) :
    h.ampThermal n t = (h.ampRamp (h.ampLead n) 3 .run).issue (136 + h.ampLead n) 3 0 t 0 := by
  rw [Hub.ampThermal, if_neg (Bool.eq_false_iff.1 full), if_neg (by omega), if_pos ⟨hot, cool⟩, if_pos ran]

end thermal

section bridge
variable {w : Nat} (full : h.isL = false)
include full

theorem Hub.bridgeWrite_split : h.bridgeWrite w =
    if ∃ b < 4, bit (h.reg 0x52) b ≠ bit w b ∧ (bit (h.reg 0x4E) (2 * b) = true ∨ bit (h.reg 0x4E) (2 * b + 1) = true)
    then h.failWin 3 0x52 else h.setReg 0x52 (w % 16) := by
  refine (if_neg (Bool.eq_false_iff.1 full)).trans (if_congr ?_ rfl rfl)
  simp only [List.any_eq_true, List.mem_range, Bool.and_eq_true, bne_iff_ne, Bool.or_eq_true]

end bridge

theorem Hub.continuous_finds {p : Nat} (full : h.isL = false) (apart : n ≠ p) (strange : ¬ (h.bridged n = true ∧ p = mate n))
    (runs : h.ampState n = 3 ∨ h.ampState n = 4) : h.continuous n p m = h.paralleled n p 2 m := by
  refine if_neg ?_
  rintro (large | same | bridge | rest)
  · exact Bool.eq_false_iff.1 full large
  · exact apart same
  · exact strange bridge
  · rcases runs with ramp | run
    · simp [ramp] at rest
    · simp [run] at rest

end amplifiers

section field
variable {h : Hub}

/-! ### Field inputs (R455 to R457) -/

/-- A sample at the on threshold whose debounce is over turns the input on. -/
theorem Hub.finSample_on {i : Nat} {mv : Int} (live : (h.fieldIn i).range ≠ 2) (seen : (h.fieldIn i).seen = true)
    (high : 7 * vnom (h.fld (kFin i 0) 2 0) ≤ 10 * mv) (off : bit (h.reg 0x54) i = false)
    (settled : 2 * h.fld (kFin i 0) 15 8 ≤ (h.fieldIn i).differ + 1) : h.finSample i mv =
    (let volt := wordOf (divOpen mv 500)
     let nom := vnom (h.fld (kFin i 0) 2 0)
     let g := (h.setReg (kFin i 1) volt).modFin i fun f => { f with raw := true, seen := true }
     let g := (((g.modFin i fun f => { f with differ := 0 }).setFld 0x54 i i 1).addWrap (kFin i 2) 1 1).issue 144 1 i 1 volt
     g.finRange i (if 14 * nom < 10 * mv then 1 else if 10 * mv < -nom then 2 else 0) volt) := by
  have raw : (if (h.fieldIn i).range = 2 then false else if 7 * vnom (bits (h.reg (kFin i 0)) 2 0) ≤ 10 * mv then true
      else if 10 * mv ≤ 3 * vnom (bits (h.reg (kFin i 0)) 2 0) then false else (h.fieldIn i).raw) = true :=
    (if_neg live).trans (if_pos high)
  have differs : ¬ true = bit (((h.setReg (kFin i 1) (wordOf (divOpen mv 500))).modFin i fun f => { f with raw := true, seen := true }).reg 0x54) i := by
    have kept := h.reg_setReg_other (wordOf (divOpen mv 500)) (direct_ne_spc (show 0x54 < 2 ^ 32 by decide) (0xB00 + 4 * i + 1))
    rw [show ((h.setReg (kFin i 1) (wordOf (divOpen mv 500))).modFin i fun f => { f with raw := true, seen := true }).reg 0x54 = h.reg 0x54 from kept,
      off]
    simp
  have expired : ¬ (h.fieldIn i).differ + 1 < 2 * bits (h.reg (kFin i 0)) 15 8 := Nat.not_lt.2 settled
  rw [Hub.finSample, raw]
  dsimp only
  rw [if_neg (by simp [seen]), if_neg differs, if_neg expired]
  rfl

/-! ### Field outputs (R458 to R460) -/

theorem Hub.foutWrite_walk {w : Nat} (byte : w < 256) : h.foutWrite w = iter 8 (fun o h =>
    if bit w o = false then h.modFout o fun f => { f with on := false, armed := true }
    else if h.tripped o = false then h.modFout o fun f => { f with on := true }
    else if h.fld (kFout o 0) 1 0 = 0 ∧ (h.fieldOut o).armed = true then (h.setFld 0x57 (8 + o) (8 + o) 0).modFout o fun f => { f with on := true }
    else if (h.fieldOut o).due = true then h.modFout o fun f => { f with on := true }
    else h) (h.setReg 0x56 w) := by
  rw [Hub.foutWrite, Nat.mod_eq_of_lt byte]
  refine congrArg (fun f => iter 8 f (h.setReg 0x56 w)) (funext fun o => funext fun g => ?_)
  exact if_congr (by simp) rfl (if_congr (by simp) rfl rfl)

section output
variable {o : Nat} (on : (h.fieldOut o).on = true)
include on

theorem Hub.foutTrip_on : h.foutTrip o =
    (let g := ((h.modFout o fun _ => {}).addSat (kFout o 2) 2 1).setFld 0x57 (8 + o) (8 + o) 1
     (g.setFlag (kAioFlag 7)).issue 145 1 o (g.fld (kFout o 0) 1 0) (g.reg (kFout o 2))) := if_neg (by simp [on])

theorem Hub.tripClear_on : h.tripClear o = h.setFld 0x57 (8 + o) (8 + o) 0 := if_pos on

theorem Hub.foutOpen_changes {isOpen : Bool} {ma : Nat} (found : isOpen = true ↔ ma < 5) (change : bit (h.reg 0x57) o ≠ isOpen) :
    h.foutOpen o isOpen ma = ((h.setReg (kFout o 1) ma).setFld 0x57 o o (b2n isOpen)).issue 145 2 o (b2n isOpen) ma := by
  have reading : isOpen = decide (ma < 5) := Bool.eq_iff_iff.2 (found.trans decide_eq_true_iff.symm)
  exact if_neg (by rintro (off | same | reads); exacts [absurd on (by simpa using off), change same, reads reading])

end output

theorem Hub.foutOpen_known {o : Nat} {isOpen : Bool} {ma : Nat} (same : bit (h.reg 0x57) o = isOpen) : h.foutOpen o isOpen ma = h :=
  if_pos (.inr (.inl same))

theorem Hub.foutRetry_tripped {o : Nat} (trip : h.tripped o = true) (retries : h.fld (kFout o 0) 1 0 ≠ 0) : h.foutRetry o =
    h.modFout o fun f => if bit (h.reg 0x56) o then { f with on := true } else { f with due := true } :=
  if_neg (by simp [trip, retries])

end field

/-- Settles O46, command by command. -/
theorem amplifierAndFieldCommandsAnswer : Obligations.AmplifierAndFieldCommandsAnswer := by
  refine ⟨fun s n m live off full => ⟨fun c cause => ?refused, fun fine leads power => ?checks⟩,
    fun s n live on => ⟨fun busy => ?down, fun run hold still => ?rests⟩,
    fun s n m sensed live testing => ⟨fun p found low => ?paralleled, fun alone => ⟨?low, ?goes⟩⟩,
    fun s n live => ⟨⟨fun follows => ?follows, fun leads runs => ?mutes, fun leads hot => ?hotMute⟩, fun leads muted => ?unmutes⟩,
    fun s n t live ramp => ?rampEnd, fun s n c m live full known on within active => ?fault, fun s w ms live full key => ?reenable,
    fun s n t live full => ⟨fun runs hot stays => ?hot, fun hot cool ran => ?cool⟩,
    fun s v live full => ⟨fun bad => ?bridgeFails, fun fine => ?bridges⟩,
    fun s n p m live full apart strange runs => ?continuous, fun s i mv live range seen high off settled => ?sample, fun s v live => ?outputs,
    fun s o live => ⟨fun on => ⟨?trip, ?clears, fun isOpen ma found => ⟨fun change => ?changes, fun same => ?known⟩⟩,
      fun trip retries => ⟨fun on => ?retry, fun off => ?due⟩⟩⟩
  case refused => exact (exec_ampEnable live n m).trans (by rw [Hub.ampEnable_refused off full cause])
  case checks => exact (exec_ampEnable live n m).trans (by rw [Hub.ampEnable_checks off full fine leads power])
  case down => exact (exec_ampDisable live n).trans (by rw [Hub.ampDisable_on on]; exact congrArg (fun g => Host.Outcome.next (s.withHub g)) (if_pos busy))
  case rests =>
    have still : ¬ ((s.hub.setFld 0x4E n n 0).ampState n = 3 ∨ (s.hub.setFld 0x4E n n 0).ampState n = 4 ∨
      ((s.hub.setFld 0x4E n n 0).ampCh n).ramp.isSome = true) := by simp [run, hold, still]
    exact (exec_ampDisable live n).trans (by rw [Hub.ampDisable_on on]; exact congrArg (fun g => Host.Outcome.next (s.withHub g)) (if_neg still))
  case paralleled => exact (exec_crossDriveTestDone live n sensed low m).trans (by rw [Hub.crossDone_testing testing, found])
  case low => exact (exec_crossDriveTestDone live n sensed true m).trans (by rw [Hub.crossDone_testing testing, alone]; rfl)
  case goes => exact (exec_crossDriveTestDone live n sensed false m).trans (by rw [Hub.crossDone_testing testing, alone]; rfl)
  case follows => exact (exec_ampMute live n).trans (by rw [Hub.ampMute_follower (on := true) follows]; rfl)
  case mutes => exact (exec_ampMute live n).trans (by rw [Hub.ampMute_running leads runs])
  case hotMute => exact (exec_ampMute live n).trans (by rw [Hub.ampMute_thermal (on := true) leads hot]; rfl)
  case unmutes => exact (exec_ampUnmute live n).trans (by rw [Hub.ampUnmute_muted leads muted])
  case rampEnd =>
    rw [exec_ampRampEnd live, Hub.ampRampEnd, ramp]
    cases t <;> rfl
  case fault => rw [exec_ampFault live, Hub.ampFault_isolates full known on within active]
  case reenable => rw [exec_ampReenable live, Hub.ampReenable_keyed full key]
  case hot => exact (exec_ampThermal live n t).trans (by rw [Hub.ampThermal_enters full runs ((s16_toNat t).symm ▸ hot) stays])
  case cool => exact (exec_ampThermal live n t).trans (by rw [Hub.ampThermal_leaves full hot ((s16_toNat t).symm ▸ cool) ran])
  case bridgeFails => exact (exec_bridgeWrite live v).trans (by rw [Hub.bridgeWrite_split full, if_pos bad])
  case bridges =>
    exact (exec_bridgeWrite live v).trans (by rw [Hub.bridgeWrite_split full, if_neg fine, Nat.mod_eq_of_lt v.isLt])
  case continuous =>
    rw [exec_continuousCheck live, Hub.continuous_finds full (fun same => apart (Fin.ext same)) strange runs]
  case sample => exact (exec_fieldInputSample live i mv).trans (by rw [Hub.finSample_on range seen high off settled])
  case outputs => rw [exec_fieldOutputCommand live, Hub.foutWrite_walk v.isLt]
  case trip => exact (exec_foutTrip live o).trans (by rw [Hub.foutTrip_on on])
  case clears => exact (exec_tripClear live o).trans (by rw [Hub.tripClear_on on])
  case changes => exact (exec_foutOpen live o isOpen ma).trans (by rw [Hub.foutOpen_changes on found change])
  case known => exact (exec_foutOpen live o isOpen ma).trans (by rw [Hub.foutOpen_known same])
  case retry => exact (exec_foutRetry live o).trans (by rw [Hub.foutRetry_tripped trip retries]; simp only [on, if_true])
  case due => exact (exec_foutRetry live o).trans (by rw [Hub.foutRetry_tripped trip retries]; simp only [off, Bool.false_eq_true, if_false])

end Sys2Proof.Machine
end

section
/-! PROOF. Live calibration: its switch, zones, windows, forced measurements and the offset trim (O47). -/

namespace Sys2Proof.Machine

section runs
variable {s : State} (live : s.live = true)
include live

theorem exec_calEnable (w : Word) : exec (.calEnable w) s = .next (s.wrote (s.hub.calCtl (putBits w.toNat 15 15 1))) :=
  State.onWrite_next live fun h => h.calCtl (putBits w.toNat 15 15 1)
theorem exec_calDisable (w : Word) : exec (.calDisable w) s = .next (s.wrote (s.hub.calCtl (putBits w.toNat 15 15 0))) :=
  State.onWrite_next live fun h => h.calCtl (putBits w.toNat 15 15 0)
theorem exec_zoneConfigWrite (z : Fin 8) (w : Word) : exec (.zoneConfigWrite z w) s = .next (s.withHub (s.hub.zoneWrite z w.toNat)) :=
  State.onHub_next live fun h => h.zoneWrite z w.toNat
theorem exec_calWindowEnd (kind : BitVec 2) (n m : Fin 8) (exc : Int) : exec (.calWindowEnd kind n m exc) s =
    .next (s.withHub (s.hub.calWindowEnd kind.toNat n m exc)) := State.onHub_next live fun h => h.calWindowEnd kind.toNat n m exc
theorem exec_calPublish (kind : BitVec 2) (n m : Fin 8) (r : CalRes) : exec (.calPublish kind n m r) s =
    .next (s.withHub (s.hub.calPublish kind.toNat n m r)) := State.onHub_next live fun h => h.calPublish kind.toNat n m r
theorem exec_forceRequest (w : Word) : exec (.forceRequest w) s = .next (s.withHub (s.hub.calForce w.toNat)) :=
  State.onHub_next live fun h => h.calForce w.toNat
theorem exec_forceExcitationEnd (exc : Int) : exec (.forceExcitationEnd exc) s = .next (s.withHub (s.hub.forceExcitation exc)) :=
  State.onHub_next live fun h => h.forceExcitation exc
theorem exec_pilotFadeInEnd : exec .pilotFadeInEnd s = .next (s.withHub s.hub.pilotFadeInEnd) := State.onHub_next live Hub.pilotFadeInEnd
theorem exec_trimDue (n : Fin 8) : exec (.trimDue n) s = .next (s.withHub (s.hub.trimDue n)) := State.onHub_next live fun h => h.trimDue n
theorem exec_trimQuietEnd (n : Fin 8) (mean : Int) : exec (.trimQuietEnd n mean) s = .next (s.withHub (s.hub.trimQuiet n mean)) :=
  State.onHub_next live fun h => h.trimQuiet n mean
theorem exec_trimDone (n : Fin 8) : exec (.trimDone n) s = .next (s.withHub (s.hub.trimDone n)) := State.onHub_next live fun h => h.trimDone n

end runs

/-! ### CAL_CTL as stored: its bits 15 to 11 and 3 to 0 -/

def calWord (raw : Nat) : Nat := bits raw 15 11 * 2048 + bits raw 3 0

theorem bits_calWord_eng (raw : Nat) : bits (calWord raw) 3 0 = bits raw 3 0 := by
  simp only [calWord, bits]
  omega

theorem bit_calWord_en (raw : Nat) : bit (calWord raw) 15 = bit raw 15 := by
  rw [bit, bit, Nat.testBit_eq_decide_div_mod_eq, Nat.testBit_eq_decide_div_mod_eq]
  simp only [calWord, bits]
  congr 2
  omega

section calibration
variable {h : Hub}

section control
variable {raw : Nat}

section enable
variable (off : h.cal.on = false) (en : bit raw 15 = true)
include off en

theorem Hub.calCtl_lost (lost : h.reserved (bits raw 3 0) = true ∨ (h.engine (bits raw 3 0)).st ≠ .normal) :
    h.calCtl raw = (h.setFlag (kCal 0x803)).issue 164 1 1 raw 0 := by
  have lost : h.reserved (bits (calWord raw) 3 0) = true ∨ (h.engine (bits (calWord raw) 3 0)).st ≠ .normal := (bits_calWord_eng raw).symm ▸ lost
  have on : ¬ (!bit (calWord raw) 15) = true := by simp [bit_calWord_en, en]
  exact (if_neg (Bool.eq_false_iff.1 off)).trans ((if_neg on).trans (if_pos lost))

section engine
variable (free : h.reserved (bits raw 3 0) = false) (normal : (h.engine (bits raw 3 0)).st = .normal)
include free normal

theorem Hub.calCtl_judged : h.calCtl raw = if (h.engine (bits raw 3 0)).bgen = true then (h.setFlag (kCal 0x803)).issue 164 1 2 raw 0
    else (h.setReg 0x5C (calWord raw)).modCal fun c => { c with on := true } := by
  have on : ¬ (!bit (calWord raw) 15) = true := by simp [bit_calWord_en, en]
  have there : ¬ (h.reserved (bits (calWord raw) 3 0) = true ∨ (h.engine (bits (calWord raw) 3 0)).st ≠ .normal) := by
    rw [bits_calWord_eng]
    simp [free, normal]
  exact ((if_neg (Bool.eq_false_iff.1 off)).trans ((if_neg on).trans (if_neg there))).trans
    (if_congr (by rw [show bits (bits raw 15 11 * 2048 + bits raw 3 0) 3 0 = bits raw 3 0 from bits_calWord_eng raw]) rfl rfl)

end engine
end enable

section disable
variable (on : h.cal.on = true)
include on

theorem Hub.calCtl_off (off : bit raw 15 = false) (same : bits raw 3 0 = h.fld 0x5C 3 0) : h.calCtl raw = (h.setReg 0x5C (calWord raw)).calOff := by
  have same : ¬ bits (calWord raw) 3 0 ≠ h.fld 0x5C 3 0 := not_not_intro ((bits_calWord_eng raw).trans same)
  have off : ¬ bit (calWord raw) 15 = true := Bool.eq_false_iff.1 ((bit_calWord_en raw).trans off)
  exact (if_pos on).trans ((if_neg same).trans (if_neg off))

theorem Hub.calCtl_otherEngine (other : bits raw 3 0 ≠ h.fld 0x5C 3 0) : h.calCtl raw = h.failWin 3 0x5C :=
  (if_pos on).trans (if_pos ((bits_calWord_eng raw).symm ▸ other))

end disable
end control

/-! ### Zones (R486) -/

section zone
variable {z w : Nat}

theorem Hub.zoneWrite_ignored (gain : 240 < bits w 7 0) : h.zoneWrite z w = h := if_pos gain

section judged
variable (gain : bits w 7 0 ≤ 240)
include gain

theorem Hub.zoneWrite_refused (bad : (h.setReg (kCal (16 * z) + 4) (bits w 7 0)).zoneBad z = true) : h.zoneWrite z w =
    ((iter 5 (fun i h => h.revert (kCal (16 * z) + i)) (h.setReg (kCal (16 * z) + 4) (bits w 7 0))).setFlag (kCal 0x803)).issue 164 1 3 w z :=
  (if_neg (Nat.not_lt.2 gain)).trans (if_pos bad)

/-- Does a window stay open in the zones as they are now. -/
def Hub.calStays (h : Hub) (w : CalWin) : Bool :=
  if w.kind = 3 then (h.zoneOfMic w.mic).isSome
  else (h.zoneOfAmp w.amp).isSome && (w.kind == 1 || h.zoneOfMic w.mic == h.zoneOfAmp w.amp)

theorem Hub.zoneWrite_enforced (fine : (h.setReg (kCal (16 * z) + 4) (bits w 7 0)).zoneBad z = false) : h.zoneWrite z w =
    (let g := iter 5 (fun i h => h.enforce (kCal (16 * z) + i)) (h.setReg (kCal (16 * z) + 4) (bits w 7 0))
     g.modCal fun c => { c with wins := c.wins.filter fun w => w.forced || g.calStays w }) :=
  (if_neg (Nat.not_lt.2 gain)).trans (if_neg (Bool.eq_false_iff.1 fine))

end judged
end zone

/-! ### Windows (R488 to R491, R494, R502) -/

section window
variable {kind n m : Nat} {w : CalWin}

/-- Why a complete window fails: a reason of its ticks, or too little excitation (R491). -/
def CalWin.endReason (w : CalWin) (kind : Nat) (exc : Int) : Option Nat :=
  w.reason.orElse fun _ => if kind < 3 ∧ w.pilot = false ∧ exc < -400 then some 1 else none

theorem Hub.calWindowEnd_complete {exc : Int} (complete : (h.cal.wins.find? fun w => w.is kind n m && w.left == 0) = some w)
    (alone : (h.cal.work.find? fun v => v.is kind n m) = none) : h.calWindowEnd kind n m exc =
    (let g := h.modCal fun c => { c with wins := c.wins.erase w }
     match w.endReason kind exc with
     | some r => g.calFail w r
     | none => (g.modCal fun c => { c with work := c.work ++ [w] }).calSubmit kind).calOpenAll := by
  have idle : ((h.modCal fun c => { c with wins := c.wins.erase w }).cal.work.find? fun v => v.is kind n m) = none := alone
  have reason : (w.reason.orElse fun _ => if kind < 3 ∧ ! w.pilot ∧ exc < -400 then some 1 else none) = w.endReason kind exc :=
    congrArg w.reason.orElse (funext fun _ => if_congr (by simp) rfl rfl)
  rw [Hub.calWindowEnd, complete]
  dsimp only
  rw [idle, reason] <;> rfl

/-- Why an analysis is not published: the window failed, or a path is not coherent enough (R494). -/
def Hub.publishReason (h : Hub) (w : CalWin) (kind : Nat) (r : CalRes) : Option Nat :=
  w.reason.orElse fun _ => if kind = 2 ∧ r.coh.toNat < h.reg (kCal 0x700) then some 11 else none

section publish
variable {r : CalRes} (found : (h.cal.work.find? fun w => w.is kind n m) = some w)
include found

theorem Hub.calPublish_fails {x : Nat} (reason : h.publishReason w kind r = some x) :
    h.calPublish kind n m r = (h.modCal fun c => { c with work := c.work.erase w }).calFail w x := by
  have reason : (w.reason.orElse fun _ => if kind = 2 ∧ r.coh.toNat < (h.modCal fun c => { c with work := c.work.erase w }).reg (kCal 0x700)
    then some 11 else none) = some x := reason
  rw [Hub.calPublish, found]
  dsimp only
  rw [reason]

theorem Hub.calPublish_published (reason : h.publishReason w kind r = none) (free : w.forced = false) : h.calPublish kind n m r =
    (let g := h.modCal fun c => { c with work := c.work.erase w }
     if kind = 1 then g.linePublish w r else if kind = 2 then g.pathPublish w r else g.noisePublish w r) := by
  have reason : (w.reason.orElse fun _ => if kind = 2 ∧ r.coh.toNat < (h.modCal fun c => { c with work := c.work.erase w }).reg (kCal 0x700)
    then some 11 else none) = none := reason
  rw [Hub.calPublish, found]
  dsimp only
  rw [reason]
  exact if_neg (Bool.eq_false_iff.1 free)

end publish
end window

/-! ### Forced measurements and the pilot (R498, R499) -/

section force
variable {w : Nat} (key : bits w 15 12 = 0xF)
include key

theorem Hub.calForce_taken (taken : h.cal.on = false ∨ h.cal.forced ≠ none) : h.calForce w =
    (h.setFlag (kCal 0x803)).issue 164 1 4 w 0 := by
  have taken : ¬ h.cal.on = true ∨ h.cal.forced.isSome = true := taken.imp Bool.eq_false_iff.1 Option.isSome_iff_ne_none.2
  exact (if_neg (not_not_intro key)).trans (if_pos taken)

/-- Names the request no amplifier or path of one zone that can be measured (R498). -/
def Hub.calForceBad (h : Hub) (w : Nat) : Prop :=
  (bits w 11 10 ≠ 1 ∧ bits w 11 10 ≠ 2) ∨ (bits w 11 10 = 1 ∧ h.isL = true) ∨ h.zoneOfAmp (bits w 6 4) = none ∨
    (bits w 11 10 = 2 ∧ h.zoneOfMic (bits w 2 0) ≠ h.zoneOfAmp (bits w 6 4))

section idle
variable (on : h.cal.on = true) (idle : h.cal.forced = none)
include on idle

theorem Hub.calForce_bad (bad : h.calForceBad w) : h.calForce w = (h.setFlag (kCal 0x803)).issue 164 1 5 w 0 := by
  have bad := bad.imp_right (Or.imp_right (Or.imp_left Option.isNone_iff_eq_none.2))
  exact (if_neg (not_not_intro key)).trans ((if_neg (by simp [on, idle])).trans (if_pos bad))

theorem Hub.calForce_takes (fine : ¬ h.calForceBad w) : h.calForce w = h.modCal fun c =>
    { c with wins := c.wins.filter fun v => !(v.kind == bits w 11 10 && v.amp == bits w 6 4)
             forced := some { kind := bits w 11 10, amp := bits w 6 4, mic := bits w 2 0 } } := by
  have fine := fun bad => fine (Or.imp_right (Or.imp_right (Or.imp_left Option.isNone_iff_eq_none.1)) bad)
  exact (if_neg (not_not_intro key)).trans ((if_neg (by simp [on, idle])).trans (if_neg fine))

end idle
end force

section forced
variable {f : Forced} (forced : h.cal.forced = some f)
include forced

theorem Hub.forceExcitation_measured {exc : Int} (measuring : f.st = .measuring) : h.forceExcitation exc =
    if -400 ≤ exc then h.forceOpen f false
    else if rateHz (h.dom h.calDom).rate < 44100 then
      h.calFail { kind := f.kind, amp := f.amp, mic := f.mic, left := 0, last := 0, forced := true } 13
    else
      (h.modCal fun c => { c with forced := some { f with st := .fadeIn, pilot := true }, pilot := some { amp := f.amp } }).issue
        168 1 f.amp (h.tickLo h.calDom) 0 := by
  rw [Hub.forceExcitation, forced]
  exact if_neg (not_not_intro measuring)

theorem Hub.pilotFadeInEnd_opens (fading : f.st = .fadeIn) : h.pilotFadeInEnd = h.forceOpen f true := by
  rw [Hub.pilotFadeInEnd, forced]
  exact if_pos fading

end forced

/-! ### The offset trim (R501) -/

section trim
variable {n : Nat}

section due
variable (on : bit (h.reg 0x5C) 11 = true) (input : bit (h.reg 0x48) n = true)
include on input

theorem Hub.trimDue_waits (rests : h.reg (kTrimSt n) = 0) : h.trimDue n = h.setReg (kTrimSt n) 1 := if_pos ⟨on, input, rests⟩

theorem Hub.trimQuiet_starts {mean : Int} (due : h.reg (kTrimSt n) = 1) (bias : (h.adc n).biasf = false)
    (still : h.fld (kAdc n 3) 5 0 = h.fld (kAdc n 0) 5 0) : h.trimQuiet n mean =
    (let now := s16 (h.reg (kAdc n 4))
     let wanted := now - divOpen mean 256
     (h.setReg (kTrimSt n) 2).modCal fun c =>
       { c with trims := tput (fun _ => none) c.trims n (some { before := now, target := clampI (-512) 512 wanted, wanted := wanted }) }) :=
  if_neg (by simp [due, on, input, bias, still])

end due

/-- OFST at the value wanted ends the trim. -/
theorem Hub.trimDone_exact {t : Trim} (trim : tget (fun _ => none) h.cal.trims n = some t) (there : s16 (h.reg (kAdc n 4)) = t.target)
    (whole : t.wanted = t.target) : h.trimDone n =
    (((h.modCal fun c => { c with trims := tput (fun _ => none) c.trims n none }).setReg (kTrimSt n) 0).addSat (kCal (0x606 + 16 * n)) 2 1).issue
      169 1 n (wordOf t.target) (wordOf (t.target - t.before)) := by
  rw [Hub.trimDone, trim]
  exact (if_neg (not_not_intro there)).trans (if_pos whole)

end trim
end calibration

/-- Settles O47, command by command. -/
theorem calibrationCommandsAnswer : Obligations.CalibrationCommandsAnswer := by
  refine ⟨fun s w live off => ⟨fun lost => ?lost, fun free normal busy => ?busy, fun free normal idle => ?on⟩,
    fun s w live on => ⟨fun same => ?off, fun other => ?other⟩,
    fun s z w live => ⟨fun gain => ?ignored, fun gain bad => ?zoneBad, fun gain fine => ?zone⟩,
    fun s kind n m exc w live complete alone => ⟨fun r reason => ?windowFails, fun reason => ?analysed⟩,
    fun s kind n m r w live found => ⟨fun x reason => ?fails, fun reason free => ⟨fun line => ?line, fun path => ?path, fun noise => ?noise⟩⟩,
    fun s w live key => ⟨fun taken => ?taken, fun on idle bad => ?forceBad, fun on idle fine => ?force⟩,
    fun s f exc live forced => ⟨fun measuring => ⟨fun loud => ?loud, fun soft slow => ?slow, fun soft fast => ?pilot⟩, fun fading => ?fading⟩,
    fun s n live on input => ⟨fun rests => ?due, fun mean due bias still => ?quiet⟩,
    fun s n t live trim there whole => ?done⟩
  case lost => exact (exec_calEnable live w).trans (by rw [Hub.calCtl_lost off (bit_putTop _) lost])
  case busy => exact (exec_calEnable live w).trans (by rw [Hub.calCtl_judged off (bit_putTop _) free normal, if_pos busy])
  case on => exact (exec_calEnable live w).trans (by
    rw [Hub.calCtl_judged off (bit_putTop _) free normal, if_neg (Bool.eq_false_iff.1 idle)]; rfl)
  case off => exact (exec_calDisable live w).trans (by rw [Hub.calCtl_off on (bit_clearTop _) same]; rfl)
  case other => exact (exec_calDisable live w).trans (by rw [Hub.calCtl_otherEngine on other])
  case ignored => exact (exec_zoneConfigWrite live z w).trans (by rw [Hub.zoneWrite_ignored gain])
  case zoneBad => exact (exec_zoneConfigWrite live z w).trans (by rw [Hub.zoneWrite_refused gain bad])
  case zone => exact (exec_zoneConfigWrite live z w).trans (by rw [Hub.zoneWrite_enforced gain fine]; rfl)
  case windowFails =>
    have reason : w.endReason kind.toNat exc = some r := reason
    exact (exec_calWindowEnd live kind n m exc).trans (by rw [Hub.calWindowEnd_complete complete alone, reason])
  case analysed =>
    have reason : w.endReason kind.toNat exc = none := reason
    exact (exec_calWindowEnd live kind n m exc).trans (by rw [Hub.calWindowEnd_complete complete alone, reason])
  case fails => exact (exec_calPublish live kind n m r).trans (by rw [Hub.calPublish_fails found reason])
  case line => exact (exec_calPublish live kind n m r).trans (by rw [Hub.calPublish_published found reason free, if_pos line])
  case path =>
    exact (exec_calPublish live kind n m r).trans (by rw [Hub.calPublish_published found reason free, if_neg (by omega), if_pos path])
  case noise =>
    exact (exec_calPublish live kind n m r).trans (by
      rw [Hub.calPublish_published found reason free, if_neg (by omega), if_neg (by omega)])
  case taken => exact (exec_forceRequest live w).trans (by rw [Hub.calForce_taken key taken])
  case forceBad => exact (exec_forceRequest live w).trans (by rw [Hub.calForce_bad key on idle bad])
  case force => exact (exec_forceRequest live w).trans (by rw [Hub.calForce_takes key on idle fine])
  case loud => rw [exec_forceExcitationEnd live, Hub.forceExcitation_measured forced measuring, if_pos loud]
  case slow => rw [exec_forceExcitationEnd live, Hub.forceExcitation_measured forced measuring, if_neg (by omega), if_pos slow]
  case pilot => rw [exec_forceExcitationEnd live, Hub.forceExcitation_measured forced measuring, if_neg (by omega), if_neg (by omega)]
  case fading => rw [exec_pilotFadeInEnd live, Hub.pilotFadeInEnd_opens forced fading]
  case due => rw [exec_trimDue live, Hub.trimDue_waits on input rests]
  case quiet => exact (exec_trimQuietEnd live n mean).trans (by rw [Hub.trimQuiet_starts on input due bias still])
  case done => rw [exec_trimDone live, Hub.trimDone_exact trim there whole]

end Sys2Proof.Machine
end

section
/-! PROOF. The caption ports and the cues (O48). -/

namespace Sys2Proof.Machine

section runs
variable {s : State} (live : s.live = true)
include live

theorem exec_captionPortEnable (p : Fin 2) : exec (.captionPortEnable p) s = .next (s.withHub (s.hub.capEnable p)) :=
  State.onHub_next live fun h => h.capEnable p
theorem exec_captionPortDisable (p : Fin 2) : exec (.captionPortDisable p) s = .next (s.withHub (s.hub.capDisable p)) :=
  State.onHub_next live fun h => h.capDisable p
theorem exec_modeRequest (p : Fin 2) (m : BitVec 4) : exec (.modeRequest p m) s = .next (s.withHub (s.hub.modeRequest p m.toNat)) :=
  State.onHub_next live fun h => h.modeRequest p m.toNat
theorem exec_captionFrameStart (p : Fin 2) : exec (.captionFrameStart p) s = .next (s.withHub (s.hub.frameStart p)) :=
  State.onHub_next live fun h => h.frameStart p
theorem exec_linePacket (p : Fin 2) : exec (.linePacket p) s = .next (s.withHub (s.hub.linePacket p)) :=
  State.onHub_next live fun h => h.linePacket p
theorem exec_pageSelect (w : Word) : exec (.pageSelect w) s = .next (s.withHub (s.hub.pageSelect w.toNat)) :=
  State.onHub_next live fun h => h.pageSelect w.toNat
theorem exec_cueWrite (c : Fin 64) (hi : Word) : exec (.cueWrite c hi) s = .next (s.wrote (s.hub.cueWrite c hi.toNat)) :=
  State.onWrite_next live fun h => h.cueWrite c hi.toNat

end runs

/-- A stall that is taken or not changes no more than the stalls that wait. -/
theorem Hub.stallTaken_frame (h : Hub) (kind i requester : Nat) :
    ∃ stalls, (h.stallTaken kind i requester).1 = { h with cp := { h.cp with stalls := stalls } } := by
  by_cases waits : h.cp.stalls.contains (kind, i, stallPath requester) = true
  · exact ⟨_, by rw [Hub.stallTaken, if_pos waits]⟩
  · exact ⟨h.cp.stalls, by rw [Hub.stallTaken, if_neg waits]⟩

section captions
variable {h : Hub} {p : Nat}

/-! ### Enabling (R512) -/

section enable
variable (off : bit (h.reg 0x60) p = false)
include off

theorem Hub.capEnable_badMode (bad : h.modeValid p (h.reg (0x64 + p)) = false) :
    h.capEnable p = (h.setFlag (kCapFlag 0)).issue (176 + p) 5 1 (h.reg (0x64 + p)) 0 :=
  (if_neg (Bool.eq_false_iff.1 off)).trans (if_pos (by simp [bad]))

/-- CLKO7 runs with settings that are not the ports'. -/
def Hub.clkoTaken (h : Hub) : Prop :=
  (h.clko 7).en = true ∧ ((h.clko 7).dom ≠ 0 ∨ h.reg (kClko 7 0) ≠ 16 ∨ h.fld (kClko 7 1) 0 0 ≠ 0)

section valid
variable (valid : h.modeValid p (h.reg (0x64 + p)) = true)
include valid

theorem Hub.capEnable_noClock (taken : h.clkoTaken) : h.capEnable p = (h.setFlag (kCapFlag 0)).issue (176 + p) 5 2 (h.reg (0x64 + p)) 0 :=
  (if_neg (Bool.eq_false_iff.1 off)).trans ((if_neg (by simp [valid])).trans (if_pos taken))

theorem Hub.capEnable_enables (free : ¬ h.clkoTaken) : h.capEnable p =
    (((h.capClock.setFld 0x60 p p 1).setReg (0x62 + p) (h.reg (0x64 + p))).modPort p fun c => { c with pend := false }).capSync :=
  (if_neg (Bool.eq_false_iff.1 off)).trans ((if_neg (by simp [valid])).trans (if_neg free))

end valid
end enable

section disable
variable (on : bit (h.reg 0x60) p = true)
include on

theorem Hub.capDisable_keepsClock (held : ((h.setFld 0x60 p p 0).portStop p 1).capHolds = true) :
    h.capDisable p = (h.setFld 0x60 p p 0).portStop p 1 :=
  (if_neg (by simp [Hub.capEn, on])).trans (if_pos held)

theorem Hub.capDisable_last (free : ((h.setFld 0x60 p p 0).portStop p 1).capHolds = false) : h.capDisable p =
    (let g := (h.setFld 0x60 p p 0).portStop p 1
     g.tookFree.clkoDisable 7 (bit g.freeVal 0)) :=
  (if_neg (by simp [Hub.capEn, on])).trans (if_neg (Bool.eq_false_iff.1 free))

end disable

/-! ### Modes, frames and line packets (R508, R513, R514) -/

theorem Hub.modeRequest_stored {m : Nat} (fits : h.capH p % scanOf m = 0) : h.modeRequest p m =
    (h.setReg (0x64 + p) m).modPort p fun c => { c with pend := (h.capEn p && c.pend) || m != h.reg (0x62 + p) } :=
  if_pos (beq_iff_eq.2 fits)

theorem Hub.modeRequest_refused {m : Nat} (cut : h.capH p % scanOf m ≠ 0) : h.modeRequest p m =
    (h.setFlag (kCapFlag 0)).issue (176 + p) 4 m (h.reg (0x64 + p)) (h.reg (kPort p 0)) :=
  if_neg (mt beq_iff_eq.1 cut)

theorem Hub.cport_modPort_same (h : Hub) (p : Fin 2) (f : CapPort → CapPort) : (h.modPort p f).cport p = f (h.cport p) := by
  rw [Hub.cport, Hub.modPort, Two.get_mod _ _ _ p.isLt, if_pos rfl, Hub.cport]

theorem Hub.cport_congr {g h : Hub} (caps : g.cap = h.cap) (p : Nat) : g.cport p = h.cport p := by rw [Hub.cport, Hub.cport, caps]

/-- A frame latches a pending mode and takes up a held page; it is blank as the first one or as the first of its mode. -/
theorem Hub.cport_frameStart {p : Fin 2} (run : (h.cport p).run = true) (ended : (h.cport p).left = 0) : (h.frameStart p).cport p =
    (let c := h.cport p
     let old := h.reg (0x62 + p)
     let new := if c.pend then h.reg (0x64 + p) else old
     { c with pend := false, first := false, blank := c.first || decide (new ≠ old), row := 0, left := scanOf new
              page := c.held.getD c.page, held := none }) := by
  rw [Hub.frameStart, if_neg (by simp [run, ended]), Hub.cport_modPort_same]
  have kept : ∀ (changed : Prop) [Decidable changed] (old new : Nat),
      (if changed then (h.setReg (0x62 + p) new).issue (176 + p) 3 old new (h.stamp.toNat % 65536) else h).cport p = h.cport p := by
    intro changed _ old new
    split
    · exact Hub.cport_congr (Hub.issue_cap ..) p
    · rfl
  rw [kept]

theorem Hub.pixelWords_stallTaken (h : Hub) (kind i requester p : Nat) (c : CapPort) (mode : Nat) :
    (h.stallTaken kind i requester).1.pixelWords p c mode = h.pixelWords p c mode := by
  obtain ⟨stalls, e⟩ := h.stallTaken_frame kind i requester
  rw [e]
  rfl

/-- The body of the next line packet; the pixels of a stalled read are zero (R53). -/
def Hub.lineBody (h : Hub) (p : Nat) (lost : Bool) : List Nat :=
  let c := h.cport p
  let mode := h.reg (0x62 + p)
  let a := 4096 * c.row + flagAt (bit mode 3) 11 + flagAt c.blank 10 + flagAt (bit mode 2) 9 + flagAt (c.row == 0) 8 + h.fcnt p
  let b := 2048 * h.fld (kPort p 0) 12 8 + 512 * h.fld (kPort p 0) 1 0
  [a, b] ++ (if c.blank then [] else if lost then (h.pixelWords p c mode).map fun _ => 0 else h.pixelWords p c mode)

/-- The port sends a packet with the body given, and counts the frame with its last packet. -/
def Hub.sendLine (h : Hub) (p : Nat) (body : List Nat) (last : Prop) [Decidable last] : Hub :=
  let h := h.modPort p fun c =>
    { c with packet := ([0xB5E3] ++ body ++ [crcWords body]).map (BitVec.ofNat 16), row := c.row + 1, left := c.left - 1 }
  if last then h.addWrap (kPort p 2) 3 1 else h

theorem Hub.linePacket_sends (run : (h.cport p).run = true) (left : 0 < (h.cport p).left) : h.linePacket p =
    (let st := if (h.cport p).blank then (h, false) else h.stallTaken 7 0 (176 + p)
     st.1.sendLine p (h.lineBody p st.2) ((h.cport p).left = 1)) := by
  rw [Hub.linePacket, if_neg (by simp [run, Nat.ne_of_gt left])]
  cases blank : (h.cport p).blank with
  | true => simp only [Hub.sendLine, Hub.lineBody, blank, if_true]
  | false => simp only [Hub.sendLine, Hub.lineBody, blank, Bool.false_eq_true, if_false, Hub.pixelWords_stallTaken]

/-! ### Cues (R519, R521) -/

section cue
variable {c : Nat}

/-- A cue's words take effect, and it no longer counts as late. -/
def Hub.cueTaken (h : Hub) (c : Nat) : Hub :=
  let h := iter 3 (fun i h => h.enforce (kCue c i)) h
  { h with cap := { h.cap with late := h.cap.late.filter (· ≠ c) } }

theorem Hub.cueJudge_invalid (invalid : bit ((h.cueTaken c).eff (kCue c 0)) 15 = false) : h.cueJudge c = h.cueTaken c :=
  if_pos (congrArg Bool.not invalid)

section valid
variable (valid : bit ((h.cueTaken c).eff (kCue c 0)) 15 = true)
include valid

theorem Hub.cueJudge_ahead (ahead : (h.cueTaken c).cueLate c < 0) : h.cueJudge c = h.cueTaken c :=
  (if_neg (ne_of_eq_of_ne (congrArg Bool.not valid) Bool.false_ne_true)).trans (if_pos ahead)

/-- A cue that is past by LATEMAX at most fires late. -/
theorem Hub.cueJudge_late (past : 0 ≤ (h.cueTaken c).cueLate c) (within : (h.cueTaken c).cueLate c ≤ (h.cueTaken c).reg (kCap 0x80300)) :
    h.cueJudge c =
    (let t := h.cueTaken c
     let g := ({ t with cap := { t.cap with late := t.cap.late ++ [c] } } : Hub).addSat (kCapCnt 1) 2 1
     (g.setFlag (kCapFlag 1)).issueLimited 0 178 1 c (min 65535 (t.cueLate c).toNat) (bits (g.eff (kCue c 0)) 7 0)) :=
  (if_neg (ne_of_eq_of_ne (congrArg Bool.not valid) Bool.false_ne_true)).trans
    ((if_neg (Int.not_lt.2 past)).trans (if_pos within))

end valid
end cue
end captions

/-- Settles O48, command by command. -/
theorem captionCommandsAnswer : Obligations.CaptionCommandsAnswer := by
  refine ⟨fun s p live off => ⟨fun bad => ?badMode, fun valid taken => ?noClock, fun valid free => ?enables⟩,
    fun s p live on => ⟨fun held => ?keeps, fun free => ?last⟩, fun s p m live => ⟨fun fits => ?stored, fun cut => ?cut⟩,
    fun s p live run ended => ⟨_, exec_captionFrameStart live p, Hub.cport_frameStart run ended⟩,
    fun s p live run left => ?packet, fun s w live => exec_pageSelect live w,
    fun s c hi live => ⟨fun decoders => ?decoders, fun hosts => ⟨?cue, Hub.cueJudge_invalid, Hub.cueJudge_ahead, Hub.cueJudge_late⟩⟩⟩
  case badMode => exact (exec_captionPortEnable live p).trans (by rw [Hub.capEnable_badMode off bad])
  case noClock => exact (exec_captionPortEnable live p).trans (by rw [Hub.capEnable_noClock off valid taken])
  case enables => exact (exec_captionPortEnable live p).trans (by rw [Hub.capEnable_enables off valid free])
  case keeps => exact (exec_captionPortDisable live p).trans (by rw [Hub.capDisable_keepsClock on held])
  case last => exact (exec_captionPortDisable live p).trans (by rw [Hub.capDisable_last on free])
  case stored => rw [exec_modeRequest live, Hub.modeRequest_stored fits]
  case cut => rw [exec_modeRequest live, Hub.modeRequest_refused cut]
  case packet => exact (exec_linePacket live p).trans (by rw [Hub.linePacket_sends run left]; rfl)
  case decoders => rw [exec_cueWrite live, Hub.cueWrite, if_pos decoders]
  case cue => rw [exec_cueWrite live, Hub.cueWrite, if_neg (Nat.not_le.2 hosts)]

end Sys2Proof.Machine
end

section
/-! PROOF. The commands of the Carafe store, their completion and the patrol (O49). -/

namespace Sys2Proof.Machine

section runs
variable {s : State} (live : s.live = true)
include live

theorem exec_storeOpen : exec .storeOpen s = .next (s.wrote (s.hub.carCmd 1 {})) := State.onWrite_next live fun h => h.carCmd 1 {}
theorem exec_storeWrite (x : NandIn) : exec (.storeWrite x) s = .next (s.wrote (s.hub.carCmd 2 x)) := State.onWrite_next live fun h => h.carCmd 2 x
theorem exec_storeCommit : exec .storeCommit s = .next (s.wrote (s.hub.carCmd 3 {})) := State.onWrite_next live fun h => h.carCmd 3 {}
theorem exec_storeAbort : exec .storeAbort s = .next (s.wrote (s.hub.carCmd 4 {})) := State.onWrite_next live fun h => h.carCmd 4 {}
theorem exec_storeRead (x : NandIn) : exec (.storeRead x) s = .next (s.wrote (s.hub.carCmd 5 x)) := State.onWrite_next live fun h => h.carCmd 5 x
theorem exec_storeDelete : exec .storeDelete s = .next (s.wrote (s.hub.carCmd 6 {})) := State.onWrite_next live fun h => h.carCmd 6 {}
theorem exec_storeInfo : exec .storeInfo s = .next (s.wrote (s.hub.carCmd 7 {})) := State.onWrite_next live fun h => h.carCmd 7 {}
theorem exec_storeLogRead : exec .storeLogRead s = .next (s.wrote (s.hub.carCmd 8 {})) := State.onWrite_next live fun h => h.carCmd 8 {}
theorem exec_storeFload (x : NandIn) : exec (.storeFload x) s = .next (s.wrote (s.hub.carCmd 9 x)) := State.onWrite_next live fun h => h.carCmd 9 x
theorem exec_cmdDone : exec .cmdDone s = .next (s.withHub s.hub.cmdDone) := State.onHub_next live Hub.cmdDone
theorem exec_patrolRead (soft : List (Fin 4096)) : exec (.patrolRead soft) s = .next (s.withHub (s.hub.patrol (soft.map (·.val)))) :=
  State.onHub_next live fun h => h.patrol (soft.map fun b : Fin 4096 => b.val)

end runs

section store
variable {h : Hub}

/-- A link on which no stall waits lets the access pass (R53). -/
theorem Hub.stallTaken_passes (quiet : h.cp.stalls = []) (kind i requester : Nat) : h.stallTaken kind i requester = (h, false) := by
  rw [Hub.stallTaken, quiet]
  rfl

/-! ### A command runs at once and is busy with its result (R538, R539) -/

/-- The store is busy with a command and its result. -/
def Hub.carBusy (h : Hub) (cmd r id : Nat) : Hub := h.modNand fun n => { n with busy := some (cmd, r, id), done := false, cmd := cmd }

theorem Hub.carCmd_fails {cmd : Nat} {x : NandIn} (busy : h.nand.busy ≠ none) : h.carCmd cmd x = h.failWin 3 0x1000 :=
  if_pos (Option.isSome_iff_ne_none.2 busy)

theorem Hub.carCmd_runs {cmd : Nat} {x : NandIn} (idle : h.nand.busy = none) (known : 1 ≤ cmd ∧ cmd ≤ 9) {g : Hub} {r : Nat}
    (run : h.carRun cmd x = (g, r)) : h.carCmd cmd x = g.carBusy cmd r (h.reg (kCar 0x1002)) := by
  rw [Hub.carCmd, if_neg (by simp [idle]), if_neg (by omega)]
  dsimp only
  rw [run, Hub.carBusy]

theorem Hub.carRun_unavailable {cmd : Nat} {x : NandIn} (avail : h.nand.avail ≠ some true) : h.carRun cmd x = (h, 12) := if_pos avail

theorem Hub.carRun_closed {cmd : Nat} {x : NandIn} (avail : h.nand.avail = some true) (closed : h.nand.closed = true) :
    h.carRun cmd x = (h, 10) := (if_neg (not_not_intro avail)).trans (if_pos closed)

/-- What a mounted, open store runs for a command. -/
theorem Hub.carRun_open {cmd : Nat} {x : NandIn} (avail : h.nand.avail = some true) (opened : h.nand.closed = false) : h.carRun cmd x =
    match cmd with
    | 1 => h.carOpen
    | 2 => h.carWrite x
    | 3 => h.carCommit
    | 4 => h.carAbort
    | 5 => h.carRead x
    | 6 => h.carDelete
    | 7 => h.carInfo
    | 8 => h.carLog
    | _ => h.carFload x := (if_neg (not_not_intro avail)).trans (if_neg (Bool.eq_false_iff.1 opened))

/-! ### Sessions (R537, R540) -/

theorem Hub.carOpen_begins (object : h.carOk = true) (idle : h.nand.sess = none) (least : 1 ≤ h.carArg)
    (fits : h.carArg ≤ partMax (h.reg (kCar 0x1001))) : h.carOpen =
    ((h.modNand fun n => { n with gen := n.gen + 1, sess := some { obj := h.carObj, len := h.carArg, gen := n.gen + 1 } }).setReg (kCar 0x100B) 0,
      0) := by
  rw [Hub.carOpen, if_neg (by simp [object]), if_neg (by simp [idle]), if_neg (by omega)]

section session
variable {t : Session} (sess : h.nand.sess = some t)
include sess

theorem Hub.carWrite_adds {x : NandIn} {n : Store} (room : t.pages.length < pagesFor t.len) (quiet : h.cp.stalls = [])
    (page : h.nand.addPage (t.obj / 4096) (t.obj, t.pages.length, t.gen) false = some n) (programs : x.progFail = false)
    (erases : x.eraseFail = false) : h.carWrite x =
    ((({ h with nand := { n with sess := some { t with pages := t.pages ++ [sessionPage t.len t.pages.length h.carBuf] } } } : Hub).modNand fun n =>
      n.collect (t.obj / 4096)).setReg (kCar 0x100B) (t.pages.length + 1), 0) := by
  rw [Hub.carWrite, sess]
  dsimp only
  rw [if_neg (Nat.not_le.2 room), Hub.stallTaken_passes quiet]
  dsimp only
  rw [if_neg Bool.false_ne_true, page]
  dsimp only
  rw [if_neg (Bool.eq_false_iff.1 programs), erases]
  rfl

theorem Hub.carCommit_commits (whole : pagesFor t.len ≤ t.pages.length) : h.carCommit = (h.modNand fun n => { n with
    sess := none
    objs := tput (fun _ => none) n.objs t.obj (some { len := t.len, pages := t.pages, gen := t.gen, crc := crc32 (t.pages.flatten.take t.len) }) },
    0) := by
  rw [Hub.carCommit, sess]
  exact if_neg (Nat.not_lt.2 whole)

theorem Hub.carCommit_short (short : t.pages.length < pagesFor t.len) : h.carCommit = (h, 7) := by
  rw [Hub.carCommit, sess]
  exact if_pos short

theorem Hub.carAbort_drops : h.carAbort = (h.modNand fun n => { n with sess := none }, 0) := if_neg (by simp [sess])

end session

/-! ### Objects (R538, R540) -/

section object
variable {v : NandObj} (object : h.carOk = true) (stored : h.nand.obj h.carObj = some v)
include object stored

theorem Hub.carDelete_drops : h.carDelete = (h.modNand fun n => { n with objs := tput (fun _ => none) n.objs h.carObj none }, 0) := by
  rw [Hub.carDelete, if_neg (by simp [object]), if_neg (by simp [stored])]

theorem Hub.carInfo_gives : h.carInfo =
    (((h.setRegN (kCar 0x1006) 2 v.len).setRegN (kCar 0x1008) 2 v.crc.toNat).setFld (kCar 0x100A) 15 15 (b2n v.damaged), 0) := by
  rw [Hub.carInfo, if_neg (by simp [object]), stored]

theorem Hub.carRead_past {x : NandIn} (past : v.pages.length ≤ h.carArg) : h.carRead x = (h, 5) := by
  rw [Hub.carRead, if_neg (by simp [object]), stored]
  exact if_pos past

end object

/-- A block is read once more. -/
def Hub.countRead (h : Hub) (b : Nat) : Hub := h.modNand fun n => n.modBlock b fun k => { k with reads := k.reads + 1 }

theorem Hub.reads_countRead (h : Hub) (b : Nat) : ((h.countRead b).nand.block b).reads = (h.nand.block b).reads + 1 := by
  rw [Hub.countRead, Hub.modNand_nand, Store.modBlock, Store.block, tget_tput_same]

/-- A page read with nothing wrong counts the read of its block (R536). -/
theorem Hub.nandRead_counts {o i : Nat} (opened : h.nand.closed = false) (fresh : (h.nand.block (h.pageBlock o i)).reads + 1 < 100000) :
    h.nandRead o [i] [] false = h.countRead (h.pageBlock o i) := by
  have walk : h.nandRead o [i] [] false =
      (let g := h.countRead (h.pageBlock o i)
       if g.nand.closed then g
       else if 100000 ≤ (g.nand.block (h.pageBlock o i)).reads then g.refreshBlock (h.pageBlock o i) 1 else g) := rfl
  rw [walk, if_neg (Bool.eq_false_iff.1 (show (h.countRead (h.pageBlock o i)).nand.closed = false from opened)), Hub.reads_countRead,
    if_neg (Nat.not_le.2 fresh)]

/-- READ of a page whose sectors are all readable fills the buffer with it. -/
theorem Hub.carRead_reads {v : NandObj} {x : NandIn} (object : h.carOk = true) (stored : h.nand.obj h.carObj = some v) (opened : h.nand.closed = false)
    (within : h.carArg < v.pages.length) (quiet : h.cp.stalls = []) (good : x.bad = []) (firm : x.soft = false)
    (fresh : (h.nand.block (h.pageBlock h.carObj h.carArg)).reads + 1 < 100000) :
    h.carRead x = ((h.countRead (h.pageBlock h.carObj h.carArg)).setCarBuf (lget [] v.pages h.carArg), 0) := by
  have kept : (h.countRead (h.pageBlock h.carObj h.carArg)).nand.obj h.carObj = some v := stored
  rw [Hub.carRead, if_neg (by simp [object]), stored]
  dsimp only
  rw [if_neg (Nat.not_le.2 within), Hub.stallTaken_passes quiet, good, firm]
  dsimp only
  rw [if_neg Bool.false_ne_true, List.filter_nil, Hub.nandRead_counts opened fresh, kept]
  rfl

theorem Hub.pageBlock_stored {o i : Nat} {v : NandObj} (stored : h.nand.obj o = some v) :
    h.pageBlock o i = ((partBlocks (o / 4096)).find? fun b => (h.nand.block b).pages.contains (o, i, v.gen)).getD 0 := by
  rw [Hub.pageBlock, stored]

theorem Hub.carLog_reads {e : Nat} {b : List Byte} (page : h.nand.log[h.carArg]? = some (e, b)) (quiet : h.cp.stalls = []) :
    h.carLog = (h.setCarBuf b, 0) := by
  rw [Hub.carLog, page]
  dsimp only
  rw [Hub.stallTaken_passes quiet]
  rfl

/-! ### Completion and the patrol (R536, R539) -/

theorem Hub.cmdDone_done {cmd r id : Nat} (busy : h.nand.busy = some (cmd, r, id)) (alone : h.pwr.boot.wait ≠ .fload) : h.cmdDone =
    ((h.modNand fun n => { n with busy := none, done := true, result := r }).addSat (kCar 0x1206) 2 1).issue 186 1 cmd r id := by
  have ends : h.carDone = ((h.modNand fun n => { n with busy := none, done := true, result := r }).addSat (kCar 0x1206) 2 1).issue 186 1 cmd r id := by
    rw [Hub.carDone, busy]
  have kept : h.carDone.pwr = h.pwr := by
    rw [ends, Hub.issue_pwr]
    obtain ⟨regs, e⟩ := (h.modNand fun n => { n with busy := none, done := true, result := r }).setRegN_frame (kCar 0x1206) 2
      (satN (65536 ^ 2 - 1) ((h.modNand fun n => { n with busy := none, done := true, result := r }).regN (kCar 0x1206) 2 + 1))
    rw [Hub.addSat, e]
    rfl
  have alone : h.carDone.pwr.boot.wait ≠ .fload := kept.symm ▸ alone
  exact (if_neg (by simp [busy])).trans ((if_neg alone).trans ends)

theorem Hub.patrol_reads {soft : List Nat} (avail : h.nand.avail = some true) (opened : h.nand.closed = false) : h.patrol soft =
    (let bs := (h.nand.blocks.filter fun e => !e.2.pages.isEmpty && !e.2.bad && partOf e.1 != 3).map (·.1)
     let g := bs.foldl (fun h b => h.modNand fun n => n.modBlock b fun k => { k with reads := k.reads + k.pages.length }) h
     bs.foldl (fun h b => if soft.contains b then h.refreshBlock b 3 else if 100000 ≤ (h.nand.block b).reads then h.refreshBlock b 1 else h) g) :=
  if_neg (by simp [avail, opened])

end store

/-- Settles O49, command by command. -/
theorem storeCommandsAnswer : Obligations.StoreCommandsAnswer := by
  refine ⟨fun s x live idle => ?command, fun s live busy => ?fails, fun s cmd r id live busy alone => ?done,
    fun s soft live avail opened => ?patrol⟩
  case fails => rw [exec_storeOpen live, Hub.carCmd_fails busy]
  case done => rw [exec_cmdDone live, Hub.cmdDone_done busy alone]
  case patrol => exact (exec_patrolRead live soft).trans (by rw [Hub.patrol_reads avail opened])
  case command =>
    have runs : ∀ {i cmd y g r}, exec i s = .next (s.wrote (s.hub.carCmd cmd y)) → 1 ≤ cmd ∧ cmd ≤ 9 → s.hub.carRun cmd y = (g, r) →
        exec i s = .next (s.wrote (g.carBusy cmd r (s.hub.reg (kCar 0x1002)))) := fun command known run =>
      command.trans (by rw [Hub.carCmd_runs idle known run])
    have each : ∀ r, (∀ cmd y, s.hub.carRun cmd y = (s.hub, r)) → _ ∧ _ ∧ _ ∧ _ ∧ _ ∧ _ ∧ _ ∧ _ ∧ _ := fun r run =>
      ⟨runs (exec_storeOpen live) (by omega) (run 1 _), runs (exec_storeWrite live x) (by omega) (run 2 _),
        runs (exec_storeCommit live) (by omega) (run 3 _), runs (exec_storeAbort live) (by omega) (run 4 _),
        runs (exec_storeRead live x) (by omega) (run 5 _), runs (exec_storeDelete live) (by omega) (run 6 _),
        runs (exec_storeInfo live) (by omega) (run 7 _), runs (exec_storeLogRead live) (by omega) (run 8 _),
        runs (exec_storeFload live x) (by omega) (run 9 _)⟩
    refine ⟨fun avail => each 12 fun _ _ => Hub.carRun_unavailable avail, fun avail closed => each 10 fun _ _ => Hub.carRun_closed avail closed,
      fun avail opened => ⟨fun object idle least fits => ?begins, fun t n sess room quiet page programs erases => ?adds,
        fun t sess => ⟨fun whole => ?commits, fun short => ?short, ?aborts⟩,
        fun v object stored => ⟨?deletes, ?info, fun past => ?past, fun within quiet good firm fresh => ?reads, ?fload⟩,
        fun e b page quiet => ?log⟩⟩
    case begins =>
      exact runs (exec_storeOpen live) (by omega) ((Hub.carRun_open avail opened).trans (Hub.carOpen_begins object idle least fits))
    case adds =>
      exact runs (exec_storeWrite live x) (by omega)
        ((Hub.carRun_open avail opened).trans (Hub.carWrite_adds sess room quiet page programs erases))
    case commits => exact runs (exec_storeCommit live) (by omega) ((Hub.carRun_open avail opened).trans (Hub.carCommit_commits sess whole))
    case short => exact runs (exec_storeCommit live) (by omega) ((Hub.carRun_open avail opened).trans (Hub.carCommit_short sess short))
    case aborts => exact runs (exec_storeAbort live) (by omega) ((Hub.carRun_open avail opened).trans (Hub.carAbort_drops sess))
    case deletes => exact runs (exec_storeDelete live) (by omega) ((Hub.carRun_open avail opened).trans (Hub.carDelete_drops object stored))
    case info => exact runs (exec_storeInfo live) (by omega) ((Hub.carRun_open avail opened).trans (Hub.carInfo_gives object stored))
    case past => exact runs (exec_storeRead live x) (by omega) ((Hub.carRun_open avail opened).trans (Hub.carRead_past object stored past))
    case reads =>
      rw [← Hub.pageBlock_stored stored] at fresh
      rw [← Hub.pageBlock_stored stored]
      exact runs (exec_storeRead live x) (by omega)
        ((Hub.carRun_open avail opened).trans (Hub.carRead_reads object stored opened within quiet good firm fresh))
    case fload => exact runs (exec_storeFload live x) (by omega) (Hub.carRun_open avail opened)
    case log => exact runs (exec_storeLogRead live) (by omega) ((Hub.carRun_open avail opened).trans (Hub.carLog_reads page quiet))

end Sys2Proof.Machine
end

section
/-! PROOF. The scrubber, the store's mount, the incident log and the telemetry (O50). -/

namespace Sys2Proof.Machine

section runs
variable {s : State} (live : s.live = true)
include live

theorem exec_scrubRead (dram : Bool) (e : Ecc) (raced : Bool) (use : ScrubUse) : exec (.scrubRead dram e raced use) s =
    .next (s.withHub (s.hub.scrubRead dram e use)) := State.onHub_next live fun h => h.scrubRead dram e use
theorem exec_nandMount (a b : NandIn) : exec (.nandMount a b) s =
    .next { s with hub := (nandMount s.hub s.q a b).1, q := (nandMount s.hub s.q a b).2 } := State.onQ_next live fun h q => nandMount h q a b
theorem exec_mountFailed (c : Fin 2) : exec (.mountFailed c) s =
    .next { s with hub := (mountFailed s.hub s.q (c.val + 1)).1, q := (mountFailed s.hub s.q (c.val + 1)).2 } :=
  State.onQ_next live fun h q => mountFailed h q (c.val + 1)
theorem exec_logPage (x : LogIn) : exec (.logPage x) s = .next (s.withHub (s.hub.recPage x)) := State.onHub_next live fun h => h.recPage x
theorem exec_logFreeze : exec .logFreeze s = .next (s.withHub (s.hub.logFreeze true)) := State.onHub_next live fun h => h.logFreeze true
theorem exec_logResume : exec .logResume s = .next (s.withHub (s.hub.logFreeze false)) := State.onHub_next live fun h => h.logFreeze false
theorem exec_logMark (code : Byte) : exec (.logMark code) s = .next (s.withHub (s.hub.logMark code.toNat)) :=
  State.onHub_next live fun h => h.logMark code.toNat
theorem exec_telemetrySample (e : Fin 64) : exec (.telemetrySample e) s = .next (s.withHub (s.hub.telSample s.q e)) :=
  State.onHub_next live fun h => h.telSample s.q e
theorem exec_telemetryExport : exec .telemetryExport s = .next (s.withHub s.hub.telExport) := State.onHub_next live Hub.telExport

end runs

section services
variable {h : Hub}

/-! ### The scrubber (R529 to R532) -/

section scrub
variable (on : bit (h.reg 0x68) 15 = true) {c : Ecc} {use : ScrubUse}
include on

theorem Hub.scrubRead_chip : h.scrubRead false c use =
    (let g := h.scrubChip (chipUnit h.scr.chip) c use
     if g.scr.chip + 1 < chipUnits then { g with scr := { g.scr with chip := g.scr.chip + 1 } }
     else ({ g with scr := { g.scr with chip := 0 } } : Hub).addSat (kScr 0) 2 1) :=
  (if_neg (by simp [on])).trans (if_neg Bool.false_ne_true)

/-- The hub after the next DRAM unit's read, which a stall may have ended with no finding (R53). -/
def Hub.scrubbed (h : Hub) (c : Ecc) (use : ScrubUse) : Hub :=
  let st := h.stallTaken 7 0 184
  if st.2 then st.1 else st.1.scrubDram h.scr.dram c use

/-- The walk goes on with the next DRAM unit, or ends its pass. -/
theorem Hub.scrubRead_dram : h.scrubRead true c use =
    (let g := h.scrubbed c use
     if g.scr.dram + 1 < dramUnits then { g with scr := { g.scr with dram := g.scr.dram + 1 } }
     else
       let g := g.addSat (kScr 2) 2 1
       let g := g.issue 185 3 (g.reg (kScr 2)) (satN 65535 ((g.refMs - g.scr.start) / 1000)) (satN 65535 g.scr.found)
       { g with scr := { g.scr with dram := 0, found := 0, start := g.refMs } }) := by
  have place : (h.stallTaken 7 0 184).1.scr = h.scr := by
    obtain ⟨stalls, e⟩ := h.stallTaken_frame 7 0 184
    rw [e]
  rw [Hub.scrubRead, if_neg (by simp [on]), if_pos rfl, Hub.scrubbed]
  dsimp only
  rw [place]

end scrub

/-! ### The mount (R542, R543) -/

section mount
variable {q : EvQueue} (runs : h.pwr.running = true) (unknown : h.nand.avail = none)
include runs unknown

theorem nandMount_mounts {a b : NandIn} (pages : h.nand.log ≠ []) : nandMount h q a b =
    (let g := (h.modNand fun n => { n with avail := some true }).setRegN (kCar 0x1300) 3 (h.nand.pseq - 1)
     let g := (g.issue 187 3 ((h.nand.pseq - 1) % 65536) (g.nand.good 3).length (g.nand.retain / 4 % 65536)).recStart
     stepSeven (g.readHeaders a b) q) := by
  have some : ¬ (h.modNand fun n => { n with avail := some true }).nand.log.isEmpty = true := by simpa using pages
  rw [nandMount, if_neg (by simp [runs, unknown])]
  dsimp only
  rw [if_neg some, if_neg some]
  rfl

theorem mountFailed_rejects {cause : Nat} : mountFailed h q cause =
    (let g := ((h.modNand fun n => { n with avail := some false }).setFlag (kCar 0x1310)).issue 186 6 cause 0 0
     let g := ((g.bootRejected 0 4 2 0).bootRejected 1 4 2 0).modBoot fun b => { b with cands := some [] }
     stepSeven g q) := if_neg (by simp [runs, unknown])

end mount

/-! ### The incident log (R545 to R549) -/

section log
variable {x : LogIn}

section page
variable (on : bit (h.reg 0x6A) 15 = true) (avail : h.nand.avail = some true)
include on avail

theorem Hub.recPage_frozen (frozen : h.rcd.frozen = true) : h.recPage x = h.lostPage :=
  (if_neg (by simp [on])).trans ((if_neg (by simp [avail])).trans ((if_neg (by simp [avail])).trans (if_pos frozen)))

/-- A page in time is programmed, and the next one starts. -/
theorem Hub.recPage_programs (free : h.rcd.frozen = false) (opened : h.rcd.closed = false) (goesOn : h.rcd.closing = false)
    (inTime : x.late = false) (rolls : bit (((({ h with rcd := (h.logPage x.samples false).2 } : Hub).logProgram (h.logPage x.samples false).1
      x.nand.progFail).recStart).reg 0x6A) 14 = false) : h.recPage x =
    (({ h with rcd := (h.logPage x.samples false).2 } : Hub).logProgram (h.logPage x.samples false).1 x.nand.progFail).recStart := by
  rw [Hub.recPage, if_neg (by simp [on]), if_neg (by simp [avail]), if_neg (by simp [avail]), if_neg (by simp [free]), goesOn]
  dsimp only
  rw [if_neg Bool.false_ne_true, if_neg (Bool.eq_false_iff.1 opened), if_neg (Bool.eq_false_iff.1 inTime), if_neg (Bool.eq_false_iff.1 rolls)]

end page

theorem Hub.logFreeze_on : h.logFreeze true = h.setFld 0x6A 14 14 1 := by
  rw [Hub.logFreeze]
  exact if_neg fun off => off.1 rfl

theorem Hub.logFreeze_resumes (frozen : h.rcd.frozen = true) : h.logFreeze false =
    ((h.setFld 0x6A 14 14 0).modRcd fun r => { r with frozen := false }).logFrozen false := if_pos ⟨Bool.false_ne_true, frozen⟩

end log

/-! ### Telemetry (R551 to R554) -/

/-- An access that the watchdog does not end leaves the hub as it is (R53). -/
theorem Hub.stallTaken_free {kind i requester : Nat} (free : (h.stallTaken kind i requester).2 = false) :
    h.stallTaken kind i requester = (h, false) := by
  by_cases waits : h.cp.stalls.contains (kind, i, stallPath requester) = true
  · rw [Hub.stallTaken, if_pos waits] at free
    exact absurd free (by simp)
  · rw [Hub.stallTaken, if_neg waits]

/-- A due item whose quantity is neither open nor a difference writes its four words at the ring's place. -/
theorem Hub.telSample_writes {q : EvQueue} {e : Nat} (on : bit (h.reg 0x6C) 15 = true) (due : h.reg (kTel (0x400011 + 2 * e)) ≠ 0)
    (notTemp : bits (h.reg (kTel (0x400010 + 2 * e))) 14 8 ≠ 3) (notOffset : bits (h.reg (kTel (0x400010 + 2 * e))) 14 8 ≠ 0xC)
    (notDrm : bits (h.reg (kTel (0x400010 + 2 * e))) 14 8 ≠ 0x10) (free : (h.stallTaken 7 0 188).2 = false) : h.telSample q e =
    (let w := h.reg (kTel (0x400010 + 2 * e))
     let k := kTel (4 * (h.telCnt % 2 ^ 20))
     (((h.setReg k (0x8000 + w % 0x8000)).setReg (k + 1) (h.telValue q e (bits w 14 8) (bits w 7 0))).setRegN (k + 2) 2 h.stamp.toNat).addWrap
       (kTel 0x400000) 3 1) := by
  rw [Hub.telSample, if_neg (by simp [on, due])]
  dsimp only
  rw [if_neg (not_or.2 ⟨notTemp, notOffset⟩), if_neg notDrm]
  change (let st := h.stallTaken 7 0 188
    let g := if st.2 then st.1 else ((st.1.setReg _ _).setReg _ _).setRegN _ 2 st.1.stamp.toNat
    g.addWrap (kTel 0x400000) 3 1) = _
  rw [Hub.stallTaken_free free]
  rfl

theorem Hub.telSkip_none (fits : h.telCnt ≤ h.tel.next + 2 ^ 20) : h.telSkip = h := by
  rw [Hub.telSkip]
  dsimp only
  rw [if_pos (by omega)]

theorem Hub.telExport_sends (on : bit (h.reg 0x6C) 14 = true) (fits : h.telCnt ≤ h.tel.next + 2 ^ 20)
    (waits : min (h.fld (kTel 0x400101) 7 0) (h.telCnt - h.tel.next) ≠ 0) : h.telExport =
    (let n := min (h.fld (kTel 0x400101) 7 0) (h.telCnt - h.tel.next)
     let g := { h with tel := { h.tel with next := h.tel.next + n, seq := h.tel.seq + 1 } }
     g.sendFrame (g.fld (kTel 0x400100) 9 0) (h.telDatagram h.tel.next n)) := by
  rw [Hub.telExport, if_neg (by simp [on]), Hub.telSkip_none fits]
  exact if_neg waits

end services

/-- Settles O50, command by command. -/
theorem backgroundServicesAnswer : Obligations.BackgroundServicesAnswer := by
  refine ⟨fun s e raced use live on => ⟨⟨fun more => ?dramNext, fun last => ⟨_, exec_scrubRead live true e raced use, ?pass, ?found⟩⟩,
      ⟨fun more => ?chipNext, fun last => ?chipPass⟩⟩,
    fun s a b runs unknown pages => ?mounts, fun s c runs unknown => ?failed,
    fun s x live on avail => ⟨fun frozen => ?frozen, fun free opened goesOn inTime rolls => ?page⟩,
    fun s code live => ⟨?freeze, fun frozen => ?resume, fun named => ?mark, exec_logMark live 0⟩,
    fun s e live on due notTemp notOffset notDrm free => ?sample, fun s live on fits waits => ?sends⟩
  case dramNext =>
    exact (exec_scrubRead live true e raced use).trans (by
      rw [Hub.scrubRead_dram on]; exact congrArg (fun g => Host.Outcome.next (s.withHub g)) (if_pos more))
  case pass => rw [Hub.scrubRead_dram on]; exact congrArg (fun g : Hub => g.scr.dram) (if_neg (Nat.not_lt.2 last))
  case found => rw [Hub.scrubRead_dram on]; exact congrArg (fun g : Hub => g.scr.found) (if_neg (Nat.not_lt.2 last))
  case chipNext =>
    exact (exec_scrubRead live false e raced use).trans (by
      rw [Hub.scrubRead_chip on]; exact congrArg (fun g => Host.Outcome.next (s.withHub g)) (if_pos more))
  case chipPass =>
    exact (exec_scrubRead live false e raced use).trans (by
      rw [Hub.scrubRead_chip on]; exact congrArg (fun g => Host.Outcome.next (s.withHub g)) (if_neg (Nat.not_lt.2 last)))
  case mounts => exact (exec_nandMount runs a b).trans (by rw [nandMount_mounts runs unknown pages])
  case failed => exact (exec_mountFailed runs c).trans (by rw [mountFailed_rejects runs unknown])
  case frozen => rw [exec_logPage live, Hub.recPage_frozen on avail frozen]
  case page => exact (exec_logPage live x).trans (by rw [Hub.recPage_programs on avail free opened goesOn inTime rolls])
  case freeze => rw [exec_logFreeze live, Hub.logFreeze_on]
  case resume => rw [exec_logResume live, Hub.logFreeze_resumes frozen]
  case mark =>
    have nonzero : code.toNat ≠ 0 := fun zero => named (BitVec.eq_of_toNat_eq zero)
    rw [exec_logMark live, Hub.logMark, if_neg nonzero]
  case sample => exact (exec_telemetrySample live e).trans (by rw [Hub.telSample_writes on due notTemp notOffset notDrm free])
  case sends => exact (exec_telemetryExport live).trans (by rw [Hub.telExport_sends on fits waits])

end Sys2Proof.Machine
end

section
/-! PROOF. The supply's inputs and store, the temperatures and the Roast (O51). -/

namespace Sys2Proof.Machine

section runs
variable {s : State}

theorem exec_inputQualified (ac : Bool) (volt freq : Word) : exec (.inputQualified ac volt freq) s =
    .next (s.withHub (s.hub.inputQualified ac volt.toNat freq.toNat)) := rfl
theorem exec_inputLost (ac : Bool) (c : Fin 3) (volt : Word) : exec (.inputLost ac c volt) s =
    .next (s.withHub (s.hub.inputLost ac (c.val + 1) volt.toNat)) := rfl

variable (live : s.live = true)
include live

theorem exec_holdupUpdate (ms : Word) (chg : Fin 101) (v : Word) : exec (.holdupUpdate ms chg v) s =
    .next (s.withHub (s.hub.holdup ms.toNat chg.val v.toNat)) := State.onHub_next live fun h => h.holdup ms.toNat chg.val v.toNat
theorem exec_inputPowerUpdate (w vdc vac fac : Word) : exec (.inputPowerUpdate w vdc vac fac) s =
    .next (s.withHub (s.hub.inputPower w.toNat vdc.toNat vac.toNat fac.toNat)) :=
  State.onHub_next live fun h => h.inputPower w.toNat vdc.toNat vac.toNat fac.toNat
theorem exec_capacityMeasured (cap : Byte) (short : Bool) : exec (.capacityMeasured cap short) s =
    .next (s.withHub (s.hub.capacity cap.toNat short)) := State.onHub_next live fun h => h.capacity cap.toNat short
theorem exec_ampShed : exec .ampShed s = .next (s.withHub s.hub.ampShed) := State.onHub_next live Hub.ampShed
theorem exec_bypassRelease : exec .bypassRelease s = .next (s.withHub s.hub.bypassRelease) := State.onHub_next live Hub.bypassRelease
theorem exec_thermalSample (renza heat air : Word) : exec (.thermalSample renza heat air) s =
    .next (s.withHub (s.hub.thermal renza.toNat heat.toNat air.toNat)) :=
  State.onHub_next live fun h => h.thermal renza.toNat heat.toNat air.toNat
theorem exec_roastRequest (w : Word) : exec (.roastRequest w) s = .next (s.withHub (s.hub.roastRequest w.toNat)) :=
  State.onHub_next live fun h => h.roastRequest w.toNat
theorem exec_roastDone (hit final : Option RoastBad) : exec (.roastDone hit final) s = .next (s.withHub (s.hub.roastDone hit final)) :=
  State.onHub_next live fun h => h.roastDone hit final

end runs

section supply
variable {h : Hub}

/-! ### Inputs (R584 to R586) -/

section qualified
variable {ac : Bool} {volt freq : Nat} (lost : (if ac then h.pwr.ac else h.pwr.dc) = false)
include lost

theorem Hub.inputQualified_new : h.inputQualified ac volt freq =
    (let g := (h.inputChange ac true).inputEvent ac volt freq
     if g.pwr.loss then g.powerBack else g) := if_neg (Bool.eq_false_iff.1 lost)

end qualified

section lost
variable {ac : Bool} {cause volt : Nat} (there : (if ac then h.pwr.ac else h.pwr.dc) = true)
include there

/-- The hub after the loss of an input is reported. -/
def Hub.inputGone (h : Hub) (ac : Bool) (cause volt : Nat) : Hub := (h.inputChange ac false).issueLimited (b2n ac) 226 2 (b2n ac) cause volt

theorem Hub.inputLost_reported : h.inputLost ac cause volt =
    (let g := h.inputGone ac cause volt
     if g.pwr.dc || g.pwr.ac || !g.pwr.running || g.pwr.loss then g else g.powerLoss) := if_neg (by simp [there])

theorem Hub.inputLost_survives (other : (h.inputGone ac cause volt).pwr.dc = true ∨ (h.inputGone ac cause volt).pwr.ac = true ∨
    (h.inputGone ac cause volt).pwr.running = false ∨ (h.inputGone ac cause volt).pwr.loss = true) :
    h.inputLost ac cause volt = h.inputGone ac cause volt := by
  rw [Hub.inputLost_reported there]
  exact if_pos (by simpa [or_assoc] using other)

theorem Hub.inputLost_last (dc : (h.inputGone ac cause volt).pwr.dc = false) (noAc : (h.inputGone ac cause volt).pwr.ac = false)
    (runs : (h.inputGone ac cause volt).pwr.running = true) (held : (h.inputGone ac cause volt).pwr.loss = false) :
    h.inputLost ac cause volt = (h.inputGone ac cause volt).powerLoss := by
  rw [Hub.inputLost_reported there]
  exact if_neg (by simp [dc, noAc, runs, held])

end lost

/-! ### The shed level and the release (R601) -/

theorem Hub.ampShed_sheds (loss : h.pwr.loss = true) (on : h.pwr.shed = false) : h.ampShed =
    (let g := (h.modPwr fun p => { p with shed := true }).addSat (kPwr 8) 2 1
     let g := iter 8 (fun n h => if h.ampState n = 3 ∨ h.ampState n = 4 then h.ampRamp n 3 .off else h.ampRest n 0 0) g
     g.issue 227 2 1 (satN 65535 (g.refMs - g.pwr.lossAt)) (g.reg 0x75)) := if_neg (by simp [loss, on])

theorem Hub.bypassRelease_closes (shed : h.pwr.shed = true) (held : h.pwr.released = false) : h.bypassRelease =
    ((h.modPwr fun p => { p with released := true }).bypass 3).tlRelayClose 3 := if_neg (by simp [shed, held])

/-! ### Temperatures (R604, R605) -/

/-- The hub after the three temperatures are stored and the derating has moved. -/
def Hub.sensed (h : Hub) (renza heat air : Nat) : Hub :=
  (((h.setReg (kPwr 0xA) renza).setReg (kPwr 0xB) heat).setReg (kPwr 0xC) air).derate (s16 heat)

section thermal
variable {renza heat air : Nat}

theorem Hub.thermal_heats (cold : (h.sensed renza heat air).pwr.hot = false) (high : 120 ≤ s16 renza) : h.thermal renza heat air =
    (((h.sensed renza heat air).modPwr fun p => { p with hot := true }).setFlag (kPwr 0x21)).issue 228 2 1 renza 0 :=
  if_pos ⟨congrArg Bool.not cold, high⟩

theorem Hub.thermal_cools (hot : (h.sensed renza heat air).pwr.hot = true) (low : s16 renza < 115) : h.thermal renza heat air =
    ((h.sensed renza heat air).modPwr fun p => { p with hot := false }).issue 228 2 0 renza 0 :=
  (if_neg fun rises => by omega).trans (if_pos ⟨hot, low⟩)

theorem Hub.thermal_stays (cold : (h.sensed renza heat air).pwr.hot = false) (low : s16 renza < 120) :
    h.thermal renza heat air = h.sensed renza heat air :=
  (if_neg fun rises => by omega).trans (if_neg fun falls => Bool.eq_false_iff.1 cold falls.1)

end thermal

/-! ### The Roast (R572 to R576) -/

section request
variable {w : Nat} (key : bits w 15 12 = 0xB)
include key

theorem Hub.roastRequest_refused {c : Nat} (cause : h.roastCause (bits w 3 0) = some c) : h.roastRequest w = h.refuseRoast w c := by
  rw [Hub.roastRequest, if_neg (not_not_intro key)]
  dsimp only
  rw [cause]

/-- The Roast of the target generation, with its payload from the registers. -/
def Hub.armedRoast (h : Hub) (w g : Nat) : Roast :=
  let p := (List.range 32).map fun i => BitVec.ofNat 16 (h.reg (kOtp (0x1200 + i)))
  { slot := bits w 3 0, gen := g, lock := bit w 8, payload := p, check := otpCheck (bits w 3 0) g p }

theorem Hub.roastRequest_judged {g : Nat} (free : h.roastCause (bits w 3 0) = none) (target : h.otpTarget (bits w 3 0) = some g) :
    h.roastRequest w =
    (let k := h.setReg (kOtp 0x1001) (h.reg 0x75)
     if !k.holdupProof then k.refuseRoast w 6
     else if !k.otpBlank (bits w 3 0) g then ((k.setClass (bits w 3 0) g 2).slotState (bits w 3 0)).refuseRoast w 7
     else { k with otp := { k.otp with slot := bits w 3 0, roast := some (k.armedRoast w g) } }) := by
  rw [Hub.roastRequest, if_neg (not_not_intro key)]
  dsimp only
  rw [free, target]
  rfl

end request

/-- Without a failing word every word is programmed. -/
theorem Hub.burn_whole (s g : Nat) (ws : List Word) : ∀ (h : Hub) (w : Nat), (h.burn s g none ws w).2 = none := by
  induction ws with
  | nil => exact fun h w => rfl
  | cons t ws ih => exact fun h w => ih (h.setOtp s g w (.full t)) (w + 1)

/-- A Roast whose words all verify, and that reads VALID, is sealed (R575). -/
theorem Hub.roastDone_sealed {r : Roast} (roast : h.otp.roast = some r)
    (valid : (h.burn r.slot r.gen none r.words 0).1.otpClass r.slot r.gen = 1) : h.roastDone none none =
    (let k := (h.burn r.slot r.gen none r.words 0).1
     let k := { k with otp := { k.otp with roast := none } }
     let k := ((k.setClass r.slot r.gen 1).slotState r.slot).setReg 0x72 (0x1000 + 256 * r.slot + 64 * r.gen)
     (k.addSat (kOtp 0x1300) 2 1).issue 217 1 r.slot r.gen r.check.toNat) := by
  have whole := Hub.burn_whole r.slot r.gen r.words h 0
  rw [Hub.roastDone, roast]
  dsimp only
  rw [whole]
  dsimp only
  rw [valid, if_neg (not_not_intro rfl)]

end supply

/-- Settles O51, command by command. -/
theorem supplyAndRoastCommandsAnswer : Obligations.SupplyAndRoastCommandsAnswer := by
  refine ⟨fun s ac volt freq lost => ⟨fun held => ?qualified, fun loss => ?back⟩,
    fun s ac c volt there => ⟨fun other => ?survives, fun dc noAc runs held => ?last⟩,
    fun s ms v1 v2 v3 v4 chg cap live => ⟨exec_holdupUpdate live ms chg v1, exec_inputPowerUpdate live v1 v2 v3 v4,
      exec_capacityMeasured live cap false, exec_capacityMeasured live cap true⟩,
    fun s live => ⟨fun loss on => ?sheds, fun shed held => ?releases⟩,
    fun s renza heat air live => ?thermal,
    fun s w live key => ⟨fun c cause => ?refused, fun g free target => ⟨fun unproven => ?unproven, fun proof worn => ?worn, fun proof blank => ?armed⟩⟩,
    fun s r live roast valid => ?sealed⟩
  case qualified =>
    exact (exec_inputQualified ac volt freq).trans (by
      rw [Hub.inputQualified_new lost]; exact congrArg (fun g => Host.Outcome.next (s.withHub g)) (if_neg (Bool.eq_false_iff.1 held)))
  case back =>
    exact (exec_inputQualified ac volt freq).trans (by
      rw [Hub.inputQualified_new lost]; exact congrArg (fun g => Host.Outcome.next (s.withHub g)) (if_pos loss))
  case survives => exact (exec_inputLost ac c volt).trans (by rw [Hub.inputLost_survives there other]; rfl)
  case last => exact (exec_inputLost ac c volt).trans (by rw [Hub.inputLost_last there dc noAc runs held]; rfl)
  case sheds => rw [exec_ampShed live, Hub.ampShed_sheds loss on]
  case releases => rw [exec_bypassRelease live, Hub.bypassRelease_closes shed held]
  case thermal =>
    rw [← s16_toNat renza, ← s16_toNat heat, exec_thermalSample live]
    exact ⟨fun cold high => by rw [Hub.thermal_heats cold high]; rfl, fun hot low => by rw [Hub.thermal_cools hot low]; rfl,
      fun cold low => by rw [Hub.thermal_stays cold low]; rfl⟩
  case refused => exact (exec_roastRequest live w).trans (by rw [Hub.roastRequest_refused key cause])
  case unproven => exact (exec_roastRequest live w).trans (by rw [Hub.roastRequest_judged key free target, if_pos (by rw [unproven]; rfl)])
  case worn =>
    exact (exec_roastRequest live w).trans (by
      rw [Hub.roastRequest_judged key free target, if_neg (by rw [proof]; decide), if_pos (by rw [worn]; rfl)])
  case armed =>
    exact (exec_roastRequest live w).trans (by
      rw [Hub.roastRequest_judged key free target, if_neg (by rw [proof]; decide), if_neg (by rw [blank]; decide)]; rfl)
  case sealed => rw [exec_roastDone live, Hub.roastDone_sealed roast valid]

end Sys2Proof.Machine
end
